-- ==== Sys2Proof/Word.lean ====
section
/-! DEFINITION. The word and byte types of the Renlon 880 and their plainest arithmetic (00_scope R3, R4, R8). -/

namespace Sys2Proof

/-- A scalar register or CSR: a 64-bit doubleword (R4). -/
abbrev Word := BitVec 64

/-- One byte of memory. -/
abbrev Byte := BitVec 8

/-- The doubleword that an unbounded natural wraps to (R8, `wrap64`). -/
def Word.ofN (n : Nat) : Word := BitVec.ofNat 64 n

/-- The doubleword that a mathematical integer wraps to (R8, `wrap64`). -/
def Word.ofI (n : Int) : Word := BitVec.ofInt 64 n

end Sys2Proof
end

