-- ==== Sys2Proof/Config.lean ====
section
/-! DEFINITION. What an implementation fixes and the manual leaves open: values free by the manual. None has a body, so no
proof can see one (notes/assumptions 5 to 12). The arguments are the operands a value depends on, or the machine's counter
of free values, State.free. -/

namespace Sys2Proof.Config

/-- The choice a special function makes among the results its bound admits: function code, operand bits (R321, R63). -/
opaque sfuPick : Nat → Nat → Nat

/-- Which of the NaN codes of a narrow format with several a conversion writes (R29, R33): format parameters, operand. -/
opaque nanPick : Nat → Nat → Nat

/-- The codes that an MX strip with a NaN block scale holds beside its strip scale of 255 (R44): code, scale word. -/
opaque mxNan : Nat → Nat → Nat

/-- emax of a format whose only finite value is 0 (R30), for which the manual defines none. -/
opaque emaxNone : Nat → Nat

/-- VRMAX and VRMIN of class I with no active lane, which the manual gives no value (R325): slot. -/
opaque noLane : Nat → Nat

/-- The choice the pier's tanh makes among the values within 2^-22 (R136): operand bits. -/
opaque tanhPick : Nat → Nat

/-- The order in which a PREDUCE sum adds its contributions (R237): the key that the contribution number is sorted by. -/
opaque sumOrder : Nat → Nat → Nat

/-- The order of a copy's elements (R175), which decides only where footprints meet: the key an element is sorted by. -/
opaque copyOrder : Nat → Nat → Nat

/-- The effect of pier entries 10 to 63 (R135), which Qorholt's images document and this manual does not: micro-words and START,
sequences done before, argument words and range bytes to the range's bytes after one more sequence. -/
opaque pierBody : List Nat → Nat → Nat → List Nat → List Nat → List Nat

/-- Cycles of a job of pier entries 10 to 63 (R138), by micro-words, START and LEN8. -/
opaque pierTime : List Nat → Nat → Nat → Nat

/-- Doubleword i of the pier library's micro-words, and START of its entry j under 512 + j (R135, R232). -/
opaque pierLibrary : Nat → Nat

/-- The hypervisor image in the boot flash (R232), which nothing that the manual gives reads or writes; by the counter of free
values. -/
opaque bootFlash : Nat → List Nat

/-- The signed bytes, the signature and the modulus of the key that an image holds, whose format the manual does not give (R230). -/
opaque imageBody : List Nat → List Nat
opaque imageSign : List Nat → Nat
opaque imageKey : List Nat → Nat

/-- Is an image well-formed (R459)? 1 yes. The manual does not give the format. -/
opaque imageFormed : List Nat → Nat

/-- The SHA-512 digest of the Qorholt root key in the fuses (R230). -/
opaque rootKeyDigest : List Nat

/-- The entry address of the hypervisor or recovery image, whose format the manual does not give (R232). -/
opaque imageEntry : List Nat → Nat

/-- The bytes of the system image that a partition has booted (R230, R231), by the counter of free values: no rule says where the
hypervisor takes it from. -/
opaque partitionImage : Nat → Nat → List Nat

/-- First location of the staging region of a function in DRAM (R227), in units of 4 GB. -/
opaque stagingBase : Nat → Nat

/-- Does a port of the Lommer link train (R232, R459)? 1 yes; by the counter of free values and the port. -/
opaque portTrains : Nat → Nat → Nat

/-- Byte i of a signature under the module identity key, which never leaves the module (R231). -/
opaque signature : List Nat → Nat → Nat

/-- The clusters of pylon p that are fused off, as 16 × cy + cx; the first 16 of the list count (R17, R18). -/
opaque fuseHoles : Nat → List Nat

/-- STKH bits of pylon p, as fused (R20). -/
opaque fuseStack : Nat → Nat

/-- A superstep's signature over the values that stores performed in it (R242), whose function the manual does not give: from the
signature so far, the next value. -/
opaque replaySign : Nat → Nat → Nat

/-- The outcome of the start's tests (R232): 0 passed, else the REASON of R459; by the counter of free values. -/
opaque selfTest : Nat → Nat

/-- The pylons that pass self-test (R233); by the counter of free values. -/
opaque pylonsOk : Nat → Nat

/-- The clusters a firmware save touches fail or not, a spare row is left or not: outcomes the manual leaves to hardware,
by the counter of free values. -/
opaque outcome : Nat → Nat

/-- Does the wake of a cluster fail (R457)? 1 yes; by the counter of free values and the cluster. -/
opaque wakeFails : Nat → Nat → Nat

/-- Does a snapshot load take a line that its cluster's snapshot cache holds (R153: it may)? 1 yes; by line and access. -/
opaque snapHit : Nat → Nat → Nat

/-- Does a load miss its home's cache (R147)? 1 yes; by line and access. -/
opaque homeMiss : Nat → Nat → Nat

/-- How many words bound for one core the mesh holds beside its receive queue before a path accepts no further one (R100,
R101). -/
opaque meshRoom : Nat

end Sys2Proof.Config
end

