-- ==== Sys2Proof/Syntax.lean ====
section
/-! DEFINITION. The steps of the Renlon 880: one constructor per row of the opcode table.
A word of the instruction set carries its fields as numbers (10_encoding R244). A step that the hardware or an outside party
takes (95_what_each_step_holds) has no fields in the table: the parts it concerns stand in State.arg. So do the payloads of
seven words that are one payload and nothing else (TRAP, SCALL, BRK and the four hint words): they are read from the
word in issue, State.ir (Lean's compiled code has room for 245 constructors with fields, which the other words take).
Which field values are legal is WellFormed's. -/

namespace Sys2Proof

/-- The three core kinds (R74, `coord`.KIND of R86). -/
inductive CoreKind where
  | span | deck | service
  deriving DecidableEq, Repr

/-- A core, named as `coord` names it (R86): a deck core by X = 2cx, Y = 2cy, a service core by X alone. -/
structure CoreId where
  kind : CoreKind
  pyl : Nat
  y : Nat
  x : Nat
  deriving DecidableEq, Repr

/-- A context: its core and its number (R74). -/
structure CtxId where
  core : CoreId
  k : Nat
  deriving DecidableEq, Repr

/-- The access kinds of SP codes 0 to 7 (R248): pool, snapshot or deferred, fresh or eager, anchored, view-checked, peer,
window, crown. -/
inductive AccKind where
  | l | g | f | a | v | s | w | c
  deriving DecidableEq, Repr

/-- What a request from a peer module asks of this one (R235). -/
inductive PeerOp where
  | load | store | atomic
  deriving DecidableEq, Repr

/-- One step of the machine. Register fields hold register numbers; offsets and immediates hold the field's unsigned bits,
which HINT.IMM widens (R253). -/
inductive Instr where
  /-- START (R282). -/
  | start (a b n : Nat) (keep : Bool)
  /-- JOINH (R283). -/
  | joinh (n : Nat)
  /-- WFI (R286). -/
  | wfi (d a : Nat)
  /-- PGATE (R288). -/
  | pgate (d a : Nat)
  /-- CSTOP (R289). -/
  | cstop (a b : Nat)
  /-- CRESUME (R289). -/
  | cresume (a b : Nat)
  /-- LAUNCH (R291). -/
  | launch (a : Nat)
  /-- QPOST (R291). -/
  | qpost (a : Nat)
  /-- TLBINV_ASID (R292). -/
  | tlbinvAsid (b : Nat)
  /-- TLBINV_PAGE (R292). -/
  | tlbinvPage (a b : Nat)
  /-- ADD (R269). -/
  | add (d a b : Nat)
  /-- SUB (R269). -/
  | sub (d a b : Nat)
  /-- AND (R269). -/
  | and (d a b : Nat)
  /-- OR (R269). -/
  | or (d a b : Nat)
  /-- XOR (R269). -/
  | xor (d a b : Nat)
  /-- SHL (R269). -/
  | shl (d a b : Nat)
  /-- SHR (R269). -/
  | shr (d a b : Nat)
  /-- SRA (R269). -/
  | sra (d a b : Nat)
  /-- MUL (R269). -/
  | mul (d a b : Nat)
  /-- MULH (R269). -/
  | mulh (d a b : Nat)
  /-- MULHU (R269). -/
  | mulhu (d a b : Nat)
  /-- DIV (R270). -/
  | div (d a b : Nat)
  /-- DIVU (R270). -/
  | divu (d a b : Nat)
  /-- REM (R270). -/
  | rem (d a b : Nat)
  /-- REMU (R270). -/
  | remu (d a b : Nat)
  /-- MIN (R269). -/
  | min (d a b : Nat)
  /-- MAX (R269). -/
  | max (d a b : Nat)
  /-- MINU (R269). -/
  | minu (d a b : Nat)
  /-- MAXU (R269). -/
  | maxu (d a b : Nat)
  /-- SLT (R269). -/
  | slt (d a b : Nat)
  /-- SLTU (R269). -/
  | sltu (d a b : Nat)
  /-- SEQ (R269). -/
  | seq (d a b : Nat)
  /-- SEL (R269). -/
  | sel (d a b c : Nat)
  /-- CLZ (R269). -/
  | clz (d a : Nat)
  /-- CTZ (R269). -/
  | ctz (d a : Nat)
  /-- POPC (R269). -/
  | popc (d a : Nat)
  /-- ADDW (R269). -/
  | addw (d a b : Nat)
  /-- SUBW (R269). -/
  | subw (d a b : Nat)
  /-- MKPA (R271). -/
  | mkpa (d a b : Nat)
  /-- MKPA_REL (R271). -/
  | mkpaRel (d a b : Nat)
  /-- ADDI (R272). -/
  | addi (d a imm : Nat)
  /-- ANDI (R272). -/
  | andi (d a imm : Nat)
  /-- ORI (R272). -/
  | ori (d a imm : Nat)
  /-- XORI (R272). -/
  | xori (d a imm : Nat)
  /-- SHLI (R274). -/
  | shli (d a n n5 : Nat)
  /-- SHRI (R274). -/
  | shri (d a n n5 : Nat)
  /-- SRAI (R274). -/
  | srai (d a n n5 : Nat)
  /-- MOVI (R272). -/
  | movi (d imm : Nat)
  /-- MOVK (R273). -/
  | movk (d pos imm : Nat)
  /-- SLTI (R272). -/
  | slti (d a imm : Nat)
  /-- LD (R349). -/
  | ld (d a : Nat) (k : AccKind) (sz : Nat) (sg : Bool) (off : Nat)
  /-- ST (R349). -/
  | st (d a : Nat) (k : AccKind) (sz off : Nat)
  /-- AADD (R351). -/
  | aadd (d a b ord scope : Nat) (anch : Bool)
  /-- AAND (R351). -/
  | aand (d a b ord scope : Nat) (anch : Bool)
  /-- AOR (R351). -/
  | aor (d a b ord scope : Nat) (anch : Bool)
  /-- AXOR (R351). -/
  | axor (d a b ord scope : Nat) (anch : Bool)
  /-- AMIN (R351). -/
  | amin (d a b ord scope : Nat) (anch : Bool)
  /-- AMAX (R351). -/
  | amax (d a b ord scope : Nat) (anch : Bool)
  /-- AMINU (R351). -/
  | aminu (d a b ord scope : Nat) (anch : Bool)
  /-- AMAXU (R351). -/
  | amaxu (d a b ord scope : Nat) (anch : Bool)
  /-- ASWP (R351). -/
  | aswp (d a b ord scope : Nat) (anch : Bool)
  /-- ACAS (R351). -/
  | acas (d a b ord scope : Nat) (anch : Bool)
  /-- AINC (R351). -/
  | ainc (d a ord scope : Nat) (anch : Bool)
  /-- AFADD (R351). -/
  | afadd (d a b ord scope : Nat) (anch : Bool)
  /-- BEQ (R275). -/
  | beq (a b off : Nat)
  /-- BNE (R275). -/
  | bne (a b off : Nat)
  /-- BLT (R275). -/
  | blt (a b off : Nat)
  /-- BGE (R275). -/
  | bge (a b off : Nat)
  /-- BLTU (R275). -/
  | bltu (a b off : Nat)
  /-- BGEU (R275). -/
  | bgeu (a b off : Nat)
  /-- BZ (R275). -/
  | bz (a off : Nat)
  /-- BNZ (R275). -/
  | bnz (a off : Nat)
  /-- J (R276). -/
  | j (off : Nat)
  /-- JAL (R276). -/
  | jal (off : Nat)
  /-- JR (R277). -/
  | jr (a : Nat)
  /-- JALR (R277). -/
  | jalr (d a : Nat)
  /-- LOOP (R278). -/
  | loop (d imm : Nat)
  /-- CSRR (R280). -/
  | csrr (d csr : Nat)
  /-- CSRW (R280). -/
  | csrw (d a csr : Nat)
  /-- CSRS (R280). -/
  | csrs (d a csr : Nat)
  /-- CSRC (R280). -/
  | csrc (d a csr : Nat)
  /-- FENCE_X (R355). -/
  | fenceX (a b : Nat)
  /-- PHASE (R356). -/
  | phase (b : Nat) (ex : Bool)
  /-- PARRIVE (R356). -/
  | parrive (b : Nat) (ex : Bool)
  /-- BDOM (R357). -/
  | bdom (a : Nat)
  /-- BEXP (R358). -/
  | bexp (a b : Nat)
  /-- MON (R361). -/
  | mon (d a b n : Nat)
  /-- MWAIT (R361). -/
  | mwait (d : Nat)
  /-- WAITT (R362). -/
  | waitt (a : Nat)
  /-- EWAIT (R363). -/
  | ewait (a : Nat)
  /-- XBEGIN (R359). -/
  | xbegin (b : Nat) (ex : Bool)
  /-- PREDUCE (R360). -/
  | preduce (a b : Nat) (ex : Bool) (ty op : Nat)
  /-- TPOST (R365). -/
  | tpost (a b : Nat)
  /-- TPOST_C (R127). -/
  | tpostC (a b : Nat)
  /-- TSTEAL (R366). -/
  | tsteal (d a b : Nat)
  /-- TJOIN (R368). -/
  | tjoin (a b : Nat)
  /-- TWAIT (R368). -/
  | twait (d a : Nat)
  /-- PCALL (R369). -/
  | pcall (a : Nat)
  /-- QINFO (R370). -/
  | qinfo (d a b : Nat)
  /-- SEND (R372). -/
  | send (d a : Nat)
  /-- SENDE (R372). -/
  | sende (d a : Nat)
  /-- RECV (R373). -/
  | recv (d : Nat)
  /-- RPEEK (R373). -/
  | rpeek (d : Nat)
  /-- GPOST (R374). -/
  | gpost (a : Nat)
  /-- MSEND (R385). -/
  | msend (a b : Nat)
  /-- MCAP (R387). -/
  | mcap (d a : Nat)
  /-- VLD (R299). -/
  | vld (d a fs : Nat) (k : AccKind) (off : Nat)
  /-- VST (R299). -/
  | vst (d a fs : Nat) (k : AccKind) (off : Nat)
  /-- VADD (R306). -/
  | vadd (d a b : Nat)
  /-- VSUB (R306). -/
  | vsub (d a b : Nat)
  /-- VMUL (R306). -/
  | vmul (d a b : Nat)
  /-- VFMA (R306). -/
  | vfma (d a b c : Nat)
  /-- VFMS (R307). -/
  | vfms (d a b c : Nat)
  /-- VMIN (R49). -/
  | vmin (d a b : Nat)
  /-- VMAX (R49). -/
  | vmax (d a b : Nat)
  /-- VMINP (R49). -/
  | vminp (d a b : Nat)
  /-- VMAXP (R49). -/
  | vmaxp (d a b : Nat)
  /-- VABS (R306). -/
  | vabs (d a : Nat)
  /-- VNEG (R306). -/
  | vneg (d a : Nat)
  /-- VAND (R306). -/
  | vand (d a b : Nat)
  /-- VOR (R306). -/
  | vor (d a b : Nat)
  /-- VXOR (R306). -/
  | vxor (d a b : Nat)
  /-- VNOT (R306). -/
  | vnot (d a : Nat)
  /-- VSHL (R308). -/
  | vshl (d a b : Nat)
  /-- VSHR (R308). -/
  | vshr (d a b : Nat)
  /-- VSRA (R308). -/
  | vsra (d a b : Nat)
  /-- VADDS (R308). -/
  | vadds (d a b : Nat)
  /-- VSUBS (R308). -/
  | vsubs (d a b : Nat)
  /-- VMOV (R310). -/
  | vmov (d a : Nat)
  /-- VCMPEQ (R311). -/
  | vcmpeq (d a b : Nat)
  /-- VCMPLT (R311). -/
  | vcmplt (d a b : Nat)
  /-- VCMPLE (R311). -/
  | vcmple (d a b : Nat)
  /-- VCMPNE (R311). -/
  | vcmpne (d a b : Nat)
  /-- VSEL (R312). -/
  | vsel (d a b c : Nat)
  /-- VPERM (R313). -/
  | vperm (d a b : Nat)
  /-- VSLIDE (R313). -/
  | vslide (d a b c : Nat)
  /-- VZIP (R313). -/
  | vzip (d a b : Nat) (h : Bool)
  /-- VUNZIP (R313). -/
  | vunzip (d a b : Nat) (h : Bool)
  /-- PAND (R314). -/
  | pand (d a b : Nat)
  /-- POR (R314). -/
  | por (d a b : Nat)
  /-- PNOT (R314). -/
  | pnot (d a : Nat)
  /-- PCNT (R314). -/
  | pcnt (d a : Nat)
  /-- VCVT (R315). -/
  | vcvt (d a p c : Nat)
  /-- VQUANT (R316). -/
  | vquant (d a c : Nat)
  /-- VDEQ (R317). -/
  | vdeq (d a p c : Nat)
  /-- VRETAG (R318). -/
  | vretag (d a b : Nat) (ireg : Bool)
  /-- VTAGR (R318). -/
  | vtagr (d a : Nat) (ireg : Bool)
  /-- VSCALE (R319). -/
  | vscale (d a b : Nat)
  /-- VPACK (R320). -/
  | vpack (d a b : Nat)
  /-- VUNPK (R320). -/
  | vunpk (d a : Nat) (h : Bool) (c : Nat)
  /-- VEXP2 (R322). -/
  | vexp2 (d a b c : Nat)
  /-- VLOG2 (R321). -/
  | vlog2 (d a : Nat)
  /-- VRCP (R321). -/
  | vrcp (d a : Nat)
  /-- VRSQRT (R321). -/
  | vrsqrt (d a : Nat)
  /-- VSQRT (R321). -/
  | vsqrt (d a : Nat)
  /-- VDIV (R321). -/
  | vdiv (d a b : Nat)
  /-- VTANH (R321). -/
  | vtanh (d a : Nat)
  /-- VSIGM (R321). -/
  | vsigm (d a : Nat)
  /-- VRSUM (R324). -/
  | vrsum (d a : Nat)
  /-- VRMAX (R325). -/
  | vrmax (d a : Nat)
  /-- VRMIN (R325). -/
  | vrmin (d a : Nat)
  /-- VBCAST (R326). -/
  | vbcast (d a c : Nat)
  /-- VMOVX (R326). -/
  | vmovx (d a b : Nat)
  /-- VINS (R326). -/
  | vins (d a b : Nat)
  /-- VRSUMP (R324). -/
  | vrsump (d a : Nat)
  /-- SBIND (R328). -/
  | sbind (d a : Nat)
  /-- SFREE (R328). -/
  | sfree (d : Nat)
  /-- SSTAT (R328). -/
  | sstat (d a : Nat)
  /-- ILD (R335). -/
  | ild (d a fs : Nat) (k : AccKind) (off : Nat)
  /-- IST (R335). -/
  | ist (d a fs : Nat) (k : AccKind) (off : Nat)
  /-- IADD (R336). -/
  | iadd (d a b : Nat)
  /-- ISUB (R336). -/
  | isub (d a b : Nat)
  /-- IMUL (R336). -/
  | imul (d a b : Nat)
  /-- IDIV (R336). -/
  | idiv (d a b : Nat)
  /-- ISQR (R336). -/
  | isqr (d a : Nat)
  /-- ISQRT (R336). -/
  | isqrt (d a : Nat)
  /-- IEXP2 (R336). -/
  | iexp2 (d a : Nat)
  /-- ILOG2 (R336). -/
  | ilog2 (d a : Nat)
  /-- IMIN (R336). -/
  | imin (d a b : Nat)
  /-- IMAX (R336). -/
  | imax (d a b : Nat)
  /-- IRELU (R336). -/
  | irelu (d a : Nat)
  /-- INEG (R336). -/
  | ineg (d a : Nat)
  /-- IABS (R336). -/
  | iabs (d a : Nat)
  /-- IFMA (R338). -/
  | ifma (d a b c : Nat)
  /-- ISCALE (R337). -/
  | iscale (d a b : Nat)
  /-- CADD (R339). -/
  | cadd (d a b : Nat)
  /-- CSUB (R339). -/
  | csub (d a b : Nat)
  /-- CMUL (R339). -/
  | cmul (d a b : Nat)
  /-- CDIV (R339). -/
  | cdiv (d a b : Nat)
  /-- CSQR (R339). -/
  | csqr (d a : Nat)
  /-- CSQRT (R339). -/
  | csqrt (d a : Nat)
  /-- CEXP2 (R339). -/
  | cexp2 (d a : Nat)
  /-- CMAX (R339). -/
  | cmax (d a b : Nat)
  /-- CMIN (R339). -/
  | cmin (d a b : Nat)
  /-- CRELU (R339). -/
  | crelu (d a : Nat)
  /-- CABS (R339). -/
  | cabs (d a : Nat)
  /-- IHULL (R342). -/
  | ihull (d a b : Nat)
  /-- IMEET (R342). -/
  | imeet (d a b : Nat)
  /-- ISPLIT (R342). -/
  | isplit (d a b : Nat)
  /-- IMID (R343). -/
  | imid (d a : Nat) (h : Bool)
  /-- IRAD (R343). -/
  | irad (d a : Nat) (h : Bool)
  /-- IWID (R343). -/
  | iwid (d a : Nat) (h : Bool)
  /-- IMK (R344). -/
  | imk (d a b : Nat) (h : Bool)
  /-- ILO (R343). -/
  | ilo (d a : Nat) (h : Bool)
  /-- IHI (R343). -/
  | ihi (d a : Nat) (h : Bool)
  /-- IEMPTY (R342). -/
  | iempty (d : Nat) (w : Bool)
  /-- ICLT (R345). -/
  | iclt (d a b : Nat)
  /-- ICLE (R345). -/
  | icle (d a b : Nat)
  /-- ICEQ (R345). -/
  | iceq (d a b : Nat)
  /-- ISUBSET (R345). -/
  | isubset (d a b : Nat)
  /-- IDISJ (R345). -/
  | idisj (d a b : Nat)
  /-- IISEMP (R345). -/
  | iisemp (d a : Nat)
  /-- QAND (R346). -/
  | qand (d a b : Nat)
  /-- QOR (R346). -/
  | qor (d a b : Nat)
  /-- QNOT (R346). -/
  | qnot (d a : Nat)
  /-- QALL (R346). -/
  | qall (d a : Nat) (h : Bool)
  /-- QANY (R346). -/
  | qany (d a : Nat) (h : Bool)
  /-- QSEL (R346). -/
  | qsel (d a b c : Nat)
  /-- IPROG (R347). -/
  | iprog (d : Nat)
  /-- MMA (R380). -/
  | mma (d a b sq : Nat)
  /-- MMAIV (R380). -/
  | mmaiv (d a b sq : Nat)
  /-- MMA64 (R380). -/
  | mma64 (d a b c : Nat)
  /-- MLDW (R379). -/
  | mldw (d a b n : Nat)
  /-- MZERO (R381). -/
  | mzero (d : Nat) (w : Bool)
  /-- MDRAIN (R382). -/
  | mdrain (d a b r : Nat)
  /-- MSYNC (R383). -/
  | msync (l : Bool)
  /-- MSTAT (R383). -/
  | mstat (d a : Nat) (l : Bool)
  /-- VWREG (R389). -/
  | vwreg (d a : Nat)
  /-- VWDEL (R202). -/
  | vwdel (a : Nat)
  /-- VWSYNC (R201). -/
  | vwsync (a : Nat)
  /-- VWPOL (R389). -/
  | vwpol (a b : Nat)
  /-- VWSTAT (R389). -/
  | vwstat (d a : Nat)
  /-- VWKICK (R202). -/
  | vwkick (a : Nat)
  /-- HLD (R390). -/
  | hld (d a : Nat)
  /-- HQRY (R391). -/
  | hqry (d a b : Nat)
  /-- HCLR (R390). -/
  | hclr (d : Nat)
  /-- FMTSET (R392). -/
  | fmtset (d a : Nat)
  /-- FMTGET (R392). -/
  | fmtget (d a : Nat)
  /-- VLDS (R303). -/
  | vlds (d a b c : Nat)
  /-- VSTS (R303). -/
  | vsts (d a b : Nat) (m : Bool)
  /-- VLDM (R304). -/
  | vldm (d a b n : Nat)
  /-- VSTM (R304). -/
  | vstm (d a b n : Nat)
  /-- VLDI (R305). -/
  | vldi (d a b c : Nat)
  /-- VSTI (R305). -/
  | vsti (d a b c : Nat)
  /-- NOP (R250). -/
  | nop
  /-- HALT (R284). -/
  | halt
  /-- YIELD (R285). -/
  | yield
  /-- TRAP (R287). -/
  | trap
  /-- SCALL (R410). -/
  | scall
  /-- ERET (R414). -/
  | eret
  /-- TLBINV_ALL (R292). -/
  | tlbinvAll
  /-- BRK (R287). -/
  | brk
  /-- RET (R277). -/
  | ret
  /-- FENCE_O (R354). -/
  | fenceO
  /-- PWAIT (R356). -/
  | pwait
  /-- SNAPINV (R364). -/
  | snapinv
  /-- XEND (R359). -/
  | xend
  /-- TRET (R367). -/
  | tret
  /-- TLEAVE (R368). -/
  | tleave
  /-- HINT_IMM (R253). -/
  | hintImm
  /-- HINT_MOD (R254). -/
  | hintMod
  /-- HINT_DLY (R256). -/
  | hintDly
  /-- HINT_PRF (R257). -/
  | hintPrf
  /-- ASYNC_TRAP_TAKE (R411). -/
  | asyncTrapTake
  /-- DELAY_EXPIRY (R256). -/
  | delayExpiry
  /-- YIELD_END (R285). -/
  | yieldEnd
  /-- CP_GO (R175). -/
  | cpGo
  /-- COPY_COMPLETE (R175). -/
  | copyComplete
  /-- PROMISE_MISSED (R434). -/
  | promiseMissed
  /-- GATHER_DESCRIPTOR_RUN (R179). -/
  | gatherDescriptorRun
  /-- MATRIX_COMMAND_RUN (R380). -/
  | matrixCommandRun
  /-- DOWN_FIFO_RECORD_TAKE (R384). -/
  | downFifoRecordTake
  /-- MSEND_RECORD_ARRIVAL (R387). -/
  | msendRecordArrival
  /-- SFU_RESULT (R323). -/
  | sfuResult
  /-- TLB_WALK_END (R422). -/
  | tlbWalkEnd
  /-- ACCESS_AT_ORDERING_POINT (R160). -/
  | accessAtOrderingPoint
  /-- LOAD_VALUE_RETURN (R147). -/
  | loadValueReturn
  /-- STORE_ACK (R463). -/
  | storeAck
  /-- FE_TIMEOUT (R431). -/
  | feTimeout
  /-- STREAM_READ_AHEAD (R151). -/
  | streamReadAhead
  /-- MWAIT_TIMEOUT (R182). -/
  | mwaitTimeout
  /-- WAITT_EXPIRY (R362). -/
  | waittExpiry
  /-- TWAIT_TIMEOUT (R368). -/
  | twaitTimeout
  /-- WFI_TIMEOUT (R286). -/
  | wfiTimeout
  /-- LINK_VALUE_ARRIVAL (R96). -/
  | linkValueArrival
  /-- FIFO_ENTRY_VISIBLE (R102). -/
  | fifoEntryVisible
  /-- ROUTED_WORD_ARRIVAL (R101). -/
  | routedWordArrival
  /-- SCHEDULE_LIMIT (R449). -/
  | scheduleLimit
  /-- CORE_ARRIVAL (R91). -/
  | coreArrival
  /-- BARRIER_RELEASE (R92). -/
  | barrierRelease
  /-- SYSTEM_BARRIER_RELEASE (R236). -/
  | systemBarrierRelease
  /-- BARRIER_TIMEOUT (R455). -/
  | barrierTimeout
  /-- TPOST_ARRIVAL (R110). -/
  | tpostArrival
  /-- COUNTER_REPORT (R111). -/
  | counterReport
  /-- WATCH_REREAD (R111). -/
  | watchReread
  /-- TASK_URGENT_DUE (R118). -/
  | taskUrgentDue
  /-- TSTEAL_ARRIVAL (R119). -/
  | tstealArrival
  /-- TSTEAL_ANSWER_ARRIVAL (R366). -/
  | tstealAnswerArrival
  /-- OFFER_ARRIVAL (R401). -/
  | offerArrival
  /-- TJOIN_ARRIVAL (R116). -/
  | tjoinArrival
  /-- TLEAVE_ARRIVAL (R116). -/
  | tleaveArrival
  /-- QINFO_ARRIVAL (R370). -/
  | qinfoArrival
  /-- TRET_ARRIVAL (R124). -/
  | tretArrival
  /-- TRET_ANSWER_ARRIVAL (R367). -/
  | tretAnswerArrival
  /-- PIER_JOB_END (R138). -/
  | pierJobEnd
  /-- PCALL_ACCEPT (R139). -/
  | pcallAccept
  /-- PCALL_ACCEPT_NEWS (R369). -/
  | pcallAcceptNews
  /-- REFRESH_DUE (R142). -/
  | refreshDue
  /-- GOVERNOR_SAMPLE (R133). -/
  | governorSample
  /-- DIRTY_NOTICE (R191). -/
  | dirtyNotice
  /-- VIEW_BLOCK_REFRESH (R193). -/
  | viewBlockRefresh
  /-- COMPUTE_COMMAND_TAKE (R214). -/
  | computeCommandTake
  /-- PLACEMENT_WAIT_EXPIRY (R215). -/
  | placementWaitExpiry
  /-- COPY_JOB_TAKE (R210). -/
  | copyJobTake
  /-- IN_MEMORY_JOB_TAKE (R210). -/
  | inMemoryJobTake
  /-- COMMAND_AGING (R208). -/
  | commandAging
  /-- START_CAPTURE (R241). -/
  | startCapture
  /-- STOP_CAPTURE (R241). -/
  | stopCapture
  /-- LAUNCH_COMPLETION (R130). -/
  | launchCompletion
  /-- CLUSTER_GATE (R217). -/
  | clusterGate
  /-- PACK_IDLE_GATE (R218). -/
  | packIdleGate
  /-- CLUSTER_WAKE_DONE (R216). -/
  | clusterWakeDone
  /-- WAKE_FAILURE (R457). -/
  | wakeFailure
  /-- CSTOP_REQUEST_ARRIVAL (R465). -/
  | cstopRequestArrival
  /-- CONTEXT_STOP (R221). -/
  | contextStop
  /-- STOP_ACK_ARRIVAL (R465). -/
  | stopAckArrival
  /-- PACKET_STOP_LIMIT (R453). -/
  | packetStopLimit
  /-- CORE_SAVE (R226). -/
  | coreSave
  /-- CORE_RESTORE (R226). -/
  | coreRestore
  /-- PRECISE_STOP_ARM (R239). -/
  | preciseStopArm
  /-- PRECISE_STOP_LIFT (R239). -/
  | preciseStopLift
  /-- REPLAY_CONTROL_WRITE (R460). -/
  | replayControlWrite
  /-- CAPABILITY_EPOCH_ADVANCE (R387). -/
  | capabilityEpochAdvance
  /-- PIER_QUIESCE_WRITE (R135). -/
  | pierQuiesceWrite
  /-- ROW_REPAIR (R448). -/
  | rowRepair
  /-- START_GOOD_WRITE (R232). -/
  | startGoodWrite
  /-- CONTROL_WORD_WRITE (R6). -/
  | controlWordWrite
  /-- ATTESTATION_SIGN (R231). -/
  | attestationSign
  /-- POWER_ON_RESET (R232). -/
  | powerOnReset
  /-- WARM_RESET (R232). -/
  | warmReset
  /-- BOOT_START (R232). -/
  | bootStart
  /-- START_WATCHDOG (R232). -/
  | startWatchdog
  /-- RECOVERY_IMAGE_MESSAGE (R233). -/
  | recoveryImageMessage
  /-- HOST_RING_HEAD_WRITE (R228). -/
  | hostRingHeadWrite
  /-- HOST_RING_TAIL_WRITE (R228). -/
  | hostRingTailWrite
  /-- PEER_REQUEST_ARRIVAL (R235). -/
  | peerRequestArrival
  /-- PEER_TIMEOUT (R458). -/
  | peerTimeout
  /-- FLIT_CRC_FAIL (R458). -/
  | flitCrcFail
  /-- UNCORRECTABLE_ERROR (R429). -/
  | uncorrectableError
  /-- COMMAND_BLOCK_ARRIVAL (R467). -/
  | commandBlockArrival
  /-- COMMAND_QUEUED_NEWS (R467). -/
  | commandQueuedNews
  /-- VIEW_REQUEST_ARRIVAL (R466). -/
  | viewRequestArrival
  /-- VIEW_ANSWER_ARRIVAL (R466). -/
  | viewAnswerArrival
  /-- MSEND_ANSWER_ARRIVAL (R436). -/
  | msendAnswerArrival
  /-- COUNTER_READ_ANSWER (R402). -/
  | counterReadAnswer
  /-- CORE_SAVE_DONE (R226). -/
  | coreSaveDone
  /-- ROW_REPAIR_DONE (R448). -/
  | rowRepairDone
  /-- STAGING_REGION_WRITE (R227). -/
  | stagingRegionWrite
  /-- DEBUG_HALT_BEGIN (R421). -/
  | debugHaltBegin
  /-- DEBUG_HALT_END (R182). -/
  | debugHaltEnd
  deriving DecidableEq, Repr

end Sys2Proof
end

