-- ==== Sys2Proof/WellFormed.lean ====
section
/-! DEFINITION. Which field values an instruction word may carry (10_encoding R245, R247, R248; 21_traps R409, R416, R418).
Each check is paired with the FIELD code that `tinfo` reports when it fails (R409). -/

namespace Sys2Proof

/-- The checks of one step, in FIELD order: register fields name an existing register of their class (R247), other fields
stay in their width and outside their reserved values. A step with no encoding has none. -/
def Instr.checks : Instr → List (Nat × Bool)
  | .start a b n _ => [(3, decide (a < 32)), (4, decide (b < 32)), (5, decide (n < 16))]
  | .joinh n => [(5, decide (n < 16))]
  | .wfi d a => [(2, decide (d < 32)), (3, decide (a < 32))]
  | .pgate d a => [(2, decide (d < 32)), (3, decide (a < 32))]
  | .cstop a b => [(3, decide (a < 32)), (4, decide (b < 32))]
  | .cresume a b => [(3, decide (a < 32)), (4, decide (b < 32))]
  | .launch a => [(3, decide (a < 32))]
  | .qpost a => [(3, decide (a < 32))]
  | .tlbinvAsid b => [(4, decide (b < 32))]
  | .tlbinvPage a b => [(3, decide (a < 32)), (4, decide (b < 32))]
  | .add d a b => [(2, decide (d < 32)), (3, decide (a < 32)), (4, decide (b < 32))]
  | .sub d a b => [(2, decide (d < 32)), (3, decide (a < 32)), (4, decide (b < 32))]
  | .and d a b => [(2, decide (d < 32)), (3, decide (a < 32)), (4, decide (b < 32))]
  | .or d a b => [(2, decide (d < 32)), (3, decide (a < 32)), (4, decide (b < 32))]
  | .xor d a b => [(2, decide (d < 32)), (3, decide (a < 32)), (4, decide (b < 32))]
  | .shl d a b => [(2, decide (d < 32)), (3, decide (a < 32)), (4, decide (b < 32))]
  | .shr d a b => [(2, decide (d < 32)), (3, decide (a < 32)), (4, decide (b < 32))]
  | .sra d a b => [(2, decide (d < 32)), (3, decide (a < 32)), (4, decide (b < 32))]
  | .mul d a b => [(2, decide (d < 32)), (3, decide (a < 32)), (4, decide (b < 32))]
  | .mulh d a b => [(2, decide (d < 32)), (3, decide (a < 32)), (4, decide (b < 32))]
  | .mulhu d a b => [(2, decide (d < 32)), (3, decide (a < 32)), (4, decide (b < 32))]
  | .div d a b => [(2, decide (d < 32)), (3, decide (a < 32)), (4, decide (b < 32))]
  | .divu d a b => [(2, decide (d < 32)), (3, decide (a < 32)), (4, decide (b < 32))]
  | .rem d a b => [(2, decide (d < 32)), (3, decide (a < 32)), (4, decide (b < 32))]
  | .remu d a b => [(2, decide (d < 32)), (3, decide (a < 32)), (4, decide (b < 32))]
  | .min d a b => [(2, decide (d < 32)), (3, decide (a < 32)), (4, decide (b < 32))]
  | .max d a b => [(2, decide (d < 32)), (3, decide (a < 32)), (4, decide (b < 32))]
  | .minu d a b => [(2, decide (d < 32)), (3, decide (a < 32)), (4, decide (b < 32))]
  | .maxu d a b => [(2, decide (d < 32)), (3, decide (a < 32)), (4, decide (b < 32))]
  | .slt d a b => [(2, decide (d < 32)), (3, decide (a < 32)), (4, decide (b < 32))]
  | .sltu d a b => [(2, decide (d < 32)), (3, decide (a < 32)), (4, decide (b < 32))]
  | .seq d a b => [(2, decide (d < 32)), (3, decide (a < 32)), (4, decide (b < 32))]
  | .sel d a b c => [(2, decide (d < 32)), (3, decide (a < 32)), (4, decide (b < 32)), (5, decide (c < 32))]
  | .clz d a => [(2, decide (d < 32)), (3, decide (a < 32))]
  | .ctz d a => [(2, decide (d < 32)), (3, decide (a < 32))]
  | .popc d a => [(2, decide (d < 32)), (3, decide (a < 32))]
  | .addw d a b => [(2, decide (d < 32)), (3, decide (a < 32)), (4, decide (b < 32))]
  | .subw d a b => [(2, decide (d < 32)), (3, decide (a < 32)), (4, decide (b < 32))]
  | .mkpa d a b => [(2, decide (d < 32)), (3, decide (a < 32)), (4, decide (b < 32))]
  | .mkpaRel d a b => [(2, decide (d < 32)), (3, decide (a < 32)), (4, decide (b < 32))]
  | .addi d a imm => [(2, decide (d < 32)), (3, decide (a < 32)), (0, decide (imm < 65536))]
  | .andi d a imm => [(2, decide (d < 32)), (3, decide (a < 32)), (0, decide (imm < 65536))]
  | .ori d a imm => [(2, decide (d < 32)), (3, decide (a < 32)), (0, decide (imm < 65536))]
  | .xori d a imm => [(2, decide (d < 32)), (3, decide (a < 32)), (0, decide (imm < 65536))]
  | .shli d a n n5 => [(2, decide (d < 32)), (3, decide (a < 32)), (5, decide (n < 32)), (0, decide (n5 < 2))]
  | .shri d a n n5 => [(2, decide (d < 32)), (3, decide (a < 32)), (5, decide (n < 32)), (0, decide (n5 < 2))]
  | .srai d a n n5 => [(2, decide (d < 32)), (3, decide (a < 32)), (5, decide (n < 32)), (0, decide (n5 < 2))]
  | .movi d imm => [(2, decide (d < 32)), (0, decide (imm < 65536))]
  | .movk d pos imm => [(2, decide (d < 32)), (3, decide (pos < 4)), (0, decide (imm < 65536))]
  | .slti d a imm => [(2, decide (d < 32)), (3, decide (a < 32)), (0, decide (imm < 65536))]
  | .ld d a _ sz sg off => [(2, decide (d < 32)), (3, decide (a < 32)), (4, decide (sz < 4)), (5, !(sg && sz == 3)), (0, decide (off < 1024))]
  | .st d a k sz off => [(2, decide (d < 32)), (3, decide (a < 32)), (4, decide (sz < 4)), (4, k != .v), (0, decide (off < 1024))]
  | .aadd d a b ord scope _ => [(2, decide (d < 32)), (3, decide (a < 32)), (4, decide (b < 32)), (5, decide (ord < 4)), (5, decide (scope < 5))]
  | .aand d a b ord scope _ => [(2, decide (d < 32)), (3, decide (a < 32)), (4, decide (b < 32)), (5, decide (ord < 4)), (5, decide (scope < 5))]
  | .aor d a b ord scope _ => [(2, decide (d < 32)), (3, decide (a < 32)), (4, decide (b < 32)), (5, decide (ord < 4)), (5, decide (scope < 5))]
  | .axor d a b ord scope _ => [(2, decide (d < 32)), (3, decide (a < 32)), (4, decide (b < 32)), (5, decide (ord < 4)), (5, decide (scope < 5))]
  | .amin d a b ord scope _ => [(2, decide (d < 32)), (3, decide (a < 32)), (4, decide (b < 32)), (5, decide (ord < 4)), (5, decide (scope < 5))]
  | .amax d a b ord scope _ => [(2, decide (d < 32)), (3, decide (a < 32)), (4, decide (b < 32)), (5, decide (ord < 4)), (5, decide (scope < 5))]
  | .aminu d a b ord scope _ => [(2, decide (d < 32)), (3, decide (a < 32)), (4, decide (b < 32)), (5, decide (ord < 4)), (5, decide (scope < 5))]
  | .amaxu d a b ord scope _ => [(2, decide (d < 32)), (3, decide (a < 32)), (4, decide (b < 32)), (5, decide (ord < 4)), (5, decide (scope < 5))]
  | .aswp d a b ord scope _ => [(2, decide (d < 32)), (3, decide (a < 32)), (4, decide (b < 32)), (5, decide (ord < 4)), (5, decide (scope < 5))]
  | .acas d a b ord scope _ => [(2, decide (d < 32)), (3, decide (a < 32)), (4, decide (b < 32)), (5, decide (ord < 4)), (5, decide (scope < 5))]
  | .ainc d a ord scope _ => [(2, decide (d < 32)), (3, decide (a < 32)), (5, decide (ord < 4)), (5, decide (scope < 5))]
  | .afadd d a b ord scope _ => [(2, decide (d < 32)), (3, decide (a < 32)), (4, decide (b < 32)), (5, decide (ord < 4)), (5, decide (scope < 5))]
  | .beq a b off => [(3, decide (a < 32)), (4, decide (b < 32)), (0, decide (off < 4096))]
  | .bne a b off => [(3, decide (a < 32)), (4, decide (b < 32)), (0, decide (off < 4096))]
  | .blt a b off => [(3, decide (a < 32)), (4, decide (b < 32)), (0, decide (off < 4096))]
  | .bge a b off => [(3, decide (a < 32)), (4, decide (b < 32)), (0, decide (off < 4096))]
  | .bltu a b off => [(3, decide (a < 32)), (4, decide (b < 32)), (0, decide (off < 4096))]
  | .bgeu a b off => [(3, decide (a < 32)), (4, decide (b < 32)), (0, decide (off < 4096))]
  | .bz a off => [(3, decide (a < 32)), (0, decide (off < 4096))]
  | .bnz a off => [(3, decide (a < 32)), (0, decide (off < 4096))]
  | .j off => [(0, decide (off < 67108864))]
  | .jal off => [(0, decide (off < 67108864))]
  | .jr a => [(3, decide (a < 32))]
  | .jalr d a => [(2, decide (d < 32)), (3, decide (a < 32))]
  | .loop d imm => [(2, decide (d < 32)), (0, decide (imm < 65536))]
  | .csrr d csr => [(2, decide (d < 32)), (0, decide (csr < 65536))]
  | .csrw d a csr => [(2, decide (d < 32)), (3, decide (a < 32)), (0, decide (csr < 65536))]
  | .csrs d a csr => [(2, decide (d < 32)), (3, decide (a < 32)), (0, decide (csr < 65536))]
  | .csrc d a csr => [(2, decide (d < 32)), (3, decide (a < 32)), (0, decide (csr < 65536))]
  | .fenceX a b => [(3, decide (a < 32)), (4, decide (b < 32))]
  | .phase b ex => [(4, decide (b < 32)), (4, (ex || b == 0))]
  | .parrive b ex => [(4, decide (b < 32)), (4, (ex || b == 0))]
  | .bdom a => [(3, decide (a < 32))]
  | .bexp a b => [(3, decide (a < 32)), (4, decide (b < 32))]
  | .mon d a b n => [(2, decide (d < 32)), (3, decide (a < 32)), (4, decide (b < 32)), (5, decide (n < 4))]
  | .mwait d => [(2, decide (d < 32))]
  | .waitt a => [(3, decide (a < 32))]
  | .ewait a => [(3, decide (a < 16))]
  | .xbegin b ex => [(4, decide (b < 32)), (4, (ex || b == 0))]
  | .preduce a b ex ty op => [(3, decide (a < 32)), (4, decide (b < 32)), (4, (ex || b == 0)), (5, decide (op < 3)), (5, decide (ty < 3))]
  | .tpost a b => [(3, decide (a < 32)), (4, decide (b < 32))]
  | .tpostC a b => [(3, decide (a < 32)), (4, decide (b < 32))]
  | .tsteal d a b => [(2, decide (d < 32)), (3, decide (a < 32)), (4, decide (b < 32))]
  | .tjoin a b => [(3, decide (a < 32)), (4, decide (b < 32))]
  | .twait d a => [(2, decide (d < 32)), (3, decide (a < 32))]
  | .pcall a => [(3, decide (a < 32))]
  | .qinfo d a b => [(2, decide (d < 32)), (3, decide (a < 32)), (4, decide (b < 32))]
  | .send d a => [(2, decide (d < 32)), (3, decide (a < 32))]
  | .sende d a => [(2, decide (d < 32)), (3, decide (a < 32))]
  | .recv d => [(2, decide (d < 32))]
  | .rpeek d => [(2, decide (d < 32))]
  | .gpost a => [(3, decide (a < 32))]
  | .msend a b => [(3, decide (a < 32)), (4, decide (b < 32))]
  | .mcap d a => [(2, decide (d < 32)), (3, decide (a < 32))]
  | .vld d a fs _ off => [(2, decide (d < 32)), (3, decide (a < 32)), (4, decide (fs < 32)), (4, fs != 23), (0, decide (off < 256))]
  | .vst d a fs k off => [(2, decide (d < 32)), (3, decide (a < 32)), (4, decide (fs < 32)), (4, fs != 23), (5, k != .v), (0, decide (off < 256))]
  | .vadd d a b => [(2, decide (d < 32)), (3, decide (a < 32)), (4, decide (b < 32))]
  | .vsub d a b => [(2, decide (d < 32)), (3, decide (a < 32)), (4, decide (b < 32))]
  | .vmul d a b => [(2, decide (d < 32)), (3, decide (a < 32)), (4, decide (b < 32))]
  | .vfma d a b c => [(2, decide (d < 32)), (3, decide (a < 32)), (4, decide (b < 32)), (5, decide (c < 32))]
  | .vfms d a b c => [(2, decide (d < 32)), (3, decide (a < 32)), (4, decide (b < 32)), (5, decide (c < 32))]
  | .vmin d a b => [(2, decide (d < 32)), (3, decide (a < 32)), (4, decide (b < 32))]
  | .vmax d a b => [(2, decide (d < 32)), (3, decide (a < 32)), (4, decide (b < 32))]
  | .vminp d a b => [(2, decide (d < 32)), (3, decide (a < 32)), (4, decide (b < 32))]
  | .vmaxp d a b => [(2, decide (d < 32)), (3, decide (a < 32)), (4, decide (b < 32))]
  | .vabs d a => [(2, decide (d < 32)), (3, decide (a < 32))]
  | .vneg d a => [(2, decide (d < 32)), (3, decide (a < 32))]
  | .vand d a b => [(2, decide (d < 32)), (3, decide (a < 32)), (4, decide (b < 32))]
  | .vor d a b => [(2, decide (d < 32)), (3, decide (a < 32)), (4, decide (b < 32))]
  | .vxor d a b => [(2, decide (d < 32)), (3, decide (a < 32)), (4, decide (b < 32))]
  | .vnot d a => [(2, decide (d < 32)), (3, decide (a < 32))]
  | .vshl d a b => [(2, decide (d < 32)), (3, decide (a < 32)), (4, decide (b < 32))]
  | .vshr d a b => [(2, decide (d < 32)), (3, decide (a < 32)), (4, decide (b < 32))]
  | .vsra d a b => [(2, decide (d < 32)), (3, decide (a < 32)), (4, decide (b < 32))]
  | .vadds d a b => [(2, decide (d < 32)), (3, decide (a < 32)), (4, decide (b < 32))]
  | .vsubs d a b => [(2, decide (d < 32)), (3, decide (a < 32)), (4, decide (b < 32))]
  | .vmov d a => [(2, decide (d < 32)), (3, decide (a < 32))]
  | .vcmpeq d a b => [(2, decide (d < 8)), (3, decide (a < 32)), (4, decide (b < 32))]
  | .vcmplt d a b => [(2, decide (d < 8)), (3, decide (a < 32)), (4, decide (b < 32))]
  | .vcmple d a b => [(2, decide (d < 8)), (3, decide (a < 32)), (4, decide (b < 32))]
  | .vcmpne d a b => [(2, decide (d < 8)), (3, decide (a < 32)), (4, decide (b < 32))]
  | .vsel d a b c => [(2, decide (d < 32)), (3, decide (a < 32)), (4, decide (b < 32)), (5, decide (c < 8))]
  | .vperm d a b => [(2, decide (d < 32)), (3, decide (a < 32)), (4, decide (b < 32))]
  | .vslide d a b c => [(2, decide (d < 32)), (3, decide (a < 32)), (4, decide (b < 32)), (5, decide (c < 32))]
  | .vzip d a b _ => [(2, decide (d < 32)), (3, decide (a < 32)), (4, decide (b < 32))]
  | .vunzip d a b _ => [(2, decide (d < 32)), (3, decide (a < 32)), (4, decide (b < 32))]
  | .pand d a b => [(2, decide (d < 8)), (3, decide (a < 8)), (4, decide (b < 8))]
  | .por d a b => [(2, decide (d < 8)), (3, decide (a < 8)), (4, decide (b < 8))]
  | .pnot d a => [(2, decide (d < 8)), (3, decide (a < 8))]
  | .pcnt d a => [(2, decide (d < 32)), (3, decide (a < 8))]
  | .vcvt d a p c => [(2, decide (d < 32)), (3, decide (a < 32)), (4, decide (p < 8)), (5, decide (c < 32)), (5, c != 23 && c != 31)]
  | .vquant d a c => [(2, decide (d < 32)), (3, decide (a < 32)), (5, decide (c < 23))]
  | .vdeq d a p c => [(2, decide (d < 32)), (3, decide (a < 32)), (4, decide (p < 8)), (5, decide (c < 32)), (5, decide (24 ≤ c ∧ c ≤ 27))]
  | .vretag d a b ir => [(2, decide (d < if ir then 16 else 32)), (3, decide (a < if ir then 16 else 32)), (4, decide (b < 32))]
  | .vtagr d a ir => [(2, decide (d < 32)), (3, decide (a < if ir then 16 else 32))]
  | .vscale d a b => [(2, decide (d < 32)), (3, decide (a < 32)), (4, decide (b < 32))]
  | .vpack d a b => [(2, decide (d < 32)), (3, decide (a < 32)), (4, decide (b < 32))]
  | .vunpk d a _ c => [(2, decide (d < 32)), (3, decide (a < 32)), (5, decide (c < 23))]
  | .vexp2 d a b c => [(2, decide (d < 32)), (3, decide (a < 32)), (4, decide (b < 32)), (5, decide (c < 32))]
  | .vlog2 d a => [(2, decide (d < 32)), (3, decide (a < 32))]
  | .vrcp d a => [(2, decide (d < 32)), (3, decide (a < 32))]
  | .vrsqrt d a => [(2, decide (d < 32)), (3, decide (a < 32))]
  | .vsqrt d a => [(2, decide (d < 32)), (3, decide (a < 32))]
  | .vdiv d a b => [(2, decide (d < 32)), (3, decide (a < 32)), (4, decide (b < 32))]
  | .vtanh d a => [(2, decide (d < 32)), (3, decide (a < 32))]
  | .vsigm d a => [(2, decide (d < 32)), (3, decide (a < 32))]
  | .vrsum d a => [(2, decide (d < 32)), (3, decide (a < 32))]
  | .vrmax d a => [(2, decide (d < 32)), (3, decide (a < 32))]
  | .vrmin d a => [(2, decide (d < 32)), (3, decide (a < 32))]
  | .vbcast d a c => [(2, decide (d < 32)), (3, decide (a < 32)), (5, decide (c < 32))]
  | .vmovx d a b => [(2, decide (d < 32)), (3, decide (a < 32)), (4, decide (b < 32))]
  | .vins d a b => [(2, decide (d < 32)), (3, decide (a < 32)), (4, decide (b < 32))]
  | .vrsump d a => [(2, decide (d < 32)), (3, decide (a < 32))]
  | .sbind d a => [(2, decide (d < 8)), (3, decide (a < 32))]
  | .sfree d => [(2, decide (d < 8))]
  | .sstat d a => [(2, decide (d < 32)), (3, decide (a < 8))]
  | .ild d a fs k off => [(2, decide (d < 16)), (3, decide (a < 32)), (4, decide (fs < 32)), (4, fs == 26 || fs == 27), (5, k != .v), (0, decide (off < 256))]
  | .ist d a fs k off => [(2, decide (d < 16)), (3, decide (a < 32)), (4, decide (fs < 32)), (4, fs == 26 || fs == 27), (5, k != .v), (0, decide (off < 256))]
  | .iadd d a b => [(2, decide (d < 16)), (3, decide (a < 16)), (4, decide (b < 16))]
  | .isub d a b => [(2, decide (d < 16)), (3, decide (a < 16)), (4, decide (b < 16))]
  | .imul d a b => [(2, decide (d < 16)), (3, decide (a < 16)), (4, decide (b < 16))]
  | .idiv d a b => [(2, decide (d < 16)), (3, decide (a < 16)), (4, decide (b < 16))]
  | .isqr d a => [(2, decide (d < 16)), (3, decide (a < 16))]
  | .isqrt d a => [(2, decide (d < 16)), (3, decide (a < 16))]
  | .iexp2 d a => [(2, decide (d < 16)), (3, decide (a < 16))]
  | .ilog2 d a => [(2, decide (d < 16)), (3, decide (a < 16))]
  | .imin d a b => [(2, decide (d < 16)), (3, decide (a < 16)), (4, decide (b < 16))]
  | .imax d a b => [(2, decide (d < 16)), (3, decide (a < 16)), (4, decide (b < 16))]
  | .irelu d a => [(2, decide (d < 16)), (3, decide (a < 16))]
  | .ineg d a => [(2, decide (d < 16)), (3, decide (a < 16))]
  | .iabs d a => [(2, decide (d < 16)), (3, decide (a < 16))]
  | .ifma d a b c => [(2, decide (d < 16)), (3, decide (a < 16)), (4, decide (b < 16)), (5, decide (c < 16))]
  | .iscale d a b => [(2, decide (d < 16)), (3, decide (a < 16)), (4, decide (b < 32))]
  | .cadd d a b => [(2, decide (d < 16)), (3, decide (a < 16)), (4, decide (b < 16))]
  | .csub d a b => [(2, decide (d < 16)), (3, decide (a < 16)), (4, decide (b < 16))]
  | .cmul d a b => [(2, decide (d < 16)), (3, decide (a < 16)), (4, decide (b < 16))]
  | .cdiv d a b => [(2, decide (d < 16)), (3, decide (a < 16)), (4, decide (b < 16))]
  | .csqr d a => [(2, decide (d < 16)), (3, decide (a < 16))]
  | .csqrt d a => [(2, decide (d < 16)), (3, decide (a < 16))]
  | .cexp2 d a => [(2, decide (d < 16)), (3, decide (a < 16))]
  | .cmax d a b => [(2, decide (d < 16)), (3, decide (a < 16)), (4, decide (b < 16))]
  | .cmin d a b => [(2, decide (d < 16)), (3, decide (a < 16)), (4, decide (b < 16))]
  | .crelu d a => [(2, decide (d < 16)), (3, decide (a < 16))]
  | .cabs d a => [(2, decide (d < 16)), (3, decide (a < 16))]
  | .ihull d a b => [(2, decide (d < 16)), (3, decide (a < 16)), (4, decide (b < 16))]
  | .imeet d a b => [(2, decide (d < 16)), (3, decide (a < 16)), (4, decide (b < 16))]
  | .isplit d a b => [(2, decide (d < 16)), (3, decide (a < 16)), (4, decide (b < 16))]
  | .imid d a _ => [(2, decide (d < 32)), (3, decide (a < 16))]
  | .irad d a _ => [(2, decide (d < 32)), (3, decide (a < 16))]
  | .iwid d a _ => [(2, decide (d < 32)), (3, decide (a < 16))]
  | .imk d a b _ => [(2, decide (d < 16)), (3, decide (a < 32)), (4, decide (b < 32))]
  | .ilo d a _ => [(2, decide (d < 32)), (3, decide (a < 16))]
  | .ihi d a _ => [(2, decide (d < 32)), (3, decide (a < 16))]
  | .iempty d _ => [(2, decide (d < 16))]
  | .iclt d a b => [(2, decide (d < 8)), (3, decide (a < 16)), (4, decide (b < 16))]
  | .icle d a b => [(2, decide (d < 8)), (3, decide (a < 16)), (4, decide (b < 16))]
  | .iceq d a b => [(2, decide (d < 8)), (3, decide (a < 16)), (4, decide (b < 16))]
  | .isubset d a b => [(2, decide (d < 8)), (3, decide (a < 16)), (4, decide (b < 16))]
  | .idisj d a b => [(2, decide (d < 8)), (3, decide (a < 16)), (4, decide (b < 16))]
  | .iisemp d a => [(2, decide (d < 8)), (3, decide (a < 16))]
  | .qand d a b => [(2, decide (d < 8)), (3, decide (a < 8)), (4, decide (b < 8))]
  | .qor d a b => [(2, decide (d < 8)), (3, decide (a < 8)), (4, decide (b < 8))]
  | .qnot d a => [(2, decide (d < 8)), (3, decide (a < 8))]
  | .qall d a _ => [(2, decide (d < 32)), (3, decide (a < 8))]
  | .qany d a _ => [(2, decide (d < 32)), (3, decide (a < 8))]
  | .qsel d a b c => [(2, decide (d < 8)), (3, decide (a < 8)), (4, decide (b < 8)), (5, decide (c < 8))]
  | .iprog d => [(2, decide (d < 8))]
  | .mma d a b sq => [(2, decide (d < 4)), (3, decide (a < 8)), (4, decide (b < 32)), (5, decide (sq < 16))]
  | .mmaiv d a b sq => [(2, decide (d < 4)), (3, decide (a < 8)), (4, decide (b < 32)), (5, decide (sq < 16))]
  | .mma64 d a b c => [(2, decide (d < 4)), (3, decide (a < 8)), (4, decide (b < 8)), (5, decide (c < 32))]
  | .mldw d a b n => [(2, decide (d < 16)), (3, decide (a < 8)), (4, decide (b < 32)), (5, decide (n < 16))]
  | .mzero d _ => [(2, decide (d < 4))]
  | .mdrain d a b r => [(2, decide (d < 4)), (3, decide (a < 8)), (4, decide (b < 32)), (5, decide (r < 4)), (5, r != 3)]
  | .msync _ => []
  | .mstat d a _ => [(2, decide (d < 32)), (3, decide (a < 32))]
  | .vwreg d a => [(2, decide (d < 32)), (3, decide (a < 32))]
  | .vwdel a => [(3, decide (a < 32))]
  | .vwsync a => [(3, decide (a < 32))]
  | .vwpol a b => [(3, decide (a < 32)), (4, decide (b < 32))]
  | .vwstat d a => [(2, decide (d < 32)), (3, decide (a < 32))]
  | .vwkick a => [(3, decide (a < 32))]
  | .hld d a => [(2, decide (d < 8)), (3, decide (a < 32))]
  | .hqry d a b => [(2, decide (d < 32)), (3, decide (a < 8)), (4, decide (b < 32))]
  | .hclr d => [(2, decide (d < 8))]
  | .fmtset d a => [(2, decide (d < 16)), (3, decide (a < 32))]
  | .fmtget d a => [(2, decide (d < 32)), (3, decide (a < 16))]
  | .vlds d a b c => [(2, decide (d < 32)), (3, decide (a < 32)), (4, decide (b < 32)), (5, decide (c < 23))]
  | .vsts d a b _ => [(2, decide (d < 32)), (3, decide (a < 32)), (4, decide (b < 32))]
  | .vldm d a b n => [(2, decide (d < 32)), (3, decide (a < 32)), (4, decide (b < 32)), (5, decide (n < 32)), (5, decide (d + n < 32))]
  | .vstm d a b n => [(2, decide (d < 32)), (3, decide (a < 32)), (4, decide (b < 32)), (5, decide (n < 32)), (5, decide (d + n < 32))]
  | .vldi d a b c => [(2, decide (d < 32)), (3, decide (a < 32)), (4, decide (b < 32)), (5, decide (c < 32))]
  | .vsti d a b c => [(2, decide (d < 32)), (3, decide (a < 32)), (4, decide (b < 32)), (5, decide (c < 32))]
  | .nop => []
  | .halt => []
  | .yield => []
  | .trap => []
  | .scall => []
  | .eret => []
  | .tlbinvAll => []
  | .brk => []
  | .ret => []
  | .fenceO => []
  | .pwait => []
  | .snapinv => []
  | .xend => []
  | .tret => []
  | .tleave => []
  | .hintImm => []
  | .hintMod => []
  | .hintDly => []
  | .hintPrf => []
  | .asyncTrapTake => []
  | .delayExpiry => []
  | .yieldEnd => []
  | .cpGo => []
  | .copyComplete => []
  | .promiseMissed => []
  | .gatherDescriptorRun => []
  | .matrixCommandRun => []
  | .downFifoRecordTake => []
  | .msendRecordArrival => []
  | .sfuResult => []
  | .tlbWalkEnd => []
  | .accessAtOrderingPoint => []
  | .loadValueReturn => []
  | .storeAck => []
  | .feTimeout => []
  | .streamReadAhead => []
  | .mwaitTimeout => []
  | .waittExpiry => []
  | .twaitTimeout => []
  | .wfiTimeout => []
  | .linkValueArrival => []
  | .fifoEntryVisible => []
  | .routedWordArrival => []
  | .scheduleLimit => []
  | .coreArrival => []
  | .barrierRelease => []
  | .systemBarrierRelease => []
  | .barrierTimeout => []
  | .tpostArrival => []
  | .counterReport => []
  | .watchReread => []
  | .taskUrgentDue => []
  | .tstealArrival => []
  | .tstealAnswerArrival => []
  | .offerArrival => []
  | .tjoinArrival => []
  | .tleaveArrival => []
  | .qinfoArrival => []
  | .tretArrival => []
  | .tretAnswerArrival => []
  | .pierJobEnd => []
  | .pcallAccept => []
  | .pcallAcceptNews => []
  | .refreshDue => []
  | .governorSample => []
  | .dirtyNotice => []
  | .viewBlockRefresh => []
  | .computeCommandTake => []
  | .placementWaitExpiry => []
  | .copyJobTake => []
  | .inMemoryJobTake => []
  | .commandAging => []
  | .startCapture => []
  | .stopCapture => []
  | .launchCompletion => []
  | .clusterGate => []
  | .packIdleGate => []
  | .clusterWakeDone => []
  | .wakeFailure => []
  | .cstopRequestArrival => []
  | .contextStop => []
  | .stopAckArrival => []
  | .packetStopLimit => []
  | .coreSave => []
  | .coreRestore => []
  | .preciseStopArm => []
  | .preciseStopLift => []
  | .replayControlWrite => []
  | .capabilityEpochAdvance => []
  | .pierQuiesceWrite => []
  | .rowRepair => []
  | .startGoodWrite => []
  | .controlWordWrite => []
  | .attestationSign => []
  | .powerOnReset => []
  | .warmReset => []
  | .bootStart => []
  | .startWatchdog => []
  | .recoveryImageMessage => []
  | .hostRingHeadWrite => []
  | .hostRingTailWrite => []
  | .peerRequestArrival => []
  | .peerTimeout => []
  | .flitCrcFail => []
  | .uncorrectableError => []
  | .commandBlockArrival => []
  | .commandQueuedNews => []
  | .viewRequestArrival => []
  | .viewAnswerArrival => []
  | .msendAnswerArrival => []
  | .counterReadAnswer => []
  | .coreSaveDone => []
  | .rowRepairDone => []
  | .stagingRegionWrite => []
  | .debugHaltBegin => []
  | .debugHaltEnd => []

/-- Does the step have an encoding (is it one of the 263 instruction words)? -/
def Instr.isWord : Instr → Bool
  | .asyncTrapTake => false
  | .delayExpiry => false
  | .yieldEnd => false
  | .cpGo => false
  | .copyComplete => false
  | .promiseMissed => false
  | .gatherDescriptorRun => false
  | .matrixCommandRun => false
  | .downFifoRecordTake => false
  | .msendRecordArrival => false
  | .sfuResult => false
  | .tlbWalkEnd => false
  | .accessAtOrderingPoint => false
  | .loadValueReturn => false
  | .storeAck => false
  | .feTimeout => false
  | .streamReadAhead => false
  | .mwaitTimeout => false
  | .waittExpiry => false
  | .twaitTimeout => false
  | .wfiTimeout => false
  | .linkValueArrival => false
  | .fifoEntryVisible => false
  | .routedWordArrival => false
  | .scheduleLimit => false
  | .coreArrival => false
  | .barrierRelease => false
  | .systemBarrierRelease => false
  | .barrierTimeout => false
  | .tpostArrival => false
  | .counterReport => false
  | .watchReread => false
  | .taskUrgentDue => false
  | .tstealArrival => false
  | .tstealAnswerArrival => false
  | .offerArrival => false
  | .tjoinArrival => false
  | .tleaveArrival => false
  | .qinfoArrival => false
  | .tretArrival => false
  | .tretAnswerArrival => false
  | .pierJobEnd => false
  | .pcallAccept => false
  | .pcallAcceptNews => false
  | .refreshDue => false
  | .governorSample => false
  | .dirtyNotice => false
  | .viewBlockRefresh => false
  | .computeCommandTake => false
  | .placementWaitExpiry => false
  | .copyJobTake => false
  | .inMemoryJobTake => false
  | .commandAging => false
  | .startCapture => false
  | .stopCapture => false
  | .launchCompletion => false
  | .clusterGate => false
  | .packIdleGate => false
  | .clusterWakeDone => false
  | .wakeFailure => false
  | .cstopRequestArrival => false
  | .contextStop => false
  | .stopAckArrival => false
  | .packetStopLimit => false
  | .coreSave => false
  | .coreRestore => false
  | .preciseStopArm => false
  | .preciseStopLift => false
  | .replayControlWrite => false
  | .capabilityEpochAdvance => false
  | .pierQuiesceWrite => false
  | .rowRepair => false
  | .startGoodWrite => false
  | .controlWordWrite => false
  | .attestationSign => false
  | .powerOnReset => false
  | .warmReset => false
  | .bootStart => false
  | .startWatchdog => false
  | .recoveryImageMessage => false
  | .hostRingHeadWrite => false
  | .hostRingTailWrite => false
  | .peerRequestArrival => false
  | .peerTimeout => false
  | .flitCrcFail => false
  | .uncorrectableError => false
  | .commandBlockArrival => false
  | .commandQueuedNews => false
  | .viewRequestArrival => false
  | .viewAnswerArrival => false
  | .msendAnswerArrival => false
  | .counterReadAnswer => false
  | .coreSaveDone => false
  | .rowRepairDone => false
  | .stagingRegionWrite => false
  | .debugHaltBegin => false
  | .debugHaltEnd => false
  | _ => true

/-- A well-formed instruction word: it has an encoding and every check holds. -/
def Instr.wf (i : Instr) : Bool := i.isWord && i.checks.all (·.2)

/-- The FIELD of the first check that fails, if any. -/
def Instr.badField (i : Instr) : Option Nat := (i.checks.find? (fun p => !p.2)).map (·.1)

end Sys2Proof
end

