-- ==== Sys2Proof/Decode.lean ====
section
/-! DEFINITION. From instruction words to instructions and back (10_encoding R243 to R257), with the bit-field helpers
that the machine shares. A word that no row of the opcode map accepts is refused with the FIELD that R409 and R418 give it. -/

namespace Sys2Proof

/-- Bits hi:lo of a number (R3). -/
def bits (v hi lo : Nat) : Nat := v / 2 ^ lo % 2 ^ (hi + 1 - lo)

/-- Bit n of a number. -/
def bit (v n : Nat) : Bool := v / 2 ^ n % 2 == 1

/-- The two's-complement value of the low n bits of v. -/
def sext (v n : Nat) : Int :=
  if v % 2 ^ n < 2 ^ (n - 1) then (v % 2 ^ n : Nat) else (v % 2 ^ n : Nat) - (2 ^ n : Nat)

/-- The bytes of the low n bytes of v, lowest first (R3). -/
def bytesOf : Nat → Nat → List Byte
  | 0, _ => []
  | n + 1, v => BitVec.ofNat 8 (v % 256) :: bytesOf n (v / 256)

/-- The number that bytes stand for, lowest first (R3). -/
def natOf : List Byte → Nat
  | [] => 0
  | b :: bs => b.toNat + 256 * natOf bs

/-- SP code of an access kind (R248). -/
def AccKind.code : AccKind → Nat
  | .l => 0 | .g => 1 | .f => 2 | .a => 3 | .v => 4 | .s => 5 | .w => 6 | .c => 7

/-- The access kind of an SP code (R248). -/
def AccKind.ofCode (n : Nat) : AccKind :=
  match n with
  | 0 => .l | 1 => .g | 2 => .f | 3 => .a | 4 => .v | 5 => .s | 6 => .w | _ => .c

/-- Accept an instruction when its unused fields are zero and its own checks hold; otherwise the lowest FIELD at fault (R245,
R418). -/
def accept (xs : List (Nat × Bool)) (i : Instr) : Except Nat Instr :=
  match (xs.filter fun x => !x.2).map (·.1) ++ i.badField.toList with
  | [] => .ok i
  | f :: fs => .error (fs.foldl min f)

/-- Group SYS, OP 0x00 (R250). -/
def decSys (d a b c f : Nat) : Except Nat Instr :=
  match f with
  | 2 => accept [(2, d == 0)] (.start a b (c / 2) (c % 2 == 1))
  | 3 => accept [(2, d == 0), (3, a == 0), (4, b == 0), (5, c % 2 == 0)] (.joinh (c / 2))
  | 8 => accept [(4, b == 0), (5, c == 0)] (.wfi d a)
  | 9 => accept [(4, b == 0), (5, c == 0)] (.pgate d a)
  | 10 => accept [(2, d == 0), (5, c == 0)] (.cstop a b)
  | 11 => accept [(2, d == 0), (5, c == 0)] (.cresume a b)
  | 12 => accept [(2, d == 0), (4, b == 0), (5, c == 0)] (.launch a)
  | 13 => accept [(2, d == 0), (4, b == 0), (5, c == 0)] (.qpost a)
  | 14 =>
    if c == 0 then accept [(2, d == 0), (3, a == 0)] (.tlbinvAsid b)
    else if c == 1 then accept [(2, d == 0)] (.tlbinvPage a b)
    else if c == 2 then accept [(2, d == 0), (3, a == 0), (4, b == 0)] (.tlbinvAll)
    else accept [(2, d == 0), (5, false)] (.tlbinvAll)
  | 0 => accept [(2, d == 0), (3, a == 0), (4, b == 0), (5, c == 0)] (.nop)
  | 1 => accept [(2, d == 0), (3, a == 0), (4, b == 0), (5, c == 0)] (.halt)
  | 4 => accept [(2, d == 0), (3, a == 0), (4, b == 0), (5, c == 0)] (.yield)
  | 5 => accept [(2, d == 0), (3, a == 0)] (.trap)
  | 6 => accept [(2, d == 0), (3, a == 0)] (.scall)
  | 7 => accept [(2, d == 0), (3, a == 0), (4, b == 0), (5, c == 0)] (.eret)
  | 15 => accept [(2, d == 0), (3, a == 0)] (.brk)
  | _ => .error 6

/-- Group ALU, OP 0x01 (R250). -/
def decAlu (d a b c f : Nat) : Except Nat Instr :=
  match f with
  | 0 => accept [(5, c == 0)] (.add d a b)
  | 1 => accept [(5, c == 0)] (.sub d a b)
  | 2 => accept [(5, c == 0)] (.and d a b)
  | 3 => accept [(5, c == 0)] (.or d a b)
  | 4 => accept [(5, c == 0)] (.xor d a b)
  | 5 => accept [(5, c == 0)] (.shl d a b)
  | 6 => accept [(5, c == 0)] (.shr d a b)
  | 7 => accept [(5, c == 0)] (.sra d a b)
  | 8 => accept [(5, c == 0)] (.mul d a b)
  | 9 => accept [(5, c == 0)] (.mulh d a b)
  | 10 => accept [(5, c == 0)] (.mulhu d a b)
  | 11 => accept [(5, c == 0)] (.div d a b)
  | 12 => accept [(5, c == 0)] (.divu d a b)
  | 13 => accept [(5, c == 0)] (.rem d a b)
  | 14 => accept [(5, c == 0)] (.remu d a b)
  | 15 => accept [(5, c == 0)] (.min d a b)
  | 16 => accept [(5, c == 0)] (.max d a b)
  | 17 => accept [(5, c == 0)] (.minu d a b)
  | 18 => accept [(5, c == 0)] (.maxu d a b)
  | 19 => accept [(5, c == 0)] (.slt d a b)
  | 20 => accept [(5, c == 0)] (.sltu d a b)
  | 21 => accept [(5, c == 0)] (.seq d a b)
  | 22 => accept [] (.sel d a b c)
  | 23 => accept [(4, b == 0), (5, c == 0)] (.clz d a)
  | 24 => accept [(4, b == 0), (5, c == 0)] (.ctz d a)
  | 25 => accept [(4, b == 0), (5, c == 0)] (.popc d a)
  | 26 => accept [(5, c == 0)] (.addw d a b)
  | 27 => accept [(5, c == 0)] (.subw d a b)
  | 28 =>
    if c == 0 then accept [] (.mkpa d a b)
    else if c == 1 then accept [] (.mkpaRel d a b)
    else .error 5
  | _ => .error 6

/-- Group SHI, OP 0x06 (R250). -/
def decShi (d a b c f : Nat) : Except Nat Instr :=
  match f / 2 with
  | 0 => accept [(4, b == 0)] (.shli d a c (f % 2))
  | 1 => accept [(4, b == 0)] (.shri d a c (f % 2))
  | 2 => accept [(4, b == 0)] (.srai d a c (f % 2))
  | _ => .error 6

/-- Group AMO, OP 0x0C (R250). -/
def decAmo (d a b c f : Nat) : Except Nat Instr :=
  match f % 32 with
  | 0 => accept [] (.aadd d a b (c / 8) (c % 8) (f / 32 == 1))
  | 1 => accept [] (.aand d a b (c / 8) (c % 8) (f / 32 == 1))
  | 2 => accept [] (.aor d a b (c / 8) (c % 8) (f / 32 == 1))
  | 3 => accept [] (.axor d a b (c / 8) (c % 8) (f / 32 == 1))
  | 4 => accept [] (.amin d a b (c / 8) (c % 8) (f / 32 == 1))
  | 5 => accept [] (.amax d a b (c / 8) (c % 8) (f / 32 == 1))
  | 6 => accept [] (.aminu d a b (c / 8) (c % 8) (f / 32 == 1))
  | 7 => accept [] (.amaxu d a b (c / 8) (c % 8) (f / 32 == 1))
  | 8 => accept [] (.aswp d a b (c / 8) (c % 8) (f / 32 == 1))
  | 9 => accept [] (.acas d a b (c / 8) (c % 8) (f / 32 == 1))
  | 10 => accept [(4, b == 0)] (.ainc d a (c / 8) (c % 8) (f / 32 == 1))
  | 11 => accept [] (.afadd d a b (c / 8) (c % 8) (f / 32 == 1))
  | _ => .error 6

/-- Group JMPR, OP 0x10 (R250). -/
def decJmpr (d a b c f : Nat) : Except Nat Instr :=
  match f with
  | 0 => accept [(2, d == 0), (4, b == 0), (5, c == 0)] (.jr a)
  | 1 => accept [(4, b == 0), (5, c == 0)] (.jalr d a)
  | 2 => accept [(2, d == 0), (3, a == 0), (4, b == 0), (5, c == 0)] (.ret)
  | _ => .error 6

/-- Group SYNC, OP 0x16 (R250). -/
def decSync (d a b c f : Nat) : Except Nat Instr :=
  match f with
  | 1 => accept [(2, d == 0), (5, c == 0)] (.fenceX a b)
  | 2 => accept [(2, d == 0), (3, a == 0), (5, c % 16 == 0)] (.phase b (c / 16 == 1))
  | 3 => accept [(2, d == 0), (3, a == 0), (5, c % 16 == 0)] (.parrive b (c / 16 == 1))
  | 5 => accept [(2, d == 0), (4, b == 0), (5, c == 0)] (.bdom a)
  | 6 => accept [(2, d == 0), (5, c == 0)] (.bexp a b)
  | 7 => accept [(5, c / 4 == 0)] (.mon d a b (c % 4))
  | 8 => accept [(3, a == 0), (4, b == 0), (5, c == 0)] (.mwait d)
  | 9 => accept [(2, d == 0), (4, b == 0), (5, c == 0)] (.waitt a)
  | 10 => accept [(2, d == 0), (4, b == 0), (5, c == 0)] (.ewait a)
  | 12 => accept [(2, d == 0), (3, a == 0), (5, c % 16 == 0)] (.xbegin b (c / 16 == 1))
  | 14 => accept [(2, d == 0)] (.preduce a b (c / 16 == 1) (c / 4 % 4) (c % 4))
  | 0 => accept [(2, d == 0), (3, a == 0), (4, b == 0), (5, c == 0)] (.fenceO)
  | 4 => accept [(2, d == 0), (3, a == 0), (4, b == 0), (5, c == 0)] (.pwait)
  | 11 => accept [(2, d == 0), (3, a == 0), (4, b == 0), (5, c == 0)] (.snapinv)
  | 13 => accept [(2, d == 0), (3, a == 0), (4, b == 0), (5, c == 0)] (.xend)
  | _ => .error 6

/-- Group TASK, OP 0x17 (R250). -/
def decTask (d a b c f : Nat) : Except Nat Instr :=
  match f with
  | 0 =>
    if c == 0 then accept [(2, d == 0)] (.tpost a b)
    else if c == 1 then accept [(2, d == 0)] (.tpostC a b)
    else accept [(2, d == 0), (5, false)] (.tpost a b)
  | 1 => accept [(5, c == 0)] (.tsteal d a b)
  | 3 => accept [(2, d == 0), (5, c == 0)] (.tjoin a b)
  | 5 => accept [(4, b == 0), (5, c == 0)] (.twait d a)
  | 6 => accept [(2, d == 0), (4, b == 0), (5, c == 0)] (.pcall a)
  | 7 => accept [(5, c == 0)] (.qinfo d a b)
  | 2 => accept [(2, d == 0), (3, a == 0), (4, b == 0), (5, c == 0)] (.tret)
  | 4 => accept [(2, d == 0), (3, a == 0), (4, b == 0), (5, c == 0)] (.tleave)
  | _ => .error 6

/-- Group MSG, OP 0x18 (R250). -/
def decMsg (d a b c f : Nat) : Except Nat Instr :=
  match f with
  | 0 => accept [(4, b == 0), (5, c == 0)] (.send d a)
  | 1 => accept [(4, b == 0), (5, c == 0)] (.sende d a)
  | 2 => accept [(3, a == 0), (4, b == 0), (5, c == 0)] (.recv d)
  | 3 => accept [(3, a == 0), (4, b == 0), (5, c == 0)] (.rpeek d)
  | _ => .error 6

/-- Group ENG, OP 0x19 (R250). -/
def decEng (d a b c f : Nat) : Except Nat Instr :=
  match f with
  | 0 => accept [(2, d == 0), (4, b == 0), (5, c == 0)] (.gpost a)
  | 1 => accept [(2, d == 0), (5, c == 0)] (.msend a b)
  | 2 => accept [(4, b == 0), (5, c == 0)] (.mcap d a)
  | _ => .error 6

/-- Group VALU, OP 0x1C (R250). -/
def decValu (d a b c f : Nat) : Except Nat Instr :=
  match f with
  | 0 => accept [(5, c == 0)] (.vadd d a b)
  | 1 => accept [(5, c == 0)] (.vsub d a b)
  | 2 => accept [(5, c == 0)] (.vmul d a b)
  | 3 => accept [] (.vfma d a b c)
  | 4 => accept [] (.vfms d a b c)
  | 5 => accept [(5, c == 0)] (.vmin d a b)
  | 6 => accept [(5, c == 0)] (.vmax d a b)
  | 7 => accept [(5, c == 0)] (.vminp d a b)
  | 8 => accept [(5, c == 0)] (.vmaxp d a b)
  | 9 => accept [(4, b == 0), (5, c == 0)] (.vabs d a)
  | 10 => accept [(4, b == 0), (5, c == 0)] (.vneg d a)
  | 11 => accept [(5, c == 0)] (.vand d a b)
  | 12 => accept [(5, c == 0)] (.vor d a b)
  | 13 => accept [(5, c == 0)] (.vxor d a b)
  | 14 => accept [(4, b == 0), (5, c == 0)] (.vnot d a)
  | 15 => accept [(5, c == 0)] (.vshl d a b)
  | 16 => accept [(5, c == 0)] (.vshr d a b)
  | 17 => accept [(5, c == 0)] (.vsra d a b)
  | 18 => accept [(5, c == 0)] (.vadds d a b)
  | 19 => accept [(5, c == 0)] (.vsubs d a b)
  | 20 => accept [(4, b == 0), (5, c == 0)] (.vmov d a)
  | _ => .error 6

/-- Group VCMP, OP 0x1D (R250). -/
def decVcmp (d a b c f : Nat) : Except Nat Instr :=
  match f with
  | 0 => accept [(5, c == 0)] (.vcmpeq d a b)
  | 1 => accept [(5, c == 0)] (.vcmplt d a b)
  | 2 => accept [(5, c == 0)] (.vcmple d a b)
  | 3 => accept [(5, c == 0)] (.vcmpne d a b)
  | 4 => accept [] (.vsel d a b c)
  | 5 => accept [(5, c == 0)] (.vperm d a b)
  | 6 => accept [] (.vslide d a b c)
  | 7 => accept [(5, c / 2 == 0)] (.vzip d a b (c % 2 == 1))
  | 8 => accept [(5, c / 2 == 0)] (.vunzip d a b (c % 2 == 1))
  | 9 => accept [(5, c == 0)] (.pand d a b)
  | 10 => accept [(5, c == 0)] (.por d a b)
  | 11 => accept [(4, b == 0), (5, c == 0)] (.pnot d a)
  | 12 => accept [(4, b == 0), (5, c == 0)] (.pcnt d a)
  | _ => .error 6

/-- Group VCVT, OP 0x1E (R250). -/
def decVcvt (d a b c f : Nat) : Except Nat Instr :=
  match f with
  | 0 => accept [(4, b / 8 == 0)] (.vcvt d a (b % 8) c)
  | 1 => accept [(4, b == 0)] (.vquant d a c)
  | 2 => accept [(4, b / 8 == 0)] (.vdeq d a (b % 8) c)
  | 3 => accept [(5, c / 2 == 0)] (.vretag d a b (c % 2 == 1))
  | 4 => accept [(4, b == 0), (5, c / 2 == 0)] (.vtagr d a (c % 2 == 1))
  | 5 => accept [(5, c == 0)] (.vscale d a b)
  | 6 => accept [(5, c == 0)] (.vpack d a b)
  | 7 => accept [(4, b / 2 == 0)] (.vunpk d a (b % 2 == 1) c)
  | _ => .error 6

/-- Group VSFU, OP 0x1F (R250). -/
def decVsfu (d a b c f : Nat) : Except Nat Instr :=
  match f with
  | 0 => accept [] (.vexp2 d a b c)
  | 1 => accept [(4, b == 0), (5, c == 0)] (.vlog2 d a)
  | 2 => accept [(4, b == 0), (5, c == 0)] (.vrcp d a)
  | 3 => accept [(4, b == 0), (5, c == 0)] (.vrsqrt d a)
  | 4 => accept [(4, b == 0), (5, c == 0)] (.vsqrt d a)
  | 5 => accept [(5, c == 0)] (.vdiv d a b)
  | 6 => accept [(4, b == 0), (5, c == 0)] (.vtanh d a)
  | 7 => accept [(4, b == 0), (5, c == 0)] (.vsigm d a)
  | _ => .error 6

/-- Group VRED, OP 0x20 (R250). -/
def decVred (d a b c f : Nat) : Except Nat Instr :=
  match f with
  | 0 => accept [(4, b == 0), (5, c == 0)] (.vrsum d a)
  | 1 => accept [(4, b == 0), (5, c == 0)] (.vrmax d a)
  | 2 => accept [(4, b == 0), (5, c == 0)] (.vrmin d a)
  | 3 => accept [(4, b == 0)] (.vbcast d a c)
  | 4 => accept [(5, c == 0)] (.vmovx d a b)
  | 5 => accept [(5, c == 0)] (.vins d a b)
  | 6 => accept [(4, b == 0), (5, c == 0)] (.vrsump d a)
  | _ => .error 6

/-- Group STRM, OP 0x21 (R250). -/
def decStrm (d a b c f : Nat) : Except Nat Instr :=
  match f with
  | 0 => accept [(4, b == 0), (5, c == 0)] (.sbind d a)
  | 1 => accept [(3, a == 0), (4, b == 0), (5, c == 0)] (.sfree d)
  | 2 => accept [(4, b == 0), (5, c == 0)] (.sstat d a)
  | _ => .error 6

/-- Group IAR, OP 0x24 (R250). -/
def decIar (d a b c f : Nat) : Except Nat Instr :=
  match f with
  | 0 => accept [(5, c == 0)] (.iadd d a b)
  | 1 => accept [(5, c == 0)] (.isub d a b)
  | 2 => accept [(5, c == 0)] (.imul d a b)
  | 3 => accept [(5, c == 0)] (.idiv d a b)
  | 4 => accept [(4, b == 0), (5, c == 0)] (.isqr d a)
  | 5 => accept [(4, b == 0), (5, c == 0)] (.isqrt d a)
  | 6 => accept [(4, b == 0), (5, c == 0)] (.iexp2 d a)
  | 7 => accept [(4, b == 0), (5, c == 0)] (.ilog2 d a)
  | 8 => accept [(5, c == 0)] (.imin d a b)
  | 9 => accept [(5, c == 0)] (.imax d a b)
  | 10 => accept [(4, b == 0), (5, c == 0)] (.irelu d a)
  | 11 => accept [(4, b == 0), (5, c == 0)] (.ineg d a)
  | 12 => accept [(4, b == 0), (5, c == 0)] (.iabs d a)
  | 13 => accept [] (.ifma d a b c)
  | 14 => accept [(5, c == 0)] (.iscale d a b)
  | _ => .error 6

/-- Group ICT, OP 0x25 (R250). -/
def decIct (d a b c f : Nat) : Except Nat Instr :=
  match f with
  | 0 => accept [(5, c == 0)] (.cadd d a b)
  | 1 => accept [(5, c == 0)] (.csub d a b)
  | 2 => accept [(5, c == 0)] (.cmul d a b)
  | 3 => accept [(5, c == 0)] (.cdiv d a b)
  | 4 => accept [(4, b == 0), (5, c == 0)] (.csqr d a)
  | 5 => accept [(4, b == 0), (5, c == 0)] (.csqrt d a)
  | 6 => accept [(4, b == 0), (5, c == 0)] (.cexp2 d a)
  | 7 => accept [(5, c == 0)] (.cmax d a b)
  | 8 => accept [(5, c == 0)] (.cmin d a b)
  | 9 => accept [(4, b == 0), (5, c == 0)] (.crelu d a)
  | 10 => accept [(4, b == 0), (5, c == 0)] (.cabs d a)
  | _ => .error 6

/-- Group IPR, OP 0x26 (R250). -/
def decIpr (d a b c f : Nat) : Except Nat Instr :=
  match f with
  | 0 => accept [(5, c == 0)] (.ihull d a b)
  | 1 => accept [(5, c == 0)] (.imeet d a b)
  | 2 => accept [(5, c == 0)] (.isplit d a b)
  | 3 => accept [(4, b == 0), (5, c / 2 == 0)] (.imid d a (c % 2 == 1))
  | 4 => accept [(4, b == 0), (5, c / 2 == 0)] (.irad d a (c % 2 == 1))
  | 5 => accept [(4, b == 0), (5, c / 2 == 0)] (.iwid d a (c % 2 == 1))
  | 6 => accept [(5, c / 2 == 0)] (.imk d a b (c % 2 == 1))
  | 7 => accept [(4, b == 0), (5, c / 2 == 0)] (.ilo d a (c % 2 == 1))
  | 8 => accept [(4, b == 0), (5, c / 2 == 0)] (.ihi d a (c % 2 == 1))
  | 9 => accept [(3, a == 0), (4, b == 0), (5, c / 2 == 0)] (.iempty d (c % 2 == 1))
  | 10 => accept [(5, c == 0)] (.iclt d a b)
  | 11 => accept [(5, c == 0)] (.icle d a b)
  | 12 => accept [(5, c == 0)] (.iceq d a b)
  | 13 => accept [(5, c == 0)] (.isubset d a b)
  | 14 => accept [(5, c == 0)] (.idisj d a b)
  | 15 => accept [(4, b == 0), (5, c == 0)] (.iisemp d a)
  | 16 => accept [(5, c == 0)] (.qand d a b)
  | 17 => accept [(5, c == 0)] (.qor d a b)
  | 18 => accept [(4, b == 0), (5, c == 0)] (.qnot d a)
  | 19 => accept [(4, b == 0), (5, c / 2 == 0)] (.qall d a (c % 2 == 1))
  | 20 => accept [(4, b == 0), (5, c / 2 == 0)] (.qany d a (c % 2 == 1))
  | 21 => accept [] (.qsel d a b c)
  | 22 => accept [(3, a == 0), (4, b == 0), (5, c == 0)] (.iprog d)
  | _ => .error 6

/-- Group MTX, OP 0x27 (R250). -/
def decMtx (d a b c f : Nat) : Except Nat Instr :=
  match f with
  | 0 => accept [(5, c / 16 == 0)] (.mma d a b (c % 16))
  | 1 => accept [(5, c / 16 == 0)] (.mmaiv d a b (c % 16))
  | 2 => accept [] (.mma64 d a b c)
  | 3 => accept [(5, c / 16 == 0)] (.mldw d a b (c % 16))
  | 4 => accept [(3, a == 0), (4, b == 0), (5, c / 2 == 0)] (.mzero d (c % 2 == 1))
  | 5 => accept [(5, c / 4 == 0)] (.mdrain d a b (c % 4))
  | 6 => accept [(2, d == 0), (3, a == 0), (4, b == 0), (5, c / 2 == 0)] (.msync (c % 2 == 1))
  | 7 => accept [(4, b == 0), (5, c / 2 == 0)] (.mstat d a (c % 2 == 1))
  | _ => .error 6

/-- Group VIEW, OP 0x28 (R250). -/
def decView (d a b c f : Nat) : Except Nat Instr :=
  match f with
  | 0 => accept [(4, b == 0), (5, c == 0)] (.vwreg d a)
  | 1 => accept [(2, d == 0), (4, b == 0), (5, c == 0)] (.vwdel a)
  | 2 => accept [(2, d == 0), (4, b == 0), (5, c == 0)] (.vwsync a)
  | 3 => accept [(2, d == 0), (5, c == 0)] (.vwpol a b)
  | 4 => accept [(4, b == 0), (5, c == 0)] (.vwstat d a)
  | 5 => accept [(2, d == 0), (4, b == 0), (5, c == 0)] (.vwkick a)
  | _ => .error 6

/-- Group HND, OP 0x29 (R250). -/
def decHnd (d a b c f : Nat) : Except Nat Instr :=
  match f with
  | 0 => accept [(4, b == 0), (5, c == 0)] (.hld d a)
  | 1 => accept [(5, c == 0)] (.hqry d a b)
  | 2 => accept [(3, a == 0), (4, b == 0), (5, c == 0)] (.hclr d)
  | _ => .error 6

/-- Group FMT, OP 0x2A (R250). -/
def decFmt (d a b c f : Nat) : Except Nat Instr :=
  match f with
  | 0 => accept [(4, b == 0), (5, c == 0)] (.fmtset d a)
  | 1 => accept [(4, b == 0), (5, c == 0)] (.fmtget d a)
  | _ => .error 6

/-- Group VMEM, OP 0x2B (R250). -/
def decVmem (d a b c f : Nat) : Except Nat Instr :=
  match f with
  | 0 => accept [] (.vlds d a b c)
  | 1 => accept [(5, c / 2 == 0)] (.vsts d a b (c % 2 == 1))
  | 2 => accept [] (.vldm d a b c)
  | 3 => accept [] (.vstm d a b c)
  | 4 => accept [] (.vldi d a b c)
  | 5 => accept [] (.vsti d a b c)
  | _ => .error 6

/-- Format B: the conditional branches by CND (R249). -/
def decBr (cnd a b off : Nat) : Except Nat Instr :=
  match cnd with
  | 0 => accept [] (.beq a b off)
  | 1 => accept [] (.bne a b off)
  | 2 => accept [] (.blt a b off)
  | 3 => accept [] (.bge a b off)
  | 4 => accept [] (.bltu a b off)
  | 5 => accept [] (.bgeu a b off)
  | 6 => accept [(4, b == 0)] (.bz a off)
  | 7 => accept [(4, b == 0)] (.bnz a off)
  | _ => .error 6

/-- Format H: the hint words by K (R252 to R257). The payload stays in the word. The reserved values of HINT.MOD report FIELD
7, nonzero bits 21:12 of HINT.DLY FIELD 0 (R416). -/
def decHint (k w : Nat) : Except Nat Instr :=
  match k with
  | 0 => accept [] .hintImm
  | 1 => accept [(7, decide (w / 32768 % 8 < 6)), (7, decide (w / 4096 % 8 < 6)), (7, w / 256 % 16 / 2 != 3),
      (7, w / 16 % 16 / 2 != 3), (7, w % 16 / 2 != 3)] .hintMod
  | 2 => accept [(0, w / 4096 % 1024 == 0)] .hintDly
  | 3 => accept [] .hintPrf
  | _ => .error 6

/-- The instruction of a 32-bit word, or the FIELD code of its ILLEGAL trap (R243, R244, R250). -/
def decodeWord (w : Nat) : Except Nat Instr :=
  let d := w / 2 ^ 21 % 32
  let a := w / 2 ^ 16 % 32
  let b := w / 2 ^ 11 % 32
  let c := w / 2 ^ 6 % 32
  let f := w % 64
  let i16 := w % 2 ^ 16
  match w / 2 ^ 26 % 64 with
  | 0 => decSys d a b c f
  | 1 => decAlu d a b c f
  | 2 => accept [] (.addi d a i16)
  | 3 => accept [] (.andi d a i16)
  | 4 => accept [] (.ori d a i16)
  | 5 => accept [] (.xori d a i16)
  | 6 => decShi d a b c f
  | 7 => accept [(3, a == 0)] (.movi d i16)
  | 8 => accept [] (.movk d a i16)
  | 9 => accept [] (.slti d a i16)
  | 10 => accept [] (.ld d a (AccKind.ofCode (w / 2 ^ 13 % 8)) (w / 2 ^ 11 % 4) (w / 2 ^ 10 % 2 == 1) (w % 2 ^ 10))
  | 11 => accept [(5, w / 2 ^ 10 % 2 == 0)] (.st d a (AccKind.ofCode (w / 2 ^ 13 % 8)) (w / 2 ^ 11 % 4) (w % 2 ^ 10))
  | 12 => decAmo d a b c f
  | 13 => decBr (w / 2 ^ 22 % 16) (w / 2 ^ 17 % 32) (w / 2 ^ 12 % 32) (w % 2 ^ 12)
  | 14 => accept [] (.j (w % 2 ^ 26))
  | 15 => accept [] (.jal (w % 2 ^ 26))
  | 16 => decJmpr d a b c f
  | 17 => accept [(3, a == 0)] (.loop d i16)
  | 18 => accept [(3, a == 0)] (.csrr d i16)
  | 19 => accept [] (.csrw d a i16)
  | 20 => accept [] (.csrs d a i16)
  | 21 => accept [] (.csrc d a i16)
  | 22 => decSync d a b c f
  | 23 => decTask d a b c f
  | 24 => decMsg d a b c f
  | 25 => decEng d a b c f
  | 26 => accept [] (.vld d a b (AccKind.ofCode (w / 2 ^ 8 % 8)) (w % 2 ^ 8))
  | 27 => accept [] (.vst d a b (AccKind.ofCode (w / 2 ^ 8 % 8)) (w % 2 ^ 8))
  | 28 => decValu d a b c f
  | 29 => decVcmp d a b c f
  | 30 => decVcvt d a b c f
  | 31 => decVsfu d a b c f
  | 32 => decVred d a b c f
  | 33 => decStrm d a b c f
  | 34 => accept [] (.ild d a b (AccKind.ofCode (w / 2 ^ 8 % 8)) (w % 2 ^ 8))
  | 35 => accept [] (.ist d a b (AccKind.ofCode (w / 2 ^ 8 % 8)) (w % 2 ^ 8))
  | 36 => decIar d a b c f
  | 37 => decIct d a b c f
  | 38 => decIpr d a b c f
  | 39 => decMtx d a b c f
  | 40 => decView d a b c f
  | 41 => decHnd d a b c f
  | 42 => decFmt d a b c f
  | 43 => decVmem d a b c f
  | 63 => decHint (w / 2 ^ 22 % 16) w
  | _ => .error 1

/-- The word with a legal value in the bits of a FIELD (R409): the target of its hints, for R418, when that field is reserved. -/
def mendField (w f : Nat) : Nat :=
  let op := w / 2 ^ 26 % 64
  let put (lo n v : Nat) : Nat := w - w / 2 ^ lo % 2 ^ n * 2 ^ lo + v * 2 ^ lo
  if op = 63 then put 0 22 0
  else if f = 2 then put 21 5 0
  else if f = 3 then put 16 5 0
  else if f = 4 then (if op = 13 then put 12 5 0 else put 11 5 (if op = 34 ∨ op = 35 then 26 else 0))
  else if f = 5 then put 6 5 (if op = 30 ∧ w % 64 = 2 then 24 else 0)
  else w

/-- The instruction that a word names by OP and function although fields of it are reserved. -/
def nearest : Nat → Nat → Option Instr
  | 0, _ => none
  | n + 1, w => match decodeWord w with
    | .ok i => some i
    | .error f => if f = 1 ∨ f = 6 then none else nearest n (mendField w f)

/-- The instruction at the head of a list of bytes, lowest address first (R3, R243); none when fewer than four are left or
the word is refused. -/
def decodeBytes : List Byte → Option Instr
  | b0 :: b1 :: b2 :: b3 :: _ => (decodeWord (natOf [b0, b1, b2, b3])).toOption
  | _ => none

/-- The host's question: the instruction that the decoder reads from a table row's bits, laid out as memory holds them. -/
def decodeTableWord (nbits w : Nat) : Option Instr :=
  if nbits ≤ 32 then decodeBytes (bytesOf 4 w) else none

/-- A word of format A (R244). -/
def fA (op d a b c f : Nat) : Nat := op * 67108864 + d * 2097152 + a * 65536 + b * 2048 + c * 64 + f

/-- A word of format I (R244). -/
def fI (op d a imm : Nat) : Nat := op * 67108864 + d * 2097152 + a * 65536 + imm

/-- A word of format M (R244). -/
def fM (op d a sp sz sg off : Nat) : Nat := op * 67108864 + d * 2097152 + a * 65536 + sp * 8192 + sz * 2048 + sg * 1024 + off

/-- A word of format VM (R244). -/
def fVM (op d a fs sp off : Nat) : Nat := op * 67108864 + d * 2097152 + a * 65536 + fs * 2048 + sp * 256 + off

/-- A word of format B, OP 0x0D (R244, R249). -/
def fB (cnd a b off : Nat) : Nat := 13 * 67108864 + cnd * 4194304 + a * 131072 + b * 4096 + off

/-- A word of format J (R244). -/
def fJ (op off : Nat) : Nat := op * 67108864 + off

/-- A word of format H, OP 0x3F (R244, R252). -/
def fH (k pay : Nat) : Nat := 63 * 67108864 + k * 4194304 + pay

/-- The word of an instruction, from the same tables (R244, R250 to R257), with a zero payload where State.ir holds it. A step
without an encoding gives 0. -/
def encode : Instr → Nat
  | .start a b n keep => fA 0 0 a b (n * 2 + keep.toNat) 2
  | .joinh n => fA 0 0 0 0 (n * 2) 3
  | .wfi d a => fA 0 d a 0 0 8
  | .pgate d a => fA 0 d a 0 0 9
  | .cstop a b => fA 0 0 a b 0 10
  | .cresume a b => fA 0 0 a b 0 11
  | .launch a => fA 0 0 a 0 0 12
  | .qpost a => fA 0 0 a 0 0 13
  | .tlbinvAsid b => fA 0 0 0 b 0 14
  | .tlbinvPage a b => fA 0 0 a b 1 14
  | .add d a b => fA 1 d a b 0 0
  | .sub d a b => fA 1 d a b 0 1
  | .and d a b => fA 1 d a b 0 2
  | .or d a b => fA 1 d a b 0 3
  | .xor d a b => fA 1 d a b 0 4
  | .shl d a b => fA 1 d a b 0 5
  | .shr d a b => fA 1 d a b 0 6
  | .sra d a b => fA 1 d a b 0 7
  | .mul d a b => fA 1 d a b 0 8
  | .mulh d a b => fA 1 d a b 0 9
  | .mulhu d a b => fA 1 d a b 0 10
  | .div d a b => fA 1 d a b 0 11
  | .divu d a b => fA 1 d a b 0 12
  | .rem d a b => fA 1 d a b 0 13
  | .remu d a b => fA 1 d a b 0 14
  | .min d a b => fA 1 d a b 0 15
  | .max d a b => fA 1 d a b 0 16
  | .minu d a b => fA 1 d a b 0 17
  | .maxu d a b => fA 1 d a b 0 18
  | .slt d a b => fA 1 d a b 0 19
  | .sltu d a b => fA 1 d a b 0 20
  | .seq d a b => fA 1 d a b 0 21
  | .sel d a b c => fA 1 d a b c 22
  | .clz d a => fA 1 d a 0 0 23
  | .ctz d a => fA 1 d a 0 0 24
  | .popc d a => fA 1 d a 0 0 25
  | .addw d a b => fA 1 d a b 0 26
  | .subw d a b => fA 1 d a b 0 27
  | .mkpa d a b => fA 1 d a b 0 28
  | .mkpaRel d a b => fA 1 d a b 1 28
  | .addi d a imm => fI 2 d a imm
  | .andi d a imm => fI 3 d a imm
  | .ori d a imm => fI 4 d a imm
  | .xori d a imm => fI 5 d a imm
  | .shli d a n n5 => fA 6 d a 0 n n5
  | .shri d a n n5 => fA 6 d a 0 n (2 + n5)
  | .srai d a n n5 => fA 6 d a 0 n (4 + n5)
  | .movi d imm => fI 7 d 0 imm
  | .movk d pos imm => fI 8 d pos imm
  | .slti d a imm => fI 9 d a imm
  | .ld d a k sz sg off => fM 10 d a k.code sz sg.toNat off
  | .st d a k sz off => fM 11 d a k.code sz 0 off
  | .aadd d a b ord scope anch => fA 12 d a b (ord * 8 + scope) (anch.toNat * 32)
  | .aand d a b ord scope anch => fA 12 d a b (ord * 8 + scope) (1 + anch.toNat * 32)
  | .aor d a b ord scope anch => fA 12 d a b (ord * 8 + scope) (2 + anch.toNat * 32)
  | .axor d a b ord scope anch => fA 12 d a b (ord * 8 + scope) (3 + anch.toNat * 32)
  | .amin d a b ord scope anch => fA 12 d a b (ord * 8 + scope) (4 + anch.toNat * 32)
  | .amax d a b ord scope anch => fA 12 d a b (ord * 8 + scope) (5 + anch.toNat * 32)
  | .aminu d a b ord scope anch => fA 12 d a b (ord * 8 + scope) (6 + anch.toNat * 32)
  | .amaxu d a b ord scope anch => fA 12 d a b (ord * 8 + scope) (7 + anch.toNat * 32)
  | .aswp d a b ord scope anch => fA 12 d a b (ord * 8 + scope) (8 + anch.toNat * 32)
  | .acas d a b ord scope anch => fA 12 d a b (ord * 8 + scope) (9 + anch.toNat * 32)
  | .ainc d a ord scope anch => fA 12 d a 0 (ord * 8 + scope) (10 + anch.toNat * 32)
  | .afadd d a b ord scope anch => fA 12 d a b (ord * 8 + scope) (11 + anch.toNat * 32)
  | .beq a b off => fB 0 a b off
  | .bne a b off => fB 1 a b off
  | .blt a b off => fB 2 a b off
  | .bge a b off => fB 3 a b off
  | .bltu a b off => fB 4 a b off
  | .bgeu a b off => fB 5 a b off
  | .bz a off => fB 6 a 0 off
  | .bnz a off => fB 7 a 0 off
  | .j off => fJ 14 off
  | .jal off => fJ 15 off
  | .jr a => fA 16 0 a 0 0 0
  | .jalr d a => fA 16 d a 0 0 1
  | .loop d imm => fI 17 d 0 imm
  | .csrr d csr => fI 18 d 0 csr
  | .csrw d a csr => fI 19 d a csr
  | .csrs d a csr => fI 20 d a csr
  | .csrc d a csr => fI 21 d a csr
  | .fenceX a b => fA 22 0 a b 0 1
  | .phase b ex => fA 22 0 0 b (ex.toNat * 16) 2
  | .parrive b ex => fA 22 0 0 b (ex.toNat * 16) 3
  | .bdom a => fA 22 0 a 0 0 5
  | .bexp a b => fA 22 0 a b 0 6
  | .mon d a b n => fA 22 d a b n 7
  | .mwait d => fA 22 d 0 0 0 8
  | .waitt a => fA 22 0 a 0 0 9
  | .ewait a => fA 22 0 a 0 0 10
  | .xbegin b ex => fA 22 0 0 b (ex.toNat * 16) 12
  | .preduce a b ex ty op => fA 22 0 a b (ex.toNat * 16 + ty * 4 + op) 14
  | .tpost a b => fA 23 0 a b 0 0
  | .tpostC a b => fA 23 0 a b 1 0
  | .tsteal d a b => fA 23 d a b 0 1
  | .tjoin a b => fA 23 0 a b 0 3
  | .twait d a => fA 23 d a 0 0 5
  | .pcall a => fA 23 0 a 0 0 6
  | .qinfo d a b => fA 23 d a b 0 7
  | .send d a => fA 24 d a 0 0 0
  | .sende d a => fA 24 d a 0 0 1
  | .recv d => fA 24 d 0 0 0 2
  | .rpeek d => fA 24 d 0 0 0 3
  | .gpost a => fA 25 0 a 0 0 0
  | .msend a b => fA 25 0 a b 0 1
  | .mcap d a => fA 25 d a 0 0 2
  | .vld d a fs k off => fVM 26 d a fs k.code off
  | .vst d a fs k off => fVM 27 d a fs k.code off
  | .vadd d a b => fA 28 d a b 0 0
  | .vsub d a b => fA 28 d a b 0 1
  | .vmul d a b => fA 28 d a b 0 2
  | .vfma d a b c => fA 28 d a b c 3
  | .vfms d a b c => fA 28 d a b c 4
  | .vmin d a b => fA 28 d a b 0 5
  | .vmax d a b => fA 28 d a b 0 6
  | .vminp d a b => fA 28 d a b 0 7
  | .vmaxp d a b => fA 28 d a b 0 8
  | .vabs d a => fA 28 d a 0 0 9
  | .vneg d a => fA 28 d a 0 0 10
  | .vand d a b => fA 28 d a b 0 11
  | .vor d a b => fA 28 d a b 0 12
  | .vxor d a b => fA 28 d a b 0 13
  | .vnot d a => fA 28 d a 0 0 14
  | .vshl d a b => fA 28 d a b 0 15
  | .vshr d a b => fA 28 d a b 0 16
  | .vsra d a b => fA 28 d a b 0 17
  | .vadds d a b => fA 28 d a b 0 18
  | .vsubs d a b => fA 28 d a b 0 19
  | .vmov d a => fA 28 d a 0 0 20
  | .vcmpeq d a b => fA 29 d a b 0 0
  | .vcmplt d a b => fA 29 d a b 0 1
  | .vcmple d a b => fA 29 d a b 0 2
  | .vcmpne d a b => fA 29 d a b 0 3
  | .vsel d a b c => fA 29 d a b c 4
  | .vperm d a b => fA 29 d a b 0 5
  | .vslide d a b c => fA 29 d a b c 6
  | .vzip d a b h => fA 29 d a b h.toNat 7
  | .vunzip d a b h => fA 29 d a b h.toNat 8
  | .pand d a b => fA 29 d a b 0 9
  | .por d a b => fA 29 d a b 0 10
  | .pnot d a => fA 29 d a 0 0 11
  | .pcnt d a => fA 29 d a 0 0 12
  | .vcvt d a p c => fA 30 d a p c 0
  | .vquant d a c => fA 30 d a 0 c 1
  | .vdeq d a p c => fA 30 d a p c 2
  | .vretag d a b ireg => fA 30 d a b ireg.toNat 3
  | .vtagr d a ireg => fA 30 d a 0 ireg.toNat 4
  | .vscale d a b => fA 30 d a b 0 5
  | .vpack d a b => fA 30 d a b 0 6
  | .vunpk d a h c => fA 30 d a h.toNat c 7
  | .vexp2 d a b c => fA 31 d a b c 0
  | .vlog2 d a => fA 31 d a 0 0 1
  | .vrcp d a => fA 31 d a 0 0 2
  | .vrsqrt d a => fA 31 d a 0 0 3
  | .vsqrt d a => fA 31 d a 0 0 4
  | .vdiv d a b => fA 31 d a b 0 5
  | .vtanh d a => fA 31 d a 0 0 6
  | .vsigm d a => fA 31 d a 0 0 7
  | .vrsum d a => fA 32 d a 0 0 0
  | .vrmax d a => fA 32 d a 0 0 1
  | .vrmin d a => fA 32 d a 0 0 2
  | .vbcast d a c => fA 32 d a 0 c 3
  | .vmovx d a b => fA 32 d a b 0 4
  | .vins d a b => fA 32 d a b 0 5
  | .vrsump d a => fA 32 d a 0 0 6
  | .sbind d a => fA 33 d a 0 0 0
  | .sfree d => fA 33 d 0 0 0 1
  | .sstat d a => fA 33 d a 0 0 2
  | .ild d a fs k off => fVM 34 d a fs k.code off
  | .ist d a fs k off => fVM 35 d a fs k.code off
  | .iadd d a b => fA 36 d a b 0 0
  | .isub d a b => fA 36 d a b 0 1
  | .imul d a b => fA 36 d a b 0 2
  | .idiv d a b => fA 36 d a b 0 3
  | .isqr d a => fA 36 d a 0 0 4
  | .isqrt d a => fA 36 d a 0 0 5
  | .iexp2 d a => fA 36 d a 0 0 6
  | .ilog2 d a => fA 36 d a 0 0 7
  | .imin d a b => fA 36 d a b 0 8
  | .imax d a b => fA 36 d a b 0 9
  | .irelu d a => fA 36 d a 0 0 10
  | .ineg d a => fA 36 d a 0 0 11
  | .iabs d a => fA 36 d a 0 0 12
  | .ifma d a b c => fA 36 d a b c 13
  | .iscale d a b => fA 36 d a b 0 14
  | .cadd d a b => fA 37 d a b 0 0
  | .csub d a b => fA 37 d a b 0 1
  | .cmul d a b => fA 37 d a b 0 2
  | .cdiv d a b => fA 37 d a b 0 3
  | .csqr d a => fA 37 d a 0 0 4
  | .csqrt d a => fA 37 d a 0 0 5
  | .cexp2 d a => fA 37 d a 0 0 6
  | .cmax d a b => fA 37 d a b 0 7
  | .cmin d a b => fA 37 d a b 0 8
  | .crelu d a => fA 37 d a 0 0 9
  | .cabs d a => fA 37 d a 0 0 10
  | .ihull d a b => fA 38 d a b 0 0
  | .imeet d a b => fA 38 d a b 0 1
  | .isplit d a b => fA 38 d a b 0 2
  | .imid d a h => fA 38 d a 0 h.toNat 3
  | .irad d a h => fA 38 d a 0 h.toNat 4
  | .iwid d a h => fA 38 d a 0 h.toNat 5
  | .imk d a b h => fA 38 d a b h.toNat 6
  | .ilo d a h => fA 38 d a 0 h.toNat 7
  | .ihi d a h => fA 38 d a 0 h.toNat 8
  | .iempty d w => fA 38 d 0 0 w.toNat 9
  | .iclt d a b => fA 38 d a b 0 10
  | .icle d a b => fA 38 d a b 0 11
  | .iceq d a b => fA 38 d a b 0 12
  | .isubset d a b => fA 38 d a b 0 13
  | .idisj d a b => fA 38 d a b 0 14
  | .iisemp d a => fA 38 d a 0 0 15
  | .qand d a b => fA 38 d a b 0 16
  | .qor d a b => fA 38 d a b 0 17
  | .qnot d a => fA 38 d a 0 0 18
  | .qall d a h => fA 38 d a 0 h.toNat 19
  | .qany d a h => fA 38 d a 0 h.toNat 20
  | .qsel d a b c => fA 38 d a b c 21
  | .iprog d => fA 38 d 0 0 0 22
  | .mma d a b sq => fA 39 d a b sq 0
  | .mmaiv d a b sq => fA 39 d a b sq 1
  | .mma64 d a b c => fA 39 d a b c 2
  | .mldw d a b n => fA 39 d a b n 3
  | .mzero d w => fA 39 d 0 0 w.toNat 4
  | .mdrain d a b r => fA 39 d a b r 5
  | .msync l => fA 39 0 0 0 l.toNat 6
  | .mstat d a l => fA 39 d a 0 l.toNat 7
  | .vwreg d a => fA 40 d a 0 0 0
  | .vwdel a => fA 40 0 a 0 0 1
  | .vwsync a => fA 40 0 a 0 0 2
  | .vwpol a b => fA 40 0 a b 0 3
  | .vwstat d a => fA 40 d a 0 0 4
  | .vwkick a => fA 40 0 a 0 0 5
  | .hld d a => fA 41 d a 0 0 0
  | .hqry d a b => fA 41 d a b 0 1
  | .hclr d => fA 41 d 0 0 0 2
  | .fmtset d a => fA 42 d a 0 0 0
  | .fmtget d a => fA 42 d a 0 0 1
  | .vlds d a b c => fA 43 d a b c 0
  | .vsts d a b m => fA 43 d a b m.toNat 1
  | .vldm d a b n => fA 43 d a b n 2
  | .vstm d a b n => fA 43 d a b n 3
  | .vldi d a b c => fA 43 d a b c 4
  | .vsti d a b c => fA 43 d a b c 5
  | .nop => fA 0 0 0 0 0 0
  | .halt => fA 0 0 0 0 0 1
  | .yield => fA 0 0 0 0 0 4
  | .trap => fA 0 0 0 0 0 5
  | .scall => fA 0 0 0 0 0 6
  | .eret => fA 0 0 0 0 0 7
  | .tlbinvAll => fA 0 0 0 0 2 14
  | .brk => fA 0 0 0 0 0 15
  | .ret => fA 16 0 0 0 0 2
  | .fenceO => fA 22 0 0 0 0 0
  | .pwait => fA 22 0 0 0 0 4
  | .snapinv => fA 22 0 0 0 0 11
  | .xend => fA 22 0 0 0 0 13
  | .tret => fA 23 0 0 0 0 2
  | .tleave => fA 23 0 0 0 0 4
  | .hintImm => fH 0 0
  | .hintMod => fH 1 0
  | .hintDly => fH 2 0
  | .hintPrf => fH 3 0
  | .asyncTrapTake => 0
  | .delayExpiry => 0
  | .yieldEnd => 0
  | .cpGo => 0
  | .copyComplete => 0
  | .promiseMissed => 0
  | .gatherDescriptorRun => 0
  | .matrixCommandRun => 0
  | .downFifoRecordTake => 0
  | .msendRecordArrival => 0
  | .sfuResult => 0
  | .tlbWalkEnd => 0
  | .accessAtOrderingPoint => 0
  | .loadValueReturn => 0
  | .storeAck => 0
  | .feTimeout => 0
  | .streamReadAhead => 0
  | .mwaitTimeout => 0
  | .waittExpiry => 0
  | .twaitTimeout => 0
  | .wfiTimeout => 0
  | .linkValueArrival => 0
  | .fifoEntryVisible => 0
  | .routedWordArrival => 0
  | .scheduleLimit => 0
  | .coreArrival => 0
  | .barrierRelease => 0
  | .systemBarrierRelease => 0
  | .barrierTimeout => 0
  | .tpostArrival => 0
  | .counterReport => 0
  | .watchReread => 0
  | .taskUrgentDue => 0
  | .tstealArrival => 0
  | .tstealAnswerArrival => 0
  | .offerArrival => 0
  | .tjoinArrival => 0
  | .tleaveArrival => 0
  | .qinfoArrival => 0
  | .tretArrival => 0
  | .tretAnswerArrival => 0
  | .pierJobEnd => 0
  | .pcallAccept => 0
  | .pcallAcceptNews => 0
  | .refreshDue => 0
  | .governorSample => 0
  | .dirtyNotice => 0
  | .viewBlockRefresh => 0
  | .computeCommandTake => 0
  | .placementWaitExpiry => 0
  | .copyJobTake => 0
  | .inMemoryJobTake => 0
  | .commandAging => 0
  | .startCapture => 0
  | .stopCapture => 0
  | .launchCompletion => 0
  | .clusterGate => 0
  | .packIdleGate => 0
  | .clusterWakeDone => 0
  | .wakeFailure => 0
  | .cstopRequestArrival => 0
  | .contextStop => 0
  | .stopAckArrival => 0
  | .packetStopLimit => 0
  | .coreSave => 0
  | .coreRestore => 0
  | .preciseStopArm => 0
  | .preciseStopLift => 0
  | .replayControlWrite => 0
  | .capabilityEpochAdvance => 0
  | .pierQuiesceWrite => 0
  | .rowRepair => 0
  | .startGoodWrite => 0
  | .controlWordWrite => 0
  | .attestationSign => 0
  | .powerOnReset => 0
  | .warmReset => 0
  | .bootStart => 0
  | .startWatchdog => 0
  | .recoveryImageMessage => 0
  | .hostRingHeadWrite => 0
  | .hostRingTailWrite => 0
  | .peerRequestArrival => 0
  | .peerTimeout => 0
  | .flitCrcFail => 0
  | .uncorrectableError => 0
  | .commandBlockArrival => 0
  | .commandQueuedNews => 0
  | .viewRequestArrival => 0
  | .viewAnswerArrival => 0
  | .msendAnswerArrival => 0
  | .counterReadAnswer => 0
  | .coreSaveDone => 0
  | .rowRepairDone => 0
  | .stagingRegionWrite => 0
  | .debugHaltBegin => 0
  | .debugHaltEnd => 0

end Sys2Proof
end

