-- ==== Sys2Proof/Machine/State.lean ====
section
/-! DEFINITION. The state of the module as plain data: contexts, cores, clusters, homes, pylons, launches, and one memory.
The registers x, p, q, s, h, v, i and their tags are bytes of the pool windows (R79, R80), so memory is their one home. -/

namespace Sys2Proof.Machine

/-- A table from keys to values; a key that stands nowhere has the table's default. -/
abbrev Tab (κ α : Type) := List (κ × α)

/-- The three privilege levels (R9). -/
inductive Level where
  | u | s | h
  deriving DecidableEq, Repr

/-- The context states of R77. -/
inductive CtxSt where
  | free | ready | waiting | stopped
  deriving DecidableEq, Repr

/-- What a waiting context waits for (R77). -/
inductive Wait where
  /-- Not waiting. -/
  | none
  /-- Its next word reads a register whose value is not complete (R395): class and number. -/
  | operands (cls reg : Nat)
  /-- A page-table walk of the access of its word (R422). -/
  | walk
  /-- The stores of a store boundary, performed one by one (R166). -/
  | stores
  /-- HALT of context 0, until the helpers are free (R284). -/
  | halt
  /-- JOINH of helper n (R283). -/
  | joinh (n : Nat)
  /-- HINT.DLY (R256). -/
  | delay
  /-- YIELD (R285). -/
  | yield
  /-- PHASE, XBEGIN and PREDUCE, until the release of the domain's barrier (R356, R359, R360). -/
  | barrier (dom : Nat) (timed : Bool)
  /-- PWAIT (R356). -/
  | pwait
  /-- RECV with the queue empty (R373). -/
  | recv
  /-- SEND or SENDE while the path to a core cannot accept a word (R100). -/
  | send (dst : CoreId)
  /-- MWAIT (R182). -/
  | mwait
  /-- WAITT until cyc reaches a value (R362). -/
  | waitt (t : Nat)
  /-- EWAIT on an event line (R363). -/
  | ewait (line : Nat)
  /-- TWAIT (R368). -/
  | twait
  /-- WFI (R286). -/
  | wfi
  /-- TSTEAL until its answer (R366). -/
  | tsteal
  /-- TRET until its slot is freed (R367). -/
  | tret
  /-- PCALL until the news of its acceptance (R369). -/
  | pcall
  /-- A full queue of the matrix unit, or of the gather engine (R374, R376). -/
  | queue (matrix : Bool)
  /-- The context's request to the special-function unit (R281, R323). -/
  | sfu
  /-- Accesses and matrix commands with these numbers (R81, R122, R148, R169). -/
  | accesses (ids : List Nat)
  /-- MSEND until its answer (R385). -/
  | msend
  /-- MSYNC until the matrix commands with these numbers have ended (R383). -/
  | msync (cmds : List Nat)
  /-- A VIEW instruction until its answer (R389). -/
  | view
  /-- FENCE.X, CSTOP or CRESUME until its acknowledgement (R465). -/
  | ack
  /-- LAUNCH or QPOST until news that the command is queued (R467). -/
  | command
  /-- An empty vertical FIFO, or a full one for a push (R102). -/
  | link (push : Bool)
  /-- The boot ROM waits for a recovery image, or for the end of a start that failed (R232, R233). -/
  | rom
  deriving DecidableEq, Repr

/-- What a step concerns that has no encoding: the context or core, numbers, and a peer's operation. -/
structure Arg where
  ctx : CtxId := ⟨⟨.service, 0, 0, 0⟩, 0⟩
  ns : List Nat := []
  op : PeerOp := .load
  deriving DecidableEq, Repr

/-- One choice of the interleaving, or one act of an outside party: a word of a context, or a step without encoding. -/
inductive Move where
  | issue (c : CtxId)
  | event (i : Instr) (a : Arg)
  /-- The snapshot cache of a cluster takes a line as it stands at its home (R153). -/
  | fill (cluster line : Nat)
  /-- A home corrects a single-bit soft error, which shows only in its count (R429, R430). -/
  | correct (home : Nat)
  deriving DecidableEq, Repr

/-- The footprint of an engine command (R172): ranges that it reads and writes, as first byte and length. -/
structure Foot where
  rd : List (Nat × Nat) := []
  wr : List (Nat × Nat) := []
  deriving DecidableEq, Repr

/-- A link value or FIFO entry: 1024 bits and a tag (R95, R102), the cycle from which it is visible, and for a command record the
context that pushed it with the accesses that are performed first and the engine commands before it (R172, R400). -/
structure LinkVal where
  val : BitVec 1024 := 0
  tag : BitVec 16 := 0
  at_ : Nat := 0
  after : List Nat := []
  via : Option CtxId := none
  behind : List Nat := []
  id : Nat := 0
  foot : Foot := {}
  deriving DecidableEq, Repr

/-- A pending asynchronous record (R424), or the parts of a trap record (R409). -/
structure Trap where
  cause : Nat
  detail : Nat := 0
  field : Nat := 0
  val : Nat := 0
  code : Nat := 0
  prog : Nat := 0
  /-- INSN when it is not the word in issue. -/
  insn : Option Nat := none
  /-- Floating-point flags that are ORed into fcsr all the same (R420). -/
  flags : Nat := 0
  async : Bool := false
  deriving DecidableEq, Repr

/-- One trap record (R409): of the level S, or of the hypervisor. -/
structure TrapRec where
  cause : Word := 0
  epc : Word := 0
  val : Word := 0
  info : Word := 0
  vec : Word := 0
  stat : Word := 0
  scr : Word := 0
  deriving DecidableEq, Repr

/-- A watch entry of a context (R181). -/
structure Watch where
  armed : Bool := false
  key : Nat := 0
  va : Nat := 0
  deadline : Nat := 0
  fired : Bool := false
  expired : Bool := false
  /-- Evicted from the cluster's table (R182). -/
  evicted : Bool := false
  /-- It fired on a copy's stamp, so that the wake-up passes a snapshot boundary (R177, R398). -/
  mark : Bool := false
  deriving DecidableEq, Repr

/-- A doubleword of the publish buffer or of a loan's buffer: location, bytes, mask of the bytes written (R163, R122), and mask of
those that another agent has stored to since (R161). -/
structure Held where
  key : Nat
  val : Nat := 0
  mask : Nat := 0
  lost : Nat := 0
  /-- Mask of the bytes that a later store of the context, held or performed elsewhere, stands for (R161). -/
  later : Nat := 0
  va : Nat := 0
  deriving DecidableEq, Repr

/-- An open packet (R100): destination, words, and in how many handlers its context stood when it was opened, or less where a word
was added outside one (R452). -/
structure Packet where
  dst : CoreId
  words : List Nat := []
  depth : Nat := 0
  deriving DecidableEq, Repr

/-- The granted task a context runs (R119): the range as granted, and the loan's buffer. -/
structure Grant where
  home : Nat
  queue : Nat
  seq : Nat
  va : Nat
  pa : Nat
  len8 : Nat
  snap : Bool
  buf : List Held := []
  deriving DecidableEq, Repr

/-- A register whose value is not complete: class 1 x, 2 v, 3 i; until a cycle, or until a step names it done. -/
structure Pend where
  cls : Nat
  reg : Nat
  until_ : Nat := 0
  tagId : Nat := 0
  deriving DecidableEq, Repr

/-- A request to the special-function unit (R220, R323): the results are fixed at issue, and written by its completion. -/
structure SfuReq where
  id : Nat
  ctx : CtxId
  /-- Results: class 2 v, 3 i, 5 a direction code; the number; value; tag. -/
  outs : List (Nat × Nat × BitVec 1024 × BitVec 16)
  /-- Flags for `fcsr`, bits that join `iflag`, and PMASK of a contractor. -/
  flags : Nat := 0
  ior : Nat := 0
  pmask : Option Nat := none
  /-- Cycles that it occupies the unit, and latency (R321, R323, R334). -/
  occ : Nat := 2
  lat : Nat := 0
  word : Nat := 0
  /-- Cycles in which it entered the queue, in which the unit begins it, and in which its results are written (R220). -/
  enter : Nat := 0
  start : Nat := 0
  due : Nat := 0
  deriving DecidableEq, Repr

/-- A context (R74 to R82): its state, the CSRs that belong to it, and what it has under way. -/
structure Ctx where
  st : CtxSt := .free
  wait : Wait := .none
  /-- The state a stopped context returns to is waiting (R224). -/
  wasWaiting : Bool := false
  pc : Word := 0
  level : Level := .u
  asid : BitVec 16 := 0
  /-- Pending hint chain (R252): payloads and the address of its first word. -/
  chainImm : Option Nat := none
  chainMod : Option Nat := none
  chainPc : Option Word := none
  parent : Nat := 15
  fcsr : Word := 0
  iflag : Word := 0
  vstale : Word := 0
  ctlmode : Word := 0
  vsel : Word := 0
  tsk : Word := 0
  tgrp : Word := 0
  imb0 : Word := 0
  imb1 : Word := 0
  imb2 : Word := 0
  imb3 : Word := 0
  trapS : TrapRec := {}
  trapH : TrapRec := {}
  /-- Copy shadow set: CSR number to value (R173). -/
  cp : Tab Nat Word := []
  cpId : BitVec 16 := 0
  cpDue : Word := 0
  watch0 : Watch := {}
  watch1 : Watch := {}
  watch2 : Watch := {}
  watch3 : Watch := {}
  /-- The publish buffer (R163). -/
  publish : List Held := []
  /-- Bytes that snapshot loads have returned since the last snapshot boundary (R153). -/
  snap : List Host.Cell := []
  /-- Cycle of the last snapshot boundary (R153). -/
  snapAt : Nat := 0
  pkt : Option Packet := none
  /-- Words of a packet that a stop cancelled (R222), still to be sent. -/
  resend : Option Packet := none
  /-- The stop that waits for its packet's end has waited long enough, and cancels it (R453). -/
  pktCut : Bool := false
  /-- A matrix command of it was running when the last stop request reached it (R223, R408). -/
  cmdRan : Bool := false
  /-- Domain of an outstanding PARRIVE, and whether its barrier has been released (R356). -/
  parrive : Option (Nat × Bool) := none
  /-- The domain of a barrier that was withdrawn from under a PWAIT, whose word arrives afresh (R455). -/
  again : Option Nat := none
  /-- Domain and first schedule cycle of timed exchange (R94). -/
  timed : Option (Nat × Nat) := none
  /-- Earliest cycle of the next issue (R81, R256, R462). -/
  notBefore : Nat := 0
  /-- Cycle in which it last became ready. -/
  since : Nat := 0
  /-- What it waits for holds, so that it is ready to issue its word again (R77). -/
  due : Bool := false
  pend : List Pend := []
  /-- Pending asynchronous records, at most four (R424). -/
  async : List Trap := []
  grant : Option Grant := none
  /-- Cycles at which pending stop requests reached it (R221). -/
  stops : List Nat := []
  /-- Steps held while it is stopped (R222). -/
  held : List (Instr × Arg) := []
  /-- Notices of WFI: a status doubleword was written, the host's head index changed, a spurious cause (R286). -/
  wfiCst : Bool := false
  wfiMsg : Bool := false
  spurious : Bool := false
  /-- Its timeout has expired, for a WFI whose result goes to a link (R286). -/
  wfiTmo : Bool := false
  /-- Contexts that a YIELD still lets issue (R285). -/
  yieldTo : List Nat := []
  /-- Special-function requests withdrawn, and the level that a trap withdrew them from (R421). -/
  sfuHeld : List (SfuReq × Option Level) := []
  halted : Bool := false
  /-- Number of the wait it is in: a step that would end an earlier wait finds another number. -/
  waitNo : Nat := 0
  /-- The model's own: traps it has taken. -/
  traps : Nat := 0
  /-- The word of the wait (R225). -/
  waitIr : BitVec 32 := 0
  /-- Stream read-ahead: stream number and elements (R151). -/
  ahead : Tab Nat (List Nat) := []
  /-- The register that VLDM or VSTM at pc goes on with (R414, R419). -/
  resumeAt : Nat := 0
  /-- The cause that a walk for its word ended in. -/
  walked : Option Trap := none
  /-- EWAIT of it has been completed by a raise (R180). -/
  raised : Bool := false
  /-- MSYNC waits for the matrix commands with numbers below this (R383). -/
  syncTo : Option Nat := none
  deriving DecidableEq, Repr

/-- A matrix command (R376): word, x value, captured handles and descriptors, first K-block still to run. -/
structure MCmd where
  id : Nat
  word : Nat
  xv : Nat := 0
  h0 : List Nat := []
  h1 : List Nat := []
  fds : List Nat := []
  kb : Nat := 0
  started : Bool := false
  /-- Its context; none for a record from nb.v or MSEND (R400). -/
  src : Option CtxId := none
  /-- The issuer of the MSEND that brought it, or the context that pushed it to nb.v, with which of the two it was. -/
  via : Option CtxId := none
  fifo : Bool := false
  asid : Nat := 0
  halted : Bool := false
  /-- Accesses that are performed first, and engine commands that end first (R172). -/
  after : List Nat := []
  behind : List Nat := []
  foot : Foot := {}
  /-- Its number among the engine commands of its issuer (R172). -/
  eid : Nat := 0
  /-- Ranges that the engine still has to read, which the issuer's stores wait for (R150): number of the read, location and bytes. -/
  holds : List (Nat × Nat × Nat) := []
  /-- Strips of the block that is added or written, and those read of the block after it, as codes and scale codes (R150, R377). -/
  work : Option (List (List Nat × List Nat)) := none
  got : List (List Nat × List Nat) := []
  /-- The cycle in which the part under way ends, the first in which the next block may begin, and whether its read waits for a view
  tag or for the end of the block (R377, R466). -/
  until_ : Nat := 0
  ready : Nat := 0
  waited : Bool := false
  deriving DecidableEq, Repr

/-- An entry of a receive queue (R101). -/
structure RxEntry where
  word : Nat
  src : CtxId
  first : Bool
  last : Bool
  deriving DecidableEq, Repr

/-- A core and its units (R10, R11, R16). -/
structure Core where
  /-- The launch whose part it runs; 0 for none. -/
  lid : Nat := 0
  pw : Nat := 0
  crn : Bool := false
  /-- Pool size in 64 KB units, and first unit (R213). -/
  fp : Nat := 4
  unit : Nat := 0
  fd : Tab Nat (BitVec 32) := []
  /-- Schedule length L and the five bitmaps (R97). -/
  schedLen : Nat := 0
  sched : Tab Nat Nat := []
  /-- Domains of which it is a member, bit d (R90). -/
  memb : BitVec 64 := 0
  bdom : Nat := 0
  sstep : Word := 0
  stage : Nat := 0
  stagePend : Bool := false
  stageNext : Nat := 0
  /-- Link registers by direction code 1 n, 2 e, 3 s, 4 w (R95). -/
  links : Tab Nat LinkVal := []
  down : List LinkVal := []
  up : List LinkVal := []
  /-- Results on their way to each FIFO that found it full, and go on with the next pop (R102, R255). -/
  downWait : List (Instr × Arg) := []
  upWait : List (Instr × Arg) := []
  /-- Lengths of the two FIFOs and their visible entries, down before up, before the first pop or push of a cycle (R103). -/
  fifoAt : Nat := 0
  fifoWas : List Nat := []
  /-- Cycle, and context whose word waits in it for the other cores, so that a pop is placed before its push (R102). -/
  pushLast : Option (Nat × Nat) := none
  rx : List RxEntry := []
  /-- Words waiting in the mesh for room in the queue (R101). -/
  rxWait : List RxEntry := []
  /-- Contexts asleep in RECV in the order of their issue (R373). -/
  recvOrder : List Nat := []
  mq : List MCmd := []
  /-- Tile summaries: tag in bits 15:0, NANIN 16, INV 17, OVF 18, TINY 19 (R383). -/
  tiles : Tab Nat (BitVec 20) := []
  crownTags : Tab Nat (BitVec 16) := []
  sfu : List SfuReq := []
  /-- First cycle in which the unit can begin another request. -/
  sfuFree : Nat := 0
  /-- Issue selection (R219). -/
  served : List Nat := []
  lastHelper : Nat := 0
  lastIssue : Option Nat := none
  zeroSince : Nat := 0
  deriving DecidableEq, Repr

/-- A translation that a TLB holds (R159). -/
structure Tlb where
  asid : Nat
  page : Nat
  big : Bool
  pa : Nat
  w : Bool
  x : Bool
  vsrc : Bool
  d : Bool
  deriving DecidableEq, Repr

/-- A copy that runs (R175): its pinned elements, as pieces of the source and of the destination, locations with their bytes. -/
structure CopyRun where
  ctx : CtxId
  id : Nat
  elems : List (List (Nat × Nat) × List (Nat × Nat))
  /-- Location of the stamp and its value; none without a stamp. -/
  stamp : Option (Nat × Nat)
  due : Nat
  /-- Its number among the module's engine commands, accesses that are performed first, and engine commands that end first (R172). -/
  eid : Nat := 0
  after : List Nat
  behind : List Nat := []
  foot : Foot
  /-- What its element has read and not yet written, bytes moved, and the cycle from which its elements move. -/
  got : Option Nat := none
  moved : Nat := 0
  from_ : Nat := 0
  /-- Number of the QPOST job it is part of, with its pylon. -/
  job : Option (Nat × Nat) := none
  deriving DecidableEq, Repr

/-- A gather descriptor in the queue (R178). -/
structure Gather where
  ctx : CtxId
  va : Nat
  desc : List Nat
  asid : Nat
  eid : Nat := 0
  after : List Nat
  behind : List Nat := []
  foot : Foot := {}
  /-- Once probed (R179): the moves that are left, as pieces in the table and in the packed array, the position of the first, and
  what it has read and not yet written. -/
  moves : Option (List (List (Nat × Nat) × List (Nat × Nat))) := none
  pos : Nat := 0
  got : Option Nat := none
  deriving DecidableEq, Repr

/-- A line of a snapshot cache (R153): its first location, its 64 bytes as they stood at their home in a cycle, and the
doublewords that carried a copy's mark (R398). -/
structure SnapLine where
  key : Nat
  bytes : BitVec 512
  at_ : Nat
  marks : List Nat := []
  deriving DecidableEq, Repr

/-- Power of a cluster (R216, R457). -/
inductive Power where
  | awake | gated | waking (began : Nat) | failed
  deriving DecidableEq, Repr

/-- A cluster (R12). -/
structure Cluster where
  ev : Tab Nat Nat := []
  evWait : List (Nat × CtxId) := []
  gq : List Gather := []
  copies : List CopyRun := []
  prevDue : Nat := 0
  copiesDone : Nat := 0
  rc : Nat := 16
  power : Power := .awake
  gateReq : Bool := false
  /-- One more than the cycle of its last gating, and of the last access while a gate was requested (R217). -/
  gatedAt : Nat := 0
  /-- That gating was on a request (R217). -/
  gateBy : Bool := false
  wakeAsk : Nat := 0
  freeSince : Nat := 0
  /-- Armed watch entries in order of arming, the least recent first (R182). -/
  watchOrder : List (CtxId × Nat) := []
  tlb : List Tlb := []
  /-- The snapshot cache (R153), the newest line first. -/
  snapLines : List SnapLine := []
  /-- The cycle in which a core save or restore began, while it is busy (R226). -/
  saving : Option Nat := none
  /-- The last core save copied its items, and what of them: pool bytes, the crown weight slice, those of the deck core's launch. -/
  copied : Bool := false
  copiedPool : Bool := false
  copiedCrown : Bool := false
  copiedDeck : Bool := false
  deriving DecidableEq, Repr

/-- State of a task at its home (R111, R124): its counters are being read, it is pending, ready, with the pier, or with a
stealer. -/
inductive TaskSt where
  | reading | pending | ready | near | far (c : CtxId)
  deriving DecidableEq, Repr

/-- A task (R106 to R109) at its home. -/
structure Task where
  seq : Nat
  lid : Nat
  asid : Nat
  poster : CtxId
  desc : List Nat
  pa : Nat
  donePa : Nat := 0
  /-- Physical address, threshold, met; for every used pair. -/
  deps : List (Nat × Nat × Bool) := []
  st : TaskSt := .reading
  /-- Counter reads whose answers are still to come. -/
  reads : Nat := 0
  reserve : Bool := false
  /-- It has become urgent, and it is counted in urgent_unoffered (R118). -/
  urgent : Bool := false
  counted : Bool := false
  deriving DecidableEq, Repr

/-- A member of a steal group (R116). -/
structure Member where
  ctx : CtxId
  outstanding : Bool := false
  deriving DecidableEq, Repr

/-- A task queue of a home (R110 to R129). -/
structure Queue where
  lid : Nat := 0
  share : Nat := 0
  worst : Nat := 0
  thr : Nat := 0
  lead : Nat := 0
  nextSeq : Nat := 0
  tasks : List Task := []
  ring : List Task := []
  members : List Member := []
  lastOffer : Option CtxId := none
  /-- Contexts that left while they run a task of it (R116). -/
  holders : List CtxId := []
  deriving DecidableEq, Repr

/-- A PCALL at a home (R139), or a granule of an in-memory job. -/
structure PCall where
  ctx : CtxId
  va : Nat
  pa : Nat
  len8 : Nat
  entry : Nat
  args : List Nat
  rowPa : Nat
  asid : Nat
  /-- Sequence number of the job it is part of; none for an instruction. -/
  job : Option (Nat × Nat) := none
  deriving DecidableEq, Repr

/-- A job in the pier (R115). -/
inductive Job where
  | task (q seq : Nat)
  | call (p : PCall)
  deriving DecidableEq, Repr

/-- A counter registered at its home (R111, R358). -/
structure Reg where
  pa : Nat
  /-- Registering home; none for an expectation. -/
  home : Option Nat
  va : Nat
  last : Nat
  deriving DecidableEq, Repr

/-- A home (R13). -/
structure Home where
  queues : Tab Nat Queue := []
  reserveUsed : Nat := 0
  watch : List Nat := []
  regs : List Reg := []
  job : Option Job := none
  /-- Number of the job, which the step that ends it names. -/
  jobId : Nat := 0
  /-- Lines of its range that its sequences have done, the cycle in which step 1 of R124 ends, its arrays, and what COPY_HOME has read
  (R136, R138, R142). -/
  jobPos : Nat := 0
  jobEnd : Nat := 0
  jobArrs : List (Nat × Nat × Nat) := []
  jobData : Nat := 0
  lastTask : Bool := false
  lastQueue : Nat := 63
  calls : List PCall := []
  repaired : List Nat := []
  spare : Nat := 64
  repairBusy : Bool := false
  repairFail : Bool := false
  repairPa : Nat := 0
  refreshOwed : Nat := 0
  deriving DecidableEq, Repr

/-- A command in a queue of a command processor (R208, R209). -/
structure Cmd where
  seq : Nat
  type : Nat
  pri : Nat
  at_ : Nat
  issuer : CtxId
  job : Nat
  arg : Nat
  statVa : Nat
  asid : Nat
  root : Nat
  part : Nat
  pyls : Nat
  /-- Its queued status is performed, and a server may take it (R211, R291). -/
  told : Bool := false
  deriving DecidableEq, Repr

/-- What step 1 of a launch has read (R212, R214): the header's doublewords, the domain bitmaps with domain and pylon, the
five schedule bitmaps of every relative position as one number, and the queue table. -/
structure Plan where
  hdr : List Nat := []
  doms : List (Nat × Nat × Nat) := []
  sch : List Nat := []
  qt : List (Nat × Nat) := []
  deriving DecidableEq, Repr

/-- The launch that the compute server is placing (R214, R215): the cycle until which it waits for an awake rectangle, once it
does; and its number, once it holds a placement. -/
structure Placing where
  cmd : Cmd
  plan : Plan
  /-- Fresh loads still to come (R467): 3 the header's, 2 the tables', 1 the time until their values are there; and the refusal that
  the values read give. -/
  reads : Nat := 0
  bad : Nat := 0
  until_ : Option Nat := none
  late : Bool := false
  lid : Nat := 0
  deriving DecidableEq, Repr

/-- The in-memory job that the server runs (R210): its block, granules not yet done, and granules sent. -/
structure MemRun where
  cmd : Cmd
  blk : List Nat
  left : Nat
  sent : Nat := 0
  deriving DecidableEq, Repr

/-- A shard of a view (R186). -/
structure Shard where
  ebase : Nat
  sbase : Nat
  tbase : Nat
  deriving DecidableEq, Repr

/-- A registered view (R185). -/
structure View where
  num : Nat
  pol : Nat
  lay : Nat
  geo : Nat
  slot : Nat
  fd : List Nat
  shards : List Shard
  asid : Nat
  /-- The directory (R441): 64 KB pages of its elements, scales and tags, as VA page and PA page. -/
  pages : List (Nat × Nat) := []
  /-- Tags of its blocks in peer modules, as the engine last wrote them: master block and tag. -/
  farTags : Tab Nat Nat := []
  /-- Its registration has been installed (R189). -/
  live : Bool := false
  deriving DecidableEq, Repr

/-- A master tensor (R183, R190): dirty blocks and stamps at the stamp homes. -/
structure Master where
  mid : Nat
  base : Nat
  pa : List Nat
  rows : Nat
  cols : Nat
  slot : Nat
  asid : Nat
  views : List View := []
  stamps : Tab Nat (BitVec 32) := []
  dirty : List Nat := []
  /-- Dirty blocks of which the engine has notice (R191). -/
  noticed : List Nat := []
  /-- A registration of it has been installed. -/
  live : Bool := false
  /-- The block whose homes hold new writes, for the read after a refresh's fourth try (R193). -/
  hold : Option Nat := none
  deriving DecidableEq, Repr

/-- A pylon's command processor, view engine and remote line cache (R154, R184, R208). -/
structure Pylon where
  cmds : List Cmd := []
  nextCmd : Nat := 0
  placing : Option Placing := none
  copyBusy : Option Cmd := none
  memBusy : Option MemRun := none
  masters : List Master := []
  /-- The MID from which the engine looks for its next master (R192). -/
  nextMid : Nat := 0
  capture : Bool := false
  capBase : Nat := 0
  capSize : Nat := 0
  capMask : Nat := 0
  capCount : Nat := 0
  capDesc : Nat := 0
  capAsid : Nat := 0
  /-- Remote line cache: lines by peer address, the newest first (R154). -/
  rlc : List SnapLine := []
  gated : Bool := false
  /-- The cycle in which its wake ends, while it wakes (R216). -/
  wakeEnd : Nat := 0
  tlb : List Tlb := []
  signature : BitVec 64 := 0
  /-- The signature of the superstep in progress, over the values stored so far (R242). -/
  signAcc : Nat := 0
  /-- Replay imposes no further outcome (R460). -/
  diverged : Bool := false
  deriving DecidableEq, Repr

/-- An expectation of a barrier (R358). -/
structure Expect where
  core : CoreId
  pa : Nat
  thr : Nat
  met : Option Nat
  /-- Cycle in which it was posted. -/
  at_ : Nat := 0
  deriving DecidableEq, Repr

/-- A contribution to PREDUCE (R237). -/
structure Contrib where
  ctx : CtxId
  op : Nat
  ty : Nat
  key : Nat
  va : Nat := 0
  val : Nat := 0
  deriving DecidableEq, Repr

/-- The current barrier of a domain (R91, R92). -/
structure Barrier where
  /-- Contexts that have executed PHASE or PARRIVE, with the stores their arrival waits for. -/
  ctxs : List (CtxId × List Nat) := []
  /-- The same, of cores that have arrived: their arrival is at the next barrier. -/
  late : List (CtxId × List Nat) := []
  /-- Expectations posted since the barrier was complete: the next barrier's. -/
  nextExps : List Expect := []
  /-- What the contexts of `late` bring: contributions, and the cores with a context in XBEGIN. -/
  nextContribs : List Contrib := []
  nextTimed : List CoreId := []
  /-- Cores that have arrived, with the cycle. -/
  cores : List (CoreId × Nat) := []
  exps : List Expect := []
  contribs : List Contrib := []
  first : Option Nat := none
  timedBy : List CoreId := []
  due : Option Nat := none
  sysArrived : Bool := false
  deriving DecidableEq, Repr

/-- A stage of a kernel (R133). -/
structure StageDecl where
  hi : Nat
  lo : Nat
  min : Nat
  q : Nat
  deriving DecidableEq, Repr

/-- A launch (R214). -/
structure Launch where
  id : Nat
  pyls : Nat
  orgX : Nat
  orgY : Nat
  extW : Nat
  extH : Nat
  asid : Nat
  root : Nat
  part : Nat
  lperm : Bool
  power : Nat
  dmask : Nat
  /-- Members of a declared domain, for every pylon of the launch. -/
  doms : Tab Nat (List CoreId) := []
  barriers : Tab Nat Barrier := []
  queues : List Nat := []
  nstg : Nat := 0
  stages : List StageDecl := []
  statVa : Nat := 0
  issuer : CtxId := ⟨⟨.service, 0, 0, 0⟩, 0⟩
  hdrVa : Nat := 0
  /-- Partition word, footprint in 64 KB units, first unit, scratch limit, crown use (R212, R213). -/
  pw : Nat := 0
  fp : Nat := 4
  unit : Nat := 0
  slim : Nat := 0
  crn : Bool := false
  /-- Its contexts have been started. -/
  started : Bool := false
  /-- Its command was taken inside a capture (R241). -/
  captured : Bool := false
  /-- A precise stop holds the members (R239). -/
  stopHeld : Bool := false
  deriving DecidableEq, Repr

/-- What an access does at its ordering point (R160). -/
inductive Act where
  | load | store | atomic (f : Nat) | mon (entry deadline : Nat)
  deriving DecidableEq, Repr

/-- An access on its way to its ordering point, or a load on its way back (R160, R394 to R397). -/
structure Access where
  id : Nat
  ctx : CtxId
  act : Act
  kind : AccKind
  key : Nat
  va : Nat
  n : Nat
  /-- Bytes to store, or the operand and comparand of an atomic. -/
  val : Nat := 0
  cmp : Nat := 0
  /-- Bytes of a store that are written; all when it is all ones. -/
  mask : Nat := 0
  scope : Nat := 0
  acq : Bool := false
  rel : Bool := false
  fence : Bool := false
  /-- Accesses that are performed first. -/
  after : List Nat := []
  performed : Bool := false
  returned : Bool := false
  parked : Bool := false
  /-- It is parked on an empty result row (R140). -/
  onRow : Bool := false
  got : Nat := 0
  fault : Option Trap := none
  /-- The cycle in which it was performed. -/
  at_ : Nat := 0
  /-- The load's word: accesses of one word share grp; pos is the byte position of this part. -/
  grp : Nat := 0
  pos : Nat := 0
  /-- Destination: class 0 none, 1 x, 2 v, 3 i, 4 h, 5 a direction code for a vector, 6 a stream's read-ahead, 7 a direction
  code for a scalar; its number; what becomes of the bytes (1 sign-extends; for a vector mode + 4 × code width); tag. -/
  dcls : Nat := 0
  dreg : Nat := 0
  post : Nat := 0
  tag : Nat := 0
  keep : Nat := 0
  lat : Nat := 0
  asid : Nat := 0
  master : Bool := false
  /-- The effective address that its word formed (R423). -/
  ea : Nat := 0
  /-- Bytes of its destination that a window store of the context has written since: location, bytes, mask (R395). -/
  later : List (Nat × Nat × Nat) := []
  /-- A store has gone to its line since, so that the remote line cache does not take the line (R154, R161). -/
  uncached : Bool := false
  /-- The word that issued a load to a link (R449, R450). -/
  word : Nat := 0
  deriving DecidableEq, Repr

/-- A CSTOP, CRESUME or FENCE.X whose acknowledgement has not left its target (R465): kind 0, 1 or 2; of a CSTOP the contexts that have
still to stop. -/
structure Ack where
  issuer : CtxId
  waitNo : Nat
  kind : Nat
  core : CoreId
  mask : Nat
  /-- Stores that a fence waits for. -/
  ids : List Nat := []
  deriving DecidableEq, Repr

/-- Why a step stops for good: none of this model's steps do; a part that the manual says exists nowhere is named here. -/
inductive Fault where
  /-- Raised by no step: the manual gives every misuse a trap, which is taken. Safe. -/
  | noSuchPlace
  deriving DecidableEq, Repr

/-- Why a step has no meaning in this model. -/
inductive Refusal where
  /-- Raised by `exec` for a row that has no meaning yet. Safe: nothing is claimed of it. -/
  | notModelled (mnemonic : String)
  deriving DecidableEq, Repr

/-- The module (R74 to R242). The fields below `mem` are tables of the parts that differ from their reset form. -/
structure State where
  /-- Cycles since module reset (R87). -/
  cyc : Nat := 0
  /-- Memory: every byte array of the module in one canonical list (Memory section of INVENTORY.md). -/
  mem : List Host.Cell := []
  ctxs : Tab CtxId Ctx := []
  cores : Tab CoreId Core := []
  clusters : Tab Nat Cluster := []
  homes : Tab Nat Home := []
  pylons : Tab Nat Pylon := []
  launches : List Launch := []
  /-- Roots and partitions of the address spaces that commands issued at S name (R209). -/
  roots : List (Nat × Nat × Nat) := []
  nextLid : Nat := 1
  /-- Accesses between issue and return. -/
  flight : List Access := []
  nextId : Nat := 1
  /-- Empty result rows (R140), by row address. -/
  emptyRows : List Nat := []
  /-- Poisoned units, by first byte (R429). -/
  poison : List Nat := []
  /-- Locations whose doubleword carries a copy's mark (R398). -/
  marks : List Nat := []
  /-- Failed-start count (R232), with REASON and STEP of the start in progress, or of the last failed start (R233, R459). -/
  fsc : Nat := 0
  failReason : Nat := 0
  failStep : Nat := 0
  /-- State of cores whose contexts are Stopped while another launch runs on them (R215, R226). -/
  away : List (CoreId × Core × List Ctx) := []
  /-- MSI-X vectors raised and not yet taken by the host. -/
  msix : List Nat := []
  /-- Capability keys, one of 64 bytes for each partition (R387). -/
  capKeys : Tab Nat (List Nat) := []
  /-- Consecutive failed retries of each port (R458). -/
  retries : Tab Nat Nat := []
  /-- System groups' arrivals by (group), with the launch and domain bound (R236). -/
  sysArr : List (Nat × Nat × Nat) := []
  /-- Micro-words and entry tables are control words of `mem`; cores off in minimal mode (R233). -/
  minimal : Option Nat := none
  /-- Bytes of the image that the boot ROM has entered (R231, R232). -/
  bootImg : List Nat := []
  acks : List Ack := []
  /-- Steps already set going, by the cycle they fall due. -/
  agenda : List (Nat × Instr × Arg) := []
  /-- Steps whose write a master's homes hold, in the order of arrival (R193), by MID. -/
  heldWrites : List (Nat × Instr × Arg) := []
  /-- The model's own: interleaving and outside acts still to come. -/
  moves : List Move := []
  /-- The model's own: free values taken so far. -/
  free : Nat := 0
  /-- The context whose word is in issue, the word, and the parts that a step without encoding concerns. -/
  cur : CtxId := ⟨⟨.service, 0, 0, 0⟩, 0⟩
  ir : BitVec 32 := 0
  /-- FIELD at fault in the encoding of the word in issue; it is reported once its hints are found in order (R409, R418). -/
  bad : Option Nat := none
  arg : Arg := {}
  deriving DecidableEq, Repr

/-- Right after power-on reset: service core 0's context 0 is live at H in the boot ROM, whose start is the first step
(R232). Every other context is free; memory lists nothing. -/
def State.reset : State :=
  { ctxs := [(⟨⟨.service, 0, 0, 0⟩, 0⟩, { st := .ready, level := .h })],
    agenda := [(0, .bootStart, {})] }

end Sys2Proof.Machine
end

