-- ==== Sys2Proof/Machine/Mem.lean ====
section
/-! DEFINITION. Memory: one sorted list of cells for every byte array of the module, and what an unlisted byte reads as.
A key below 2^40 is a physical address of device memory (R155). The other arrays follow it: pools at 2^44, crown weight
slices at 2^45, deck-core memories at 2^46, service-core memories at 2^47, host BARs at 2^48, control space at 2^61. The descriptors that the homes' queues hold have keys from 2^70
on, at which nothing but a soft error strikes. -/

namespace Sys2Proof.Machine

/-- First key of the pools: 2^44, 256 KB for each span core (R10). -/
def poolBase : Nat := 17592186044416
/-- First key of the crown weight slices: 2^45. -/
def crownBase : Nat := 35184372088832
/-- First key of the deck cores' local memories: 2^46, 64 KB each (R11). -/
def deckBase : Nat := 70368744177664
/-- First key of the service cores' private memories: 2^47, 256 KB each (R85). -/
def svcBase : Nat := 140737488355328
/-- First key of the host BARs: 2^48; BAR 0, then BAR 2 at 2^32 and BAR 4 at 2^33 above it (R227). -/
def hostBase : Nat := 281474976710656
/-- First key of control space: 2^61 (R144). -/
def ctlBase : Nat := 2305843009213693952
/-- First key of the descriptors in the homes' queues: 2^70. -/
def taskBase : Nat := 1180591620717411303424
/-- Key of the 128-byte descriptor of a task (R106), by home, queue and enqueue sequence. -/
def taskKey (h q seq : Nat) : Nat := taskBase + ((h * 64 + q) * 18446744073709551616 + seq) * 128

/-- Byte w of a pier's block of control space as the boot ROM loads it (R135, R232): the entry words of the library, entries 0 to 9
VALID with their START, and the micro-words. -/
def pierStore (w : Nat) : Byte :=
  if w < 80 then
    if w % 8 = 0 then BitVec.ofNat 8 (Config.pierLibrary (512 + w / 8)) else if w % 8 = 1 then 1 else 0
  else if 4096 ≤ w ∧ w < 8192 then BitVec.ofNat 8 (Config.pierLibrary ((w - 4096) / 8) / 256 ^ (w % 8))
  else 0
/-- What a byte that no store has written reads as. The control words with a reset value are VSH (R143), FETO (R431) and
PTO (R458). The control stores, which have none, hold the library from the start on, as R135 has its entries always do
(notes/assumptions/82). DESIGN CHOICE (unsafe): every other byte is 0 (notes/assumptions/1). -/
def unlisted (k : Nat) : Byte :=
  if k = 2305843009331134480 then 16
  else if k = 2305843009331134467 then 1
  else if k = 2305843009264037891 then 1
  else if 2305843009230471168 ≤ k ∧ k < 2305843009264025600 then pierStore ((k - 2305843009230471168) % 65536)
  else 0

/-- One byte of memory. -/
def Mem.get : List Host.Cell → Nat → Byte
  | [], k => unlisted k
  | (a, b) :: m, k => if k = a then b else if k < a then unlisted k else Mem.get m k

/-- Memory with one byte written; the form stays canonical. -/
def Mem.set : List Host.Cell → Nat → Byte → List Host.Cell
  | [], k, v => if v = unlisted k then [] else [(k, v)]
  | (a, b) :: m, k, v =>
    if k = a then (if v = unlisted k then m else (k, v) :: m)
    else if k < a then (if v = unlisted k then (a, b) :: m else (k, v) :: (a, b) :: m)
    else (a, b) :: Mem.set m k v

/-- The canonical form: addresses strictly rising, no entry equal to what an unlisted address reads as. -/
def Mem.wf : List Host.Cell → Bool
  | [] => true
  | [(a, b)] => b != unlisted a
  | (a, b) :: (a', b') :: m => b != unlisted a && decide (a < a') && Mem.wf ((a', b') :: m)

/-- The n bytes at k, lowest first. -/
def Mem.bytes (m : List Host.Cell) (k : Nat) : Nat → List Byte
  | 0 => []
  | n + 1 => Mem.get m k :: Mem.bytes m (k + 1) n

/-- The n-byte little-endian number at k (R3). -/
def Mem.read (m : List Host.Cell) (k : Nat) : Nat → Nat
  | 0 => 0
  | n + 1 => (Mem.get m k).toNat + 256 * Mem.read m (k + 1) n

/-- The low n bytes of v written at k, lowest first (R3). -/
def Mem.write (m : List Host.Cell) (k : Nat) : Nat → Nat → List Host.Cell
  | 0, _ => m
  | n + 1, v => Mem.write (Mem.set m k (BitVec.ofNat 8 v)) (k + 1) n (v / 256)

/-- Doublewords written one after another. -/
def Mem.words (m : List Host.Cell) (k : Nat) : List Nat → List Host.Cell
  | [] => m
  | w :: ws => Mem.words (Mem.write m k 8 w) (k + 8) ws

/-- As `write`, but only the bytes whose bit of the mask is 1. -/
def Mem.writeMask (m : List Host.Cell) (k : Nat) : Nat → Nat → Nat → List Host.Cell
  | 0, _, _ => m
  | n + 1, v, mask =>
    Mem.writeMask (if mask % 2 = 1 then Mem.set m k (BitVec.ofNat 8 v) else m) (k + 1) n (v / 256) (mask / 2)

/-- The bytes of a number whose bit of the mask is 1 replace those of another. -/
def mergeBytes (old v mask : Nat) : Nat → Nat
  | 0 => 0
  | n + 1 => (if mask % 2 = 1 then v % 256 else old % 256) + 256 * mergeBytes (old / 256) (v / 256) (mask / 2) n

/-- The home of a physical address (R152). -/
def homeOf (pa : Nat) : Nat := (pa / 16384 % 512) ^^^ (pa / 8388608 % 512)

/-- Is a key a byte of device memory? R21 gives 40-bit addresses and 768 GB of DRAM; the model has bytes behind every one of the
addresses, those from 768 GB on too, whose fate no rule states (notes/assumptions/72). -/
def isDevice (k : Nat) : Bool := decide (k < 1099511627776)

/-- The table's value at a key, or a default. -/
def Tab.get {κ α : Type} [DecidableEq κ] (t : Tab κ α) (k : κ) (d : α) : α :=
  match t with
  | [] => d
  | (k', v) :: t => if k = k' then v else Tab.get t k d

/-- The table with a value at a key. -/
def Tab.set {κ α : Type} [DecidableEq κ] (t : Tab κ α) (k : κ) (v : α) : Tab κ α :=
  match t with
  | [] => [(k, v)]
  | (k', v') :: t => if k = k' then (k, v) :: t else (k', v') :: Tab.set t k v

end Sys2Proof.Machine
end

