-- ==== Sys2Proof/Machine/Ops.lean ====
section
/-! DEFINITION. Named operations on the state: parts by name, places, registers in their windows, the agenda, taking a trap
and returning from one, and the frame that every instruction word runs in. -/

namespace Sys2Proof

/-- Number of a cluster in the module. -/
def clusterNo (p cy cx : Nat) : Nat := p * 512 + cy * 16 + cx
/-- The cluster of a core (R12). -/
def CoreId.cluster (u : CoreId) : Nat := clusterNo u.pyl (u.y / 2) (u.x / 2)
/-- Number of a span core's position in the module. -/
def CoreId.index (u : CoreId) : Nat := (u.pyl * 64 + u.y) * 32 + u.x
/-- The deck core of a core's cluster. -/
def CoreId.deck (u : CoreId) : CoreId := ⟨.deck, u.pyl, u.y / 2 * 2, u.x / 2 * 2⟩
/-- Span core n of a deck core's cluster, n = (y & 1) × 2 + (x & 1) (R103). -/
def CoreId.spanOf (u : CoreId) (n : Nat) : CoreId := ⟨.span, u.pyl, u.y / 2 * 2 + n / 2 % 2, u.x / 2 * 2 + n % 2⟩
/-- How many contexts a core kind has (R74). -/
def CoreKind.contexts : CoreKind → Nat
  | .span => 11
  | _ => 4
def CoreKind.code : CoreKind → Nat
  | .span => 0 | .deck => 1 | .service => 2
/-- `coord` bits 19:0 (R86). -/
def CtxId.place (c : CtxId) : Nat :=
  c.core.kind.code * 262144 + c.core.pyl * 32768 + c.core.y * 512 + c.core.x * 16 + c.k
/-- Numbers lo, lo + 1, …, n of them. -/
def upFrom (lo : Nat) : Nat → List Nat
  | 0 => []
  | n + 1 => lo :: upFrom (lo + 1) n
/-- The contexts of a core. -/
def CoreId.ctxs (u : CoreId) : List CtxId := (upFrom 0 u.kind.contexts).map fun k => ⟨u, k⟩

end Sys2Proof

namespace Sys2Proof.Machine

/-! ### Parts of the state -/

/-- The span cores of a cluster in the order of a save (R226). -/
def clusterCores (k : Nat) : List CoreId :=
  (upFrom 0 4).map (⟨.deck, k / 512, k % 512 / 16 * 2, k % 16 * 2⟩ : CoreId).spanOf
/-- The deck core of a cluster. -/
def clusterDeck (k : Nat) : CoreId := ⟨.deck, k / 512, k % 512 / 16 * 2, k % 16 * 2⟩

def State.ctx (s : State) (c : CtxId) : Ctx := Tab.get s.ctxs c {}
def State.setCtx (s : State) (c : CtxId) (x : Ctx) : State := { s with ctxs := Tab.set s.ctxs c x }
def State.core (s : State) (u : CoreId) : Core := Tab.get s.cores u {}
def State.setCore (s : State) (u : CoreId) (x : Core) : State := { s with cores := Tab.set s.cores u x }
def State.cluster (s : State) (n : Nat) : Cluster := Tab.get s.clusters n {}
def State.setCluster (s : State) (n : Nat) (x : Cluster) : State := { s with clusters := Tab.set s.clusters n x }
def State.home (s : State) (n : Nat) : Home := Tab.get s.homes n {}
def State.setHome (s : State) (n : Nat) (x : Home) : State := { s with homes := Tab.set s.homes n x }
def State.pylon (s : State) (n : Nat) : Pylon := Tab.get s.pylons n {}
def State.setPylon (s : State) (n : Nat) (x : Pylon) : State := { s with pylons := Tab.set s.pylons n x }
/-- The launch with an identifier. -/
def State.launch (s : State) (lid : Nat) : Option Launch := s.launches.find? (·.id == lid)
def State.setLaunch (s : State) (l : Launch) : State :=
  { s with launches := s.launches.map fun m => if m.id = l.id then l else m }
/-- The launch a core runs. -/
def State.launchOf (s : State) (u : CoreId) : Option Launch :=
  if (s.core u).lid = 0 then none else s.launch (s.core u).lid
/-- A number that no access, request or wait has yet. -/
def State.fresh (s : State) : State := { s with nextId := s.nextId + 1 }

/-! ### Places (R12, R84, R85) -/

/-- The pool of a span core by physical offset. -/
def poolKey (u : CoreId) (off : Nat) : Nat := poolBase + u.index * 262144 + off
def crownKey (u : CoreId) (off : Nat) : Nat := crownBase + u.index * 262144 + off
def deckKey (u : CoreId) (off : Nat) : Nat := deckBase + u.cluster * 65536 + off
def svcKey (u : CoreId) (off : Nat) : Nat := svcBase + u.x * 262144 + off
/-- First key of a core's own array: pool, local memory or private memory, at its launch's unit (R213). -/
def State.ownBase (s : State) (u : CoreId) : Nat :=
  match u.kind with
  | .span => poolKey u ((s.core u).unit * 65536)
  | .deck => deckKey u 0
  | .service => svcKey u 0
/-- First key of a context's register window (R79, R85). -/
def State.win (s : State) (c : CtxId) : Nat := s.ownBase c.core + c.k * 8192
/-- NWIN (R83); a deck core and a service core have their four windows (R85). -/
def State.nwin (s : State) (u : CoreId) : Nat :=
  match u.kind with
  | .span => (s.core u).pw % 16
  | _ => 4
/-- NACC (R83). -/
def State.nacc (s : State) (u : CoreId) : Nat := (s.core u).pw / 16 % 4
/-- Size of a core's own array as its launch sees it (R213). -/
def State.ownSize (s : State) (u : CoreId) : Nat :=
  match u.kind with
  | .span => (s.core u).fp * 65536
  | .deck => 65536
  | .service => 262144
/-- Offset of a context's task area (R84, R85). -/
def State.taskArea (s : State) (c : CtxId) : Nat :=
  match c.core.kind with
  | .deck => 65024 + c.k * 128
  | _ => s.ownSize c.core - s.nacc c.core * 65536 - 2048 + c.k * 128
/-- The core that bits 19:4 of a word name in the layout of `coord` (R289, R372). -/
def coreOfWord (w : Nat) : CoreId :=
  ⟨if w / 262144 % 4 = 0 then .span else if w / 262144 % 4 = 1 then .deck else .service,
    w / 32768 % 8, w / 512 % 64, w / 16 % 32⟩
/-- Is a span core or deck core part of a launch's placement (R86)? -/
def Launch.has (l : Launch) (u : CoreId) : Bool :=
  u.kind != .service && bit l.pyls u.pyl && decide (l.orgX ≤ u.x) && decide (u.x < l.orgX + l.extW) &&
    decide (l.orgY ≤ u.y) && decide (u.y < l.orgY + l.extH)
/-- Every span core and deck core of a launch (R75). -/
def Launch.cores (l : Launch) : List CoreId :=
  ((upFrom 0 8).filter (bit l.pyls ·)).flatMap fun p =>
    ((upFrom l.orgY l.extH).flatMap fun y => (upFrom l.orgX l.extW).map fun x => (⟨.span, p, y, x⟩ : CoreId)) ++
    ((upFrom 0 (l.extH / 2)).flatMap fun j => (upFrom 0 (l.extW / 2)).map fun i =>
      (⟨.deck, p, l.orgY + 2 * j, l.orgX + 2 * i⟩ : CoreId))
/-- Is a context live (R74): started and not yet free? -/
def Ctx.live (x : Ctx) : Bool := x.st != .free
/-- The lowest pylon of a set. -/
def firstPylon (pyls : Nat) : Nat := ((upFrom 0 8).find? (bit pyls ·)).getD 0
/-- The partition that holds a pylon (R229); none when no valid entry names it. -/
def State.partition (s : State) (pyl : Nat) : Option Nat :=
  (upFrom 0 8).find? fun p =>
    let w := Mem.read s.mem (ctlBase + 4096 + 8 * p) 2
    bit w 8 && bit w pyl

/-- Is a pylon off, in minimal mode (R233)? -/
def State.off (s : State) (pyl : Nat) : Bool := s.minimal.any (· != pyl)

/-! ### Latencies (R147) -/

/-- Round trip from a core to a home on a home-cache hit. -/
def latHome (u : CoreId) (h : Nat) : Nat := if u.kind ≠ .service ∧ h / 64 = u.pyl then 180 else 260
/-- Round trip between two cores' pools; a deck core counts as of its cluster. -/
def latPool (u v : CoreId) : Nat :=
  if u.kind = .service ∨ v.kind = .service then (if u = v then 4 else 80)
  else if u = v then 4
  else if u.cluster = v.cluster then 12
  else if u.pyl = v.pyl then 40
  else 110
/-- One way of a stop, resume or fence request and of its acknowledgement (R407, R465). -/
def stopWay (u v : CoreId) : Nat := if u.kind = .service then 40 else max 6 (latPool u v / 2)
/-- One way of a message between two homes (R402). -/
def latHomes (a b : Nat) : Nat := if a / 32 = b / 32 then 4 else 40
/-- The same, with nothing to travel at one home. -/
def hop (a b : Nat) : Nat := if a = b then 0 else latHomes a b

/-! ### Agenda, moves -/

/-- Insert a step at its cycle, behind those of the same cycle. -/
def agendaInsert (t : Nat) (e : Instr × Arg) : List (Nat × Instr × Arg) → List (Nat × Instr × Arg)
  | [] => [(t, e)]
  | x :: xs => if t < x.1 then (t, e) :: x :: xs else x :: agendaInsert t e xs
/-- Set a step going that falls due at a cycle. -/
def State.at_ (s : State) (t : Nat) (i : Instr) (a : Arg) : State := { s with agenda := agendaInsert t (i, a) s.agenda }
/-- Set a step going that falls due n cycles from now. -/
def State.after (s : State) (n : Nat) (i : Instr) (a : Arg) : State := s.at_ (s.cyc + n) i a
/-- Number i of the step in progress. -/
def State.n (s : State) (i : Nat) : Nat := s.arg.ns.getD i 0

/-! ### Registers in the windows (R79, R80, R81) -/

/-- Scalar register r of a context; x0 reads 0 (R80). -/
def State.rx (s : State) (c : CtxId) (r : Nat) : Nat := if r = 0 then 0 else Mem.read s.mem (s.win c + 8 * r) 8
/-- Write scalar register r; a write of x0 is discarded (R80, R268). -/
def State.wx (s : State) (c : CtxId) (r v : Nat) : State :=
  if r = 0 then s else { s with mem := Mem.write s.mem (s.win c + 8 * r) 8 v }
/-- Vector register r as 1024 bits. -/
def State.rv (s : State) (c : CtxId) (r : Nat) : Nat := Mem.read s.mem (s.win c + 2048 + 128 * r) 128
/-- Tag of vector register r (R39). -/
def State.vtag (s : State) (c : CtxId) (r : Nat) : Nat := Mem.read s.mem (s.win c + 672 + 2 * r) 2
/-- Write vector register r with its tag (R295). -/
def State.wv (s : State) (c : CtxId) (r v tag : Nat) : State :=
  { s with mem := Mem.write (Mem.write s.mem (s.win c + 2048 + 128 * r) 128 v) (s.win c + 672 + 2 * r) 2 tag }
/-- Interval register r as 1024 bits. -/
def State.ri (s : State) (c : CtxId) (r : Nat) : Nat := Mem.read s.mem (s.win c + 6144 + 128 * r) 128
/-- Tag of interval register r (R39). -/
def State.itag (s : State) (c : CtxId) (r : Nat) : Nat := Mem.read s.mem (s.win c + 736 + 2 * r) 2
/-- Write interval register r with its tag. -/
def State.wi (s : State) (c : CtxId) (r v tag : Nat) : State :=
  { s with mem := Mem.write (Mem.write s.mem (s.win c + 6144 + 128 * r) 128 v) (s.win c + 736 + 2 * r) 2 tag }
/-- All 128 bits of a predicate register set. -/
def ones128 : Nat := 340282366920938463463374607431768211455
/-- Predicate register r; p0 makes every lane active (R254, R296). -/
def State.rp (s : State) (c : CtxId) (r : Nat) : Nat :=
  if r = 0 then ones128 else Mem.read s.mem (s.win c + 256 + 16 * r) 16
/-- Write predicate register r; p0 stays all true. -/
def State.wp (s : State) (c : CtxId) (r v : Nat) : State :=
  if r = 0 then s else { s with mem := Mem.write s.mem (s.win c + 256 + 16 * r) 16 v }
/-- Three-valued predicate register r (R79). -/
def State.rq (s : State) (c : CtxId) (r : Nat) : Nat := Mem.read s.mem (s.win c + 384 + 4 * r) 4
def State.wq (s : State) (c : CtxId) (r v : Nat) : State :=
  { s with mem := Mem.write s.mem (s.win c + 384 + 4 * r) 4 v }
/-- The 64 bytes of handle register r (R205). -/
def State.rh (s : State) (c : CtxId) (r : Nat) : Nat := Mem.read s.mem (s.win c + 1024 + 64 * r) 64
def State.wh (s : State) (c : CtxId) (r v : Nat) : State :=
  { s with mem := Mem.write s.mem (s.win c + 1024 + 64 * r) 64 v }
/-- The stream state at window offset 0x1A0 + 32n, by doubleword (R327). -/
def State.rs (s : State) (c : CtxId) (r j : Nat) : Nat := Mem.read s.mem (s.win c + 416 + 32 * r + 8 * j) 8
def State.ws (s : State) (c : CtxId) (r j v : Nat) : State :=
  { s with mem := Mem.write s.mem (s.win c + 416 + 32 * r + 8 * j) 8 v }

/-! ### Traps (R409 to R414) -/

def Level.code : Level → Nat
  | .u => 0 | .s => 1 | .h => 2
/-- The word written to `tcause` (R409). -/
def Trap.causeWord (t : Trap) (plv : Level) : Word :=
  Word.ofN (t.cause + t.code * 256 + plv.code * 4194304 + if t.async then 16777216 else 0)
/-- The word written to `tinfo` (R409). -/
def Trap.infoWord (t : Trap) (insn : Nat) : Word :=
  Word.ofN (t.insn.getD insn + t.prog * 4294967296 + t.field * 137438953472 + t.detail * 1099511627776)
/-- Where a trap of a cause enters (R410). -/
def TrapRec.entry (r : TrapRec) (cause : Nat) : Word :=
  Word.ofN (bits r.vec.toNat 47 8 * 256 + if r.vec.toNat % 2 = 1 then 64 * cause else 0)
/-- The record as entry writes it: resume address, cause, value, information, and INH with the old address space. -/
def TrapRec.take (r : TrapRec) (t : Trap) (plv : Level) (resume : Word) (insn asid : Nat) (dbl : Bool) : TrapRec :=
  { r with
    cause := t.causeWord plv
    epc := resume
    val := Word.ofN t.val
    info := t.infoWord insn
    stat := Word.ofN (asid * 65536 + (r.stat.toNat / 2 % 2 * 2 ||| if dbl then 2 else 0) + 1) }
/-- In a handler of this level (INH). -/
def TrapRec.inh (r : TrapRec) : Bool := bit r.stat.toNat 0
/-- The level that handles a trap (R410); none when the trap is fatal to the context. -/
def Ctx.handler (x : Ctx) (t : Trap) : Option Level :=
  match x.level with
  | .u => some .s
  | .s => if t.cause = 62 then some .h else if x.trapS.inh then some .h else some .s
  | .h => if x.trapH.inh then none else some .h
/-- What a trap changes at entry in the context that takes it, at the handling level (R410, R411, R462). -/
def Ctx.enter (x : Ctx) (t : Trap) (lv : Level) (resume : Word) (insn cyc : Nat) : Ctx :=
  let dbl := lv = .h ∧ x.level = .s ∧ t.cause ≠ 62
  let r := if lv = .h then x.trapH else x.trapS
  let t := if t.async ∧ t.prog = 0 then { t with prog := x.resumeAt } else t
  let r' := r.take t x.level resume insn x.asid.toNat (decide dbl)
  let y := { x with
    st := .ready, wait := .none, level := lv, asid := BitVec.ofNat 16 (bits r.vec.toNat 63 48)
    pc := r.entry t.cause, chainImm := none, chainMod := none, chainPc := none, timed := none, notBefore := cyc + 4
    since := cyc, fcsr := x.fcsr ||| Word.ofN t.flags, walked := none, resumeAt := 0, syncTo := none, traps := x.traps + 1 }
  if lv = .h then { y with trapH := r' } else { y with trapS := r' }
/-- Raise an MSI-X vector (R228). -/
def State.raiseMsix (s : State) (v : Nat) : State := { s with msix := s.msix ++ [v] }
/-- A request begun in a cycle: the unit is its own for `occ` cycles, and its results are written `lat` cycles on (R323). -/
def SfuReq.begun (r : SfuReq) (t : Nat) : SfuReq := { r with start := t, due := t + r.lat }
/-- A queue without the requests that have left it: those that had not begun in a cycle move up (R220). The unit is free from a
cycle on, and is again from the second result on. -/
def sfuAdvance (cyc : Nat) : Nat → List SfuReq → List SfuReq × Nat
  | free, [] => ([], free)
  | free, r :: rs =>
    let r' := if r.start ≤ cyc then r else r.begun (min r.start (max free (max cyc r.enter)))
    let (rs', f) := sfuAdvance cyc (max free (r'.start + r'.occ)) rs
    (r' :: rs', f)
/-- Withdraw a context's queued special-function request; it stays with the context until it re-enters, and the requests behind it
advance (R220, R421). -/
def State.sfuWithdraw (s : State) (c : CtxId) (lv : Option Level) : State :=
  let u := s.core c.core
  let mine := u.sfu.filter (·.ctx == c)
  if mine.isEmpty then s else
    let (q, free) := sfuAdvance s.cyc s.cyc (u.sfu.filter (·.ctx != c))
    let s := s.setCore c.core { u with sfu := q, sfuFree := free }
    let s := q.foldl (fun s r => if u.sfu.contains r then s else s.at_ r.due .sfuResult { ctx := r.ctx, ns := [r.id, r.due] }) s
    s.setCtx c { s.ctx c with sfuHeld := (s.ctx c).sfuHeld ++ mine.map (·, lv) }
/-- Put a request at the tail of the core's queue, or behind the one in service (R220, R323). -/
def State.sfuEnter (s : State) (u : CoreId) (r : SfuReq) (timed : Bool) : State :=
  let k := s.core u
  let free := max s.cyc k.sfuFree
  let r := { r with enter := s.cyc }.begun (if timed then min free (s.cyc + 3) else free)
  (s.setCore u { k with sfu := k.sfu ++ [r], sfuFree := free + r.occ }).at_ r.due .sfuResult { ctx := r.ctx, ns := [r.id, r.due] }
/-- Let the withdrawn requests of a context that a condition picks re-enter at the tail (R421). -/
def State.sfuReenter (s : State) (c : CtxId) (p : Option Level → Bool) : State :=
  let x := s.ctx c
  let back := x.sfuHeld.filter (p ·.2)
  back.foldl (fun s r => s.sfuEnter c.core r.1 false) (s.setCtx c { x with sfuHeld := x.sfuHeld.filter fun r => !p r.2 })

/-- A trap ends timed exchange: what the context still had on its way to a mesh link is never written (R451). -/
def State.dropLinkWords (s : State) (c : CtxId) : State :=
  if (s.ctx c).timed.isNone then s else
    let k := s.core c.core
    let quiet (r : SfuReq) : SfuReq := if r.ctx = c then { r with outs := r.outs.filter fun o => !(o.1 == 5 && decide (o.2.1 < 5)) } else r
    let s := if k.sfu.isEmpty then s else s.setCore c.core { k with sfu := k.sfu.map quiet }
    { s with flight := s.flight.map fun f =>
        if f.ctx = c ∧ (f.dcls = 5 ∨ f.dcls = 7) ∧ f.dreg < 5 then { f with dcls := 0 } else f }
/-- A trap at H inside a handler (R410, R420, R421): the context stops, BAR 0 has the record, MSI-X vector 2 is raised. Before start-good
it is the reason that the start fails (R459). -/
def State.fatalTrap (s : State) (c : CtxId) (t : Trap) (resume : Word) : State :=
  let m := Mem.write s.mem (hostBase + 256) 8 (t.causeWord (s.ctx c).level).toNat
  let m := Mem.write m (hostBase + 264) 8 resume.toNat
  let m := Mem.write m (hostBase + 272) 8 t.val
  let s : State := if bit (Mem.read s.mem (hostBase + 64) 8) 0 then s else { s with failReason := 6 }
  let s := ({ s with mem := m } : State).dropLinkWords c
  let x := s.ctx c
  ((s.setCtx c { x with st := .stopped, wait := .none, wasWaiting := false, timed := none,
                        fcsr := x.fcsr ||| Word.ofN t.flags, traps := x.traps + 1 }).sfuWithdraw c none).raiseMsix 2

/-- A context takes a trap (R410): the one operation of every cause. `insn` is the word in issue. -/
def State.takeTrap (s : State) (c : CtxId) (t : Trap) (resume : Word) (insn : Nat) : State :=
  match (s.ctx c).handler t with
  | none => s.fatalTrap c t resume
  | some lv =>
    let plv := (s.ctx c).level
    let s := s.dropLinkWords c
    (s.setCtx c ((s.ctx c).enter t lv resume insn s.cyc)).sfuWithdraw c (some plv)

/-- The address that a synchronous cause of the word in issue resumes at: the first word of its chain, or its own (R411). -/
def Ctx.resume (x : Ctx) : Word := x.chainPc.getD x.pc

/-- The state after a word with a reserved encoding: ILLEGAL with its FIELD (R413, R418). -/
def State.illegal (s : State) (f : Nat) : State :=
  s.takeTrap s.cur { cause := 1, field := f, val := s.ir.toNat } (s.ctx s.cur).resume s.ir.toNat

/-- Leave a handler (R414): level, address space, INH and pc, from the record of the level. -/
def Ctx.leave (x : Ctx) (cyc : Nat) : Ctx :=
  let r := if x.level = .h then x.trapH else x.trapS
  let plv := bits r.cause.toNat 23 22
  let r' := { r with stat := Word.ofN (r.stat.toNat / 2 * 2) }
  let y := if x.level = .h then { x with trapH := r' } else { x with trapS := r' }
  { y with
    level := if plv = 0 then .u else if plv = 1 then .s else .h
    asid := BitVec.ofNat 16 (bits r.stat.toNat 31 16)
    pc := r.epc
    chainImm := none, chainMod := none, chainPc := none, resumeAt := bits r.info.toNat 36 32
    notBefore := cyc + 4, since := cyc }

/-- Fault log or debug ring entry j of a block of control words (R238, R446); the translation is the caller's. -/
def ringSlot (s : State) (block : Nat) : Nat :=
  let base := Mem.read s.mem block 8
  let size := Mem.read s.mem (block + 8) 8
  let head := Mem.read s.mem (block + 16) 8
  base + (if size / 32 = 0 then 0 else head % (size / 32)) * 32

/-! ### The frame of a word -/

/-- How the checks and effects of a word can end short of completing it. -/
inductive Halt where
  /-- A synchronous cause (R413). -/
  | trap (t : Trap)
  /-- A cause after part of the word's effect (R419). -/
  | late (s : State) (t : Trap)
  /-- The word waits and is issued again when its condition holds (R77). -/
  | retry (w : Wait)
  /-- A walk for this address must end first (R422): for a write or not, and for a fetch. -/
  | walk (va : Nat) (wr fetch : Bool)
  /-- A register it reads is not complete (R395): class and number. -/
  | stall (cls reg : Nat)
  /-- The word waits for a value that this state has asked for, and is issued again (R151). -/
  | ask (s : State)
  /-- The word completes with this state and no further effect: what it read is poisoned (R429). -/
  | quit (s : State)
  /-- The other cores' words of this cycle come before it (R102). -/
  | last

/-- The result of a check or an effect. -/
abbrev Chk (α : Type) := Except Halt α

def trap {α : Type} (cause : Nat) (detail : Nat := 0) (val : Nat := 0) (field : Nat := 0) : Chk α :=
  .error (.trap { cause := cause, detail := detail, val := val, field := field })

/-- How an issued word ends when no cause stops it. -/
inductive Out where
  /-- It completes; the context goes on at the next word. -/
  | done (s : State)
  /-- It completes; the context goes on at an address. -/
  | goto (s : State) (pc : Nat)
  /-- It has begun; a later step completes it (R77). -/
  | wait (s : State) (w : Wait)
  /-- It ends in a trap of its own: TRAP, SCALL, BRK resume at the next word (R411). -/
  | call (s : State) (t : Trap)
  /-- It ends with the context's state as the word left it. -/
  | left (s : State)

/-- Clear the hint chain, which the word has used up (R252). -/
def Ctx.used (x : Ctx) : Ctx := { x with chainImm := none, chainMod := none, chainPc := none, resumeAt := 0 }
/-- The context goes on at an address. -/
def State.goOn (s : State) (c : CtxId) (pc : Word) : State :=
  s.setCtx c { (s.ctx c).used with pc := pc, st := .ready, wait := .none, raised := false, walked := none, syncTo := none }
/-- The context goes on at the word after the present one. -/
def State.advance (s : State) (c : CtxId) : State := s.goOn c ((s.ctx c).pc + 4)
/-- The context begins a wait, under a new number. -/
def State.sleep (s : State) (c : CtxId) (w : Wait) : State :=
  s.setCtx c { s.ctx c with st := .waiting, wait := w, waitNo := (s.ctx c).waitNo + 1, waitIr := s.ir, due := false }
/-- A wait ends and its word is complete: the context is ready at the next word. -/
def State.wake (s : State) (c : CtxId) : State :=
  let s' := s.advance c
  s'.setCtx c { s'.ctx c with since := s.cyc, notBefore := max (s'.ctx c).notBefore (s.cyc + 1) }
/-- Schedule cycle of a context in timed exchange (R94). -/
def State.schedCycle (s : State) (c : CtxId) : Nat :=
  match (s.ctx c).timed with
  | some (_, t) => s.cyc - t
  | none => 0
/-- The cause of a word that would wait in timed exchange (R449), DETAIL 8 or 9. -/
def State.slotTrap (s : State) (c : CtxId) (detail : Nat) : State :=
  s.takeTrap c { cause := 48, detail := detail, val := s.schedCycle c } (s.ctx c).resume s.ir.toNat
/-- A word's wait, or its cause in timed exchange. -/
def State.sleepOr (s : State) (c : CtxId) (w : Wait) (detail : Nat) : State :=
  if (s.ctx c).timed.isSome then s.slotTrap c detail else s.sleep c w

/-- What becomes of the machine after the word of context c (R77, R411). -/
def State.finish (s : State) (c : CtxId) : Chk Out → State
  | .ok (.done t) => t.advance c
  | .ok (.goto t pc) => t.goOn c (Word.ofN pc)
  | .ok (.wait t w) => if (s.ctx c).timed.isSome then s.slotTrap c 9 else t.sleep c w
  | .ok (.call t why) => t.takeTrap c why ((t.ctx c).pc + 4) s.ir.toNat
  | .ok (.left t) => t
  | .error (.trap t) => s.takeTrap c t (s.ctx c).resume s.ir.toNat
  | .error (.late t why) => t.takeTrap c why (s.ctx c).resume s.ir.toNat
  | .error (.retry w) => s.sleepOr c w 9
  | .error (.walk va wr fetch) =>
    let t := s.sleep c .walk
    t.after 1 .tlbWalkEnd { ctx := c, ns := [va, if wr then 1 else 0, if fetch then 1 else 0, (t.ctx c).waitNo] }
  | .error (.stall k r) => s.sleepOr c (.operands k r) 8
  | .error (.ask t) => t.sleepOr c (.operands 6 0) 8
  | .error (.quit t) => t.advance c
  | .error .last => s.setCore c.core { s.core c.core with lastIssue := none, pushLast := some (s.cyc, c.k) }

/-- The state after a step of the hardware. -/
def done (s : State) : Host.Outcome State Fault Refusal := .next s

end Sys2Proof.Machine
end

