-- ==== Sys2Proof/Machine/Operands.lean ====
section
/-! DEFINITION. The operands of an instruction word: register fields by class, the direction codes of HINT.MOD that replace
them (R254, R255), links and streams, and the order of a word's causes (R418). -/

namespace Sys2Proof.Machine

/-- The register classes of R247 that a word reads or writes as values. -/
inductive Cls where
  | x | v | i | p | q
  deriving DecidableEq, Repr

/-- How a word uses a field (R244). -/
inductive Role where
  | read | write | both
  deriving DecidableEq, Repr

/-- A register field of a word. -/
structure Opr where
  cls : Cls
  role : Role
  reg : Nat
  deriving DecidableEq, Repr

/-- What a word is made of: its fields, the hints it takes (R253, R254), the core kinds that run it, and its level. -/
structure Sig where
  d : Option Opr := none
  a : Option Opr := none
  b : Option Opr := none
  c : Option Opr := none
  imm : Bool := false
  /-- Direction codes that fields D, A and B take. -/
  dd : Bool := false
  da : Bool := false
  db : Bool := false
  /-- Fields that name a register of class s, h, t, fd or e: 1 D, 2 A, 4 B. -/
  other : Nat := 0
  /-- Fields D and B may not name one register (R342). -/
  apart : Bool := false
  pred : Bool := false
  rnd : Bool := false
  sat : Bool := false
  scope : Bool := false
  span : Bool := true
  deck : Bool := true
  svc : Bool := true
  level : Level := .u
  deriving DecidableEq, Repr

/-- The payload of HINT.MOD by field (R254); all zero when the word has none. -/
structure Mod where
  pred : Nat := 0
  sat : Bool := false
  rnd : Nat := 0
  scope : Nat := 0
  dst : Nat := 0
  srcb : Nat := 0
  srca : Nat := 0
  deriving DecidableEq, Repr

/-- The fields of a HINT.MOD payload (R254). -/
def Mod.ofPayload (w : Nat) : Mod :=
  { pred := bits w 21 19, sat := bit w 18, rnd := bits w 17 15, scope := bits w 14 12, dst := bits w 11 8,
    srcb := bits w 7 4, srca := bits w 3 0 }

/-- What a word has in its hands when it takes effect: the values and tags of its source fields, and its hints. -/
structure Opnds where
  a : Nat := 0
  b : Nat := 0
  c : Nat := 0
  d : Nat := 0
  ta : Nat := 0
  tb : Nat := 0
  tc : Nat := 0
  td : Nat := 0
  m : Mod := {}
  imm : Option Nat := none
  /-- The active lanes (R296). -/
  pred : Nat := ones128
  deriving DecidableEq, Repr

/-- Does a context have a link or stream of a direction code (R247)? Codes 1 to 4 are mesh links, 5 nb.v, 8 to 15 streams. -/
def hasDir (k : CoreKind) (code : Nat) : Bool :=
  match k with
  | .span => true
  | .deck => code == 5
  | .service => false

/-- Cluster of a context. -/
def State.clOf (s : State) (c : CtxId) : Cluster := s.cluster c.core.cluster

/-- A register whose value is not complete stops the word that reads it (R395). Class numbers as in `Pend`. -/
def State.pending (s : State) (c : CtxId) (cls reg : Nat) : Bool :=
  let x := s.ctx c
  x.pend.any (fun p => p.cls == cls && p.reg == reg && (p.until_ == 0 || decide (s.cyc < p.until_))) ||
  s.flight.any (fun f => f.ctx == c && f.dcls == cls && f.dreg == reg) ||
  (s.core c.core).sfu.any (fun r => r.ctx == c && r.outs.any fun o => o.1 == cls && o.2.1 == reg)

/-- Does the context have a request at its core's special-function unit? -/
def State.sfuBusy (s : State) (c : CtxId) : Bool := (s.core c.core).sfu.any (·.ctx == c)

def Cls.num : Cls → Nat
  | .x => 1 | .v => 2 | .i => 3 | .p => 4 | .q => 5

/-- A poisoned doubleword of the window is reported by the word that reads it (R429). -/
def State.winPoison (s : State) (c : CtxId) (off n : Nat) : Chk Unit :=
  match (upFrom 0 ((n + 7) / 8)).find? fun j => s.poison.contains ((s.win c + off) / 8 * 8 + 8 * j) with
  | some j => trap 20 0 (7 * 1152921504606846976 + (c.k * 8192 + off) / 8 * 8 + 8 * j)
  | none => .ok ()

/-- The value and tag of a register. -/
def State.readReg (s : State) (c : CtxId) (o : Opr) : Chk (Nat × Nat) := do
  if s.pending c o.cls.num o.reg then throw (.stall o.cls.num o.reg)
  match o.cls with
  | .x => do if !s.poison.isEmpty then s.winPoison c (8 * o.reg) 8
             pure (s.rx c o.reg, 0)
  | .v => do if !s.poison.isEmpty then s.winPoison c (2048 + 128 * o.reg) 128
             pure (s.rv c o.reg, s.vtag c o.reg)
  | .i => do if !s.poison.isEmpty then s.winPoison c (6144 + 128 * o.reg) 128
             pure (s.ri c o.reg, s.itag c o.reg)
  | .p => do if !s.poison.isEmpty ∧ o.reg ≠ 0 then s.winPoison c (256 + 16 * o.reg) 16
             pure (s.rp c o.reg, 0)
  | .q => do if !s.poison.isEmpty then s.winPoison c (384 + 4 * o.reg) 4
             pure (s.rq c o.reg, 0)

/-! ### Links (R95, R96, R102, R449, R450) -/

/-- The value at a link for context c, without taking it. Outside timed exchange an empty nb.v waits. -/
def State.peekLink (s : State) (c : CtxId) (code : Nat) : Chk LinkVal :=
  let timed := (s.ctx c).timed.isSome
  if code < 5 then
    match (s.core c.core).links.find? (·.1 == code) with
    | some (_, v) => .ok v
    | none => trap 49 (if timed then 1 else 3) code
  else
    let fifo := match c.core.kind with
      | .span => (s.core c.core).down
      | _ => (s.core (c.core.spanOf ((s.ctx c).vsel.toNat % 4))).up
    match fifo with
    | v :: _ =>
      if v.at_ ≠ 0 then (if timed then trap 49 1 code else .error (.retry (.link false)))
      else if c.core.kind = .span ∧ v.tag = 16447 then (if timed then trap 49 1 code else .error (.retry (.link false)))
      else .ok v
    | [] => if timed then trap 49 1 code else .error (.retry (.link false))

/-- Lengths of a core's vertical FIFOs and their visible entries, down before up (R103). -/
def Core.fifoCounts (k : Core) : List Nat :=
  let seen (l : List LinkVal) := (l.filter (·.at_ == 0)).length
  [k.down.length, k.up.length, seen k.down, seen k.up]
/-- A core before the first pop or push of a cycle: its counts stand for the start of the cycle (R103). -/
def Core.noteFifo (k : Core) (cyc : Nat) : Core :=
  if k.fifoAt = cyc + 1 then k else { k with fifoAt := cyc + 1, fifoWas := k.fifoCounts }
/-- The counts at the start of a cycle. -/
def Core.fifoStart (k : Core) (cyc : Nat) : List Nat := if k.fifoAt = cyc + 1 then k.fifoWas else k.fifoCounts

/-- Results that wait for room in a FIFO go on once an entry has been popped, in the same cycle (R102). -/
def State.fifoRoom (s : State) (u : CoreId) (up : Bool) : State :=
  let k := s.core u
  let ws := if up then k.upWait else k.downWait
  if ws.isEmpty then s
  else ws.foldl (fun s e => s.after 0 e.1 e.2) (s.setCore u (if up then { k with upWait := [] } else { k with downWait := [] }))
/-- The state with a link's value consumed. -/
def State.takeLink (s : State) (c : CtxId) (code : Nat) : State :=
  if code < 5 then
    let u := s.core c.core
    s.setCore c.core { u with links := u.links.filter (·.1 != code) }
  else match c.core.kind with
    | .span =>
      let rest := (s.core c.core).down.drop 1
      let s := (s.setCore c.core { (s.core c.core).noteFifo s.cyc with down := rest }).fifoRoom c.core false
      if rest.any (·.tag == 16447) then s.after 0 .downFifoRecordTake { ctx := ⟨c.core, 0⟩ } else s
    | _ =>
      let u := c.core.spanOf ((s.ctx c).vsel.toNat % 4)
      (s.setCore u { (s.core u).noteFifo s.cyc with up := (s.core u).up.drop 1 }).fifoRoom u true

/-- The neighbour that a mesh link faces, and the code of the link it arrives at (R95, R96). -/
def CoreDir (u : CoreId) (code : Nat) : CoreId × Nat :=
  match code with
  | 1 => ({ u with y := u.y - 1 }, 3)
  | 2 => ({ u with x := u.x + 1 }, 4)
  | 3 => ({ u with y := u.y + 1 }, 1)
  | _ => ({ u with x := u.x - 1 }, 2)

/-- Does the schedule allow a write of a direction in the present schedule cycle (R97)? -/
def State.slotOpen (s : State) (c : CtxId) (code : Nat) : Bool :=
  let k := s.schedCycle c
  let u := s.core c.core
  decide (k < u.schedLen) && bit (Tab.get u.sched (code - 1) 0) k

/-- The span core whose vertical FIFOs nb.v reaches from a context (R102), and whether a push of the context is to its up FIFO. -/
def State.fifoCore (s : State) (c : CtxId) : CoreId := if c.core.kind = .span then c.core else c.core.spanOf ((s.ctx c).vsel.toNat % 4)
/-- The core that pops what a context pushes to nb.v. -/
def State.fifoPopper (s : State) (c : CtxId) : CoreId := if c.core.kind = .span then c.core.deck else s.fifoCore c
/-- Can a pop of a full FIFO still be placed before the push of this cycle (R102)? -/
def State.popToCome (s : State) (c : CtxId) : Bool :=
  (s.core (s.fifoPopper c)).lastIssue != some s.cyc && (s.core c.core).pushLast != some (s.cyc, c.k)
/-- Has the vertical FIFO that a context waits for an entry for it, or room for its push (R77, R102)? -/
def State.linkReady (s : State) (c : CtxId) (push : Bool) : Bool :=
  if push then
    let k := s.core (s.fifoCore c)
    decide ((if c.core.kind = .span then k.up else k.down).length < 8)
  else match s.peekLink c 5 with
    | .ok _ => true
    | .error _ => false
/-- Does an access bring back a value as a load does (MON reads too, R181)? -/
def Access.isLoad (f : Access) : Bool := match f.act with
  | .load => true
  | .mon _ _ => true
  | _ => false
/-- A fresh load of device memory, a view-checked read among them (R162, R197). -/
def Access.isFresh (f : Access) : Bool := f.isLoad && (f.kind == .f || f.kind == .v)
/-- An access that FENCE.O orders: eager store, fresh load, atomic (R170, R354; notes/assumptions/75). -/
def Access.fenced (f : Access) : Bool :=
  match f.act with
  | .atomic _ => true
  | .store => f.kind == .f
  | _ => f.isFresh
/-- What a release waits for and an acquire holds back (R169): also anchored accesses. -/
def Access.ordered (f : Access) : Bool := f.fenced || f.kind == .a
/-- Engine commands of a context with their footprints: copies of its own, gather descriptors, matrix commands, those that it sent
by MSEND or pushed to nb.v among them, and records still in a FIFO (R172, R400). -/
def State.engineCmds (s : State) (c : CtxId) : List (Nat × Foot) :=
  let cl := s.cluster c.core.cluster
  ((cl.copies.filter fun r => r.ctx == c && r.job.isNone).map fun r => (r.eid, r.foot)) ++
  ((cl.gq.filter (·.ctx == c)).map fun g => (g.eid, g.foot)) ++
  (((s.core c.core).mq.filter (·.src == some c)).map fun m => (m.eid, m.foot)) ++
  s.cores.flatMap fun e => ((e.2.mq.filter (·.via == some c)).map fun m => (m.eid, m.foot)) ++
    (e.2.down.filter (·.via == some c)).map fun v => (v.id, v.foot)
/-- Numbers of the engine commands that a context has issued. -/
def State.engineNow (s : State) (c : CtxId) : List Nat := (s.engineCmds c).map (·.1)
/-- The footprint of a record before its handle is known. -/
def Foot.whole : Foot := { wr := [(0, 2 ^ 66)] }
/-- What an engine command of the context waits for (R172, R400): its fresh, eager, anchored and atomic accesses, and its pool, crown
and window stores on their way. -/
def State.engineIds (s : State) (c : CtxId) : List Nat :=
  (s.flight.filter fun f => f.ctx == c && !f.performed &&
    (f.ordered || (!f.isLoad && (f.kind == .l || f.kind == .w || f.kind == .c)))).map (·.id)

/-- Write a value to a link (R95, R96, R102), or the cause of a write out of turn (R449, R450). -/
def State.putLink (s : State) (c : CtxId) (code val tag : Nat) : Chk State :=
  let timed := (s.ctx c).timed.isSome
  let v : LinkVal := { val := BitVec.ofNat 1024 val, tag := BitVec.ofNat 16 tag, at_ := s.cyc + 2 }
  if code < 5 then
    if !timed then trap 48 6 code
    else if !s.slotOpen c code then trap 48 code (s.schedCycle c) 7
    else
      let (u, back) := CoreDir c.core code
      .ok (s.after 2 .linkValueArrival { ctx := ⟨u, 0⟩, ns := [back, v.val.toNat, v.tag.toNat] })
  else
    if timed && !s.slotOpen c code then trap 48 5 (s.schedCycle c) 7
    else
      let up := c.core.kind = .span
      let u := s.fifoCore c
      let k := (s.core u).noteFifo s.cyc
      let fifo := if up then k.up else k.down
      if fifo.length ≥ 8 then
        (if s.popToCome c then .error .last else if timed then trap 49 2 code else .error (.retry (.link true)))
      else
        let v := if tag = 16447 ∧ !up then { v with after := s.engineIds c, behind := s.engineNow c, via := some c, id := s.nextId, foot := .whole } else v
        let s := s.setCore u (if up then { k with up := fifo ++ [v] } else { k with down := fifo ++ [v] })
        let s := if v.via.isSome then s.fresh else s
        .ok (s.after 2 .fifoEntryVisible { ctx := ⟨u, 0⟩, ns := [if up then 1 else 0] })

/-! ### The stages of a word -/

/-- Does a field name a register of a class that no direction code names? -/
def noDir (o : Option Opr) (other : Bool) : Bool :=
  other || match o with
    | some o => o.cls == .p || o.cls == .q
    | none => false
/-- A stream code at a field of class i, which takes links only (R333). -/
def noStream (o : Option Opr) (code : Nat) : Bool := decide (8 ≤ code) && match o with
  | some o => o.cls == .i
  | none => false
/-- Hint misuse at the target (R416, R418 first): DETAIL 4, 5 or 6, with the hint word (R413). -/
def hintCheck (g : Sig) (imm : Option Nat) (m : Mod) (pay : Nat) : Chk Unit := do
  match imm with
  | some p => if !g.imm then trap 4 4 (4227858432 + p)
  | none => pure ()
  let w := 4232052736 + pay
  let nd := m.dst != 0 && !g.dd
  let na := m.srca != 0 && !g.da
  let nb := m.srcb != 0 && !g.db
  let (cd, ca, cb) := (noDir g.d (bit g.other 0), noDir g.a (bit g.other 1), noDir g.b (bit g.other 2))
  if (m.pred != 0 && !g.pred) || (m.sat && !g.sat) || (m.rnd != 0 && !g.rnd) || (m.scope != 0 && !g.scope) ||
      (nd && !cd) || (na && !ca) || (nb && !cb) then trap 4 5 w 7
  if nd || na || nb || noStream g.d m.dst || noStream g.a m.srca || noStream g.b m.srcb then trap 4 6 w 7

/-- The register number that a field holds. -/
def oprReg (o : Option Opr) : Nat := match o with
  | some o => o.reg
  | none => 0

/-- A field that a direction replaces holds zero (R254); its cause is ILLEGAL. -/
def replacedCheck (g : Sig) (m : Mod) (w : Nat) : Chk Unit := do
  if m.dst != 0 && oprReg g.d != 0 then trap 1 0 w 2
  if m.srca != 0 && oprReg g.a != 0 then trap 1 0 w 3
  if m.srcb != 0 && oprReg g.b != 0 then trap 1 0 w 4
  if g.apart && m.dst == 0 && m.srcb == 0 && oprReg g.d == oprReg g.b then trap 1 0 w 4

/-- The instruction, or a link or stream, that the core kind lacks (R74, R247, R293, R330, R348, R375). -/
def unitCheck (g : Sig) (m : Mod) (k : CoreKind) (w : Nat) : Chk Unit := do
  if (k == .span && !g.span) || (k == .deck && !g.deck) || (k == .service && !g.svc) then trap 3 0 w
  if (m.dst != 0 && !hasDir k m.dst) || (m.srca != 0 && !hasDir k m.srca) || (m.srcb != 0 && !hasDir k m.srcb) then
    trap 3 0 w 7

/-- The level a word needs (R9, R415). -/
def levelCheck (lv need : Level) (w : Nat) : Chk Unit :=
  if lv.code < need.code then trap 2 0 w else .ok ()

/-- Bits of a code of a slot: those of its descriptor, 4 for E2M1, 6 for E3M2 and E2M3, else the 8 of a lane (R26, R31). -/
def codeWidth (slot : Nat) (fd : Nat → Nat) : Nat :=
  if slot < 16 then (if bit (fd slot) 6 then 1 else 0) + bits (fd slot) 5 3 + bits (fd slot) 2 0
  else if slot = 20 then 4 else if slot = 21 ∨ slot = 22 then 6 else 8
/-- Bytes of a vector element or register of a slot (R28, R299): 64 for widths of 4 or less, else 128. -/
def slotBytes (slot : Nat) (fd : Nat → Nat) : Nat := if codeWidth slot fd ≤ 4 then 64 else 128

/-- Descriptor k of a core (R25). -/
def State.fdOf (s : State) (u : CoreId) (k : Nat) : Nat := (Tab.get (s.core u).fd k 0).toNat

end Sys2Proof.Machine
end

