-- ==== Sys2Proof/Machine/Write.lean ====
section
/-! DEFINITION. Writes: what a performed write sets off at its location (R80, R161, R181, R190, R398, R429), and at the barriers
and homes that watch a counter there (R91, R92, R111, R358). -/

namespace Sys2Proof.Machine

/-! ### What a performed write sets off -/

/-- Watch entry n of a context. -/
def Ctx.watchAt (x : Ctx) : Nat → Watch
  | 0 => x.watch0 | 1 => x.watch1 | 2 => x.watch2 | _ => x.watch3
def Ctx.setWatch (x : Ctx) (n : Nat) (w : Watch) : Ctx :=
  match n with
  | 0 => { x with watch0 := w } | 1 => { x with watch1 := w } | 2 => { x with watch2 := w } | _ => { x with watch3 := w }
/-- Bytes of a mask over a location that lie in a range and are written there under a mask. -/
def hitBytes (at_ m key n mask : Nat) : Nat → Nat
  | 0 => 0
  | j + 1 =>
    let k := at_ + j
    hitBytes at_ m key n mask j + if bit m j && decide (key ≤ k) && decide (k < key + n) && bit mask (k - key) then 2 ^ j else 0
/-- Does a write under a mask reach a doubleword? -/
def reachesWord (word key n mask : Nat) : Bool :=
  decide (word < key + n) && decide (key < word + 8) && hitBytes word 255 key n mask 8 != 0
/-- An entry fires when a write is performed on its doubleword (R181). -/
def Watch.hit (w : Watch) (key n mask : Nat) (mark : Bool) : Watch :=
  if w.armed && reachesWord w.key key n mask then { w with armed := false, fired := true, mark := mark } else w
/-- WATCH_FIRE (R181): every armed entry on a written location fires; `mark` tells that a copy's stamp is written (R177). -/
def State.fireWatch (s : State) (key n mask : Nat) (mark : Bool := false) : State :=
  { s with ctxs := s.ctxs.map fun e =>
      (e.1, { e.2 with watch0 := e.2.watch0.hit key n mask mark, watch1 := e.2.watch1.hit key n mask mark,
                       watch2 := e.2.watch2.hit key n mask mark, watch3 := e.2.watch3.hit key n mask mark }) }

/-- The block of a master that a byte of device memory lies in (R183). -/
def Master.blockOf (m : Master) (key : Nat) : Option Nat :=
  match m.pa.findIdx? fun g => decide (g ≤ key) && decide (key < g + 16384) with
  | some i => some (if m.slot = 26 then i / 4 else i / 2)
  | none => none

/-- MASTER_STAMP_INCREMENT (R190): one write to a block. Its dirty bit set anew is noticed by the engine (R191, R466). -/
def State.stampBlock (s : State) (p : Nat) (m : Master) (b : Nat) : State :=
  let m' := { m with stamps := Tab.set m.stamps b (Tab.get m.stamps b 0 + 1),
                     dirty := if m.dirty.contains b then m.dirty else m.dirty ++ [b] }
  let y := s.pylon p
  let s := s.setPylon p { y with masters := y.masters.map fun k => if k.mid = m.mid then m' else k }
  if m.dirty.contains b then s else s.after 130 .dirtyNotice { ns := [m.mid, b] }

/-- The blocks of all master tensors that a range of a write falls in: pylon, master, block. -/
def State.blocksOf (s : State) (key n : Nat) : List (Nat × Nat × Nat) :=
  let at_ (k : Nat) := (upFrom 0 8).flatMap fun p => ((s.pylon p).masters.filter (·.live)).filterMap fun m =>
    (m.blockOf k).map fun b => (p, m.mid, b)
  (at_ key ++ at_ (key + n - 1)).eraseDups
/-- Writes to ranges that count as one count once for every master block they fall in (R190, R207). -/
def State.stampAll (s : State) (ps : List (Nat × Nat)) : State :=
  ((ps.flatMap fun p => s.blocksOf p.1 p.2).eraseDups).foldl (fun s e => match (s.pylon e.1).masters.find? (·.mid == e.2.1) with
    | some m => s.stampBlock e.1 m e.2.2
    | none => s) s
/-- A write counts once for every master block it falls in (R190). -/
def State.stamp (s : State) (key n : Nat) : State := s.stampAll [(key, n)]

/-- The master whose hold covers a write (R193). -/
def State.holdOf (s : State) (key n : Nat) : Option Nat :=
  if isDevice key ∧ s.pylons.any (fun y => y.2.masters.any (·.hold.isSome)) then
    (s.blocksOf key n).findSome? fun e =>
      if (s.pylon e.1).masters.any fun m => m.mid == e.2.1 && m.hold == some e.2.2 then some e.2.1 else none
  else none
/-- The step in hand waits at a home until the release. -/
def State.holdWrite (s : State) (mid : Nat) (i : Instr) : State := { s with heldWrites := s.heldWrites ++ [(mid, i, s.arg)] }
/-- The release of a master's block: the writes held for it go on in their order of arrival. -/
def State.letWrites (s : State) (mid : Nat) : State :=
  (s.heldWrites.filter (·.1 == mid)).foldl (fun s e => s.after 0 e.2.1 e.2.2)
    { s with heldWrites := s.heldWrites.filter (·.1 != mid)
             pylons := s.pylons.map fun y => (y.1, { y.2 with masters := y.2.masters.map fun m =>
               if m.mid = mid then { m with hold := none } else m }) }

/-- EXPECTATION_MET (R358): the barriers whose expectations name a counter take its value. -/
def Barrier.counter (b : Barrier) (pa val cyc : Nat) : Barrier :=
  let upd (e : Expect) : Expect := if e.pa = pa then { e with met := if e.thr ≤ val then some (e.met.getD cyc) else none } else e
  { b with exps := b.exps.map upd, nextExps := b.nextExps.map upd }

/-- A barrier is complete when every member core with a live context has arrived and every expectation is met, those posted in
this cycle apart (R358, R461). -/
def Barrier.complete (b : Barrier) (members : List CoreId) (cyc : Nat) : Bool :=
  !b.cores.isEmpty && members.all (fun u => b.cores.any (·.1 == u)) && b.exps.all fun e => e.met.isSome || e.at_ == cyc

/-- Is a domain of a launch a pylon domain (R90)? -/
def Launch.pylonDomain (l : Launch) (dom : Nat) : Bool :=
  match (Tab.get l.doms dom []) with
  | [] => true
  | u :: us => us.all (·.pyl == u.pyl)

/-- The contexts of a launch on a core: the core's own, or those that another launch's turn has put aside (R215). -/
def State.ctxsOf (s : State) (l : Launch) (u : CoreId) : List Ctx :=
  if (s.core u).lid = l.id then u.ctxs.map (s.ctx ·)
  else ((s.away.find? fun e => e.1 == u && e.2.1.lid == l.id).map (·.2.2)).getD []
/-- Members that take part: those with a live context (R461). -/
def State.partakers (s : State) (l : Launch) (dom : Nat) : List CoreId :=
  (Tab.get l.doms dom []).filter fun u => (s.ctxsOf l u).any (·.live)

/-- Is a domain bound to a system group in a pylon (R236)? -/
def State.binding (s : State) (pyl dom : Nat) : Option Nat :=
  let w := Mem.read s.mem (ctlBase + 50356224 + pyl * 512 + 8 * dom) 8
  if bit w 63 then some (w % 16) else none

/-- PTO (R458). -/
def State.pto (s : State) : Nat := Mem.read s.mem (ctlBase + 50343936) 4
/-- Set the release of a complete barrier going (R92, R236, R458): 96 or 420 cycles on, or the system group's arrival, which PTO bounds. -/
def State.tryRelease (s : State) (l : Launch) (dom : Nat) : State :=
  let b := Tab.get l.barriers dom {}
  let parts := s.partakers l dom
  if b.complete parts s.cyc ∧ b.due = none ∧ b.sysArrived = false then
    let b := { b with exps := b.exps.filter (·.at_ != s.cyc), nextExps := b.exps.filter (·.at_ == s.cyc) }
    match s.binding ((parts.headD ⟨.span, 0, 0, 0⟩).pyl) dom with
    | some g =>
      let s := s.setLaunch { l with barriers := Tab.set l.barriers dom { b with sysArrived := true } }
      { s with sysArr := s.sysArr ++ [(g, l.id, dom)] }.after s.pto .peerTimeout { ns := [0, l.id, dom, b.first.getD 0] }
    | none =>
      let t := s.cyc + (if l.pylonDomain dom then 96 else 420)
      (s.setLaunch { l with barriers := Tab.set l.barriers dom { b with due := some t } }).at_ t .barrierRelease
        { ns := [l.id, dom] }
  else s

/-- Registered counters (R111, R358): reports to homes and expectations; `regress` is what follows when a counter has gone down,
once for those that watch it and once for the expectations (R444). -/
def State.counterWriteBy (s : State) (key n : Nat) (regress : State → Reg → State) : State :=
  let h := homeOf key
  let hit := (s.home h).regs.filter fun r => decide (r.pa < key + n) && decide (key < r.pa + 8)
  if hit.isEmpty then s else
    let down := hit.filter fun r => decide (Mem.read s.mem r.pa 8 < r.last)
    let first (r : Reg) : Bool := down.find? (fun q => q.pa == r.pa && q.home.isSome == r.home.isSome) == some r
    let s := ((down.filter first).eraseDups).foldl regress s
    let upd (r : Reg) : Reg := if hit.contains r then { r with last := Mem.read s.mem r.pa 8 } else r
    let s := s.setHome h { s.home h with regs := (s.home h).regs.map upd }
    let s := hit.foldl (fun s r => match r.home with
      | some g => s.after (hop h g) .counterReport { ns := [g, r.pa, Mem.read s.mem r.pa 8] }
      | none =>
        s.launches.foldl (fun s l => l.barriers.foldl (fun s b =>
          match s.launch l.id with
          | none => s
          | some l =>
            let b' := (Tab.get l.barriers b.1 {}).counter r.pa (Mem.read s.mem r.pa 8) s.cyc
            let l := { l with barriers := Tab.set l.barriers b.1 b' }
            (s.setLaunch l).tryRelease l b.1) s) s) s
    s

/-- The doubleword at window offset 0 of a provisioned window reads as zero whatever is stored (R80). -/
def State.hardZero (s : State) (key : Nat) : Bool :=
  if poolBase ≤ key ∧ key < crownBase then
    let i := (key - poolBase) / 262144
    let u : CoreId := ⟨.span, i / 2048, i / 32 % 64, i % 32⟩
    let r := (key - poolBase) % 262144
    let b := (s.core u).unit * 65536
    decide (b ≤ r) && decide ((r - b) % 8192 < 8) && decide ((r - b) / 8192 < s.nwin u)
  else if deckBase ≤ key ∧ key < svcBase then
    let r := (key - deckBase) % 65536
    decide (r < 32768) && decide (r % 8192 < 8)
  else if svcBase ≤ key ∧ key < hostBase then
    let r := (key - svcBase) % 262144
    decide (r < 32768) && decide (r % 8192 < 8)
  else false

/-- The n bytes at a location as any agent reads them. -/
def State.rdMem (s : State) (key n : Nat) : Nat :=
  if s.hardZero key then (if n ≤ 8 then 0 else Mem.read s.mem (key + 8) (n - 8) * 18446744073709551616) else Mem.read s.mem key n

/-- The unit of poison that holds a byte (R429): a 64-byte line of device memory, else a doubleword. -/
def poisonUnit (key : Nat) : Nat := if isDevice key then key / 64 * 64 else key / 8 * 8
/-- Does a range meet a poisoned unit? The lowest such unit. -/
def State.poisoned (s : State) (key n : Nat) : Option Nat :=
  s.poison.find? fun u => decide (u < key + n) && decide (key < u + (if isDevice u then 64 else 8))
/-- A write of a whole poisoned unit, every byte of it active, clears the poison (R429). -/
def State.clearPoison (s : State) (key n mask : Nat) : State :=
  if s.poison.isEmpty then s else
    { s with poison := s.poison.filter fun u =>
        let w := if isDevice u then 64 else 8
        !(decide (key ≤ u) && decide (u + w ≤ key + n) && decide (mask / 2 ^ (u - key) % 2 ^ w + 1 = 2 ^ w)) }

/-- A buffered doubleword after a write of another agent: the bytes it reached are no longer what its context reads (R161). -/
def Held.overtake (h : Held) (key n mask : Nat) : Held := { h with lost := h.lost ||| hitBytes h.key h.mask key n mask 8 }
/-- A buffered doubleword after a later store of its own context that stands elsewhere (R161). -/
def Held.cover (h : Held) (key n mask : Nat) : Held := { h with later := h.later ||| hitBytes h.key h.mask key n mask 8 }
/-- A loan's buffer after such a store. -/
def Ctx.coverLoan (x : Ctx) (key n mask : Nat) : Ctx :=
  { x with grant := x.grant.map fun g => { g with buf := g.buf.map (·.cover key n mask) } }
/-- The publish buffer after such a store. -/
def Ctx.coverHeld (x : Ctx) (key n mask : Nat) : Ctx := { x with publish := x.publish.map (·.cover key n mask) }
/-- Bytes of a range that a loan's buffer holds, for its task's anchored loads (R122). -/
def loanMask (x : Ctx) (key n : Nat) : Nat :=
  match x.grant with
  | some g => (upFrom 0 n).foldl (fun m j =>
      if g.buf.any fun h => decide (h.key ≤ key + j) && decide (key + j < h.key + 8) && bit h.mask (key + j - h.key) &&
          !bit h.later (key + j - h.key) then m + 2 ^ j else m) 0
  | none => 0
/-- A write of an agent comes after the buffered stores of every other context, and their loads on the way do not return these
over it (R161, R171); what a loan's buffer holds stays what its task's anchored loads return (R122). -/
def State.overtake (s : State) (key n mask : Nat) (writer : Option CtxId) : State :=
  let load (f : Access) : Access :=
    if f.act = .load ∧ f.mask ≠ 0 ∧ !f.performed ∧ some f.ctx ≠ writer then
      let hit := hitBytes f.key f.mask key n mask f.n
      { f with mask := f.mask - (hit - (hit &&& if f.kind = .a then loanMask (s.ctx f.ctx) f.key f.n else 0)) } else f
  { s with ctxs := s.ctxs.map fun e => if some e.1 = writer ∨ (e.2.publish.isEmpty ∧ e.2.grant = none) then e else
             (e.1, { e.2 with publish := e.2.publish.map (·.overtake key n mask)
                              grant := e.2.grant.map fun g => { g with buf := g.buf.map (·.overtake key n mask) } })
           flight := s.flight.map load }

/-- Bytes written at a location by an agent, with what follows there (R80, R161, R181, R398, R429). -/
def State.wrBytes (s : State) (key n val mask : Nat) (writer : Option CtxId) : State :=
  let mask := if s.hardZero key then mask / 256 * 256 else mask
  let s : State := { s with mem := Mem.writeMask s.mem key n val mask
                            marks := s.marks.filter fun m => hitBytes m 255 key n mask 8 == 0 }
  let s := (s.clearPoison key n mask).fireWatch key n mask
  if isDevice key then s.overtake key n mask writer else s
/-- Doublewords of a record that the module itself writes with eager stores, as any write counts (R238, R241, R446); `regress` is what
follows a counter that one of them sets back (R444). -/
def State.wrRecord (s : State) (key : Nat) (regress : State → Reg → State) : List Nat → State
  | [] => s
  | w :: ws => (((s.wrBytes key 8 w 255 none).stamp key 8).counterWriteBy key 8 regress).wrRecord (key + 8) regress ws

end Sys2Proof.Machine
end

