-- ==== Sys2Proof/Machine/Translate.lean ====
section
/-! DEFINITION. Translation (R155 to R159), the places that addresses reach (R144 to R146), and the causes found before an
access is issued (R422 to R426). -/

namespace Sys2Proof.Machine

/-- The stored doubleword at a control-space offset. -/
def State.ctl (s : State) (o : Nat) : Nat := Mem.read s.mem (ctlBase + o) 8
/-- The stored doubleword replaced. -/
def State.setCtl (s : State) (o v : Nat) : State := { s with mem := Mem.write s.mem (ctlBase + o) 8 v }
/-- First offset of a home's block (R135). -/
def homeBlock (h : Nat) : Nat := 16777216 + h * 65536

/-- A soft error that a home has corrected is counted (R430). -/
def State.countCorrected (s : State) (h : Nat) : State :=
  let o := homeBlock h + 2064
  let w := s.ctl o
  s.setCtl o (min (w / 4294967296 + 1) 4294967295 * 4294967296 + w % 4294967296)
/-- A poisoned read is reported in its home's counters (R430). -/
def State.countPoison (s : State) (key : Nat) : State :=
  if isDevice key then
    let o := homeBlock (homeOf key) + 2064
    let w := s.ctl o
    let w' := w / 4294967296 * 4294967296 + min (w % 4294967296 + 1) 4294967295
    (s.setCtl o w').setCtl (o + 8) (2 ^ 63 + poisonUnit key)
  else s
/-- The TLB that a core uses: its cluster's, or one of its own for the service cores. -/
def tlbNo (u : CoreId) : Nat := if u.kind = .service then 4096 else u.cluster

/-- Partition system address space p: ASID in the first doubleword, root in the second (R412). DEDUCED order. -/
def State.sysAsid (s : State) (p : Nat) : Nat := Mem.read s.mem (ctlBase + 4416 + 16 * p) 8 % 65536 + 65536 * p
def State.sysRoot (s : State) (p : Nat) : Nat := Mem.read s.mem (ctlBase + 4416 + 16 * p + 8) 8

/-- The address space of a context: its ASID, with its partition above bit 16, as two partitions may give one ASID to two launches (R155,
R229). -/
def State.spaceOf (s : State) (c : CtxId) : Nat := (s.ctx c).asid.toNat + 65536 * (s.launchOf c.core).elim 0 (·.part)
/-- Root and partition of an address space: a launch's (R155), else a partition's system space (R412), else that of a command
issued at S (R209); else, for who names an ASID alone, the first of any partition. -/
def State.rootOf (s : State) (space : Nat) : Nat × Option Nat :=
  let find (f : Nat → Nat) : Option (Nat × Option Nat) :=
    match s.launches.find? fun l => f l.asid == space with
    | some l => some (l.root, some l.part)
    | none => match (upFrom 0 8).find? fun p => s.sysRoot p != 0 && f (s.sysAsid p) == space with
      | some p => some (s.sysRoot p, some p)
      | none => (s.roots.find? fun r => f r.1 == space).map fun r => (r.2.1, some r.2.2)
  ((find id).orElse fun _ => find (· % 65536)).getD (0, none)

/-- Do the bytes lo to lo + n − 1 lie within one valid PA range of a partition (R229)? A number above 7 is no partition's. -/
def State.admits (s : State) (part : Option Nat) (lo n : Nat) : Bool :=
  match part with
  | none => true
  | some p => decide (p < 8) && (upFrom 0 4).any fun r =>
      let d0 := Mem.read s.mem (ctlBase + 4608 + 64 * p + 16 * r) 8
      let d1 := Mem.read s.mem (ctlBase + 4608 + 64 * p + 16 * r + 8) 8
      bit d0 63 && decide (bits d0 39 16 * 65536 ≤ lo) && decide (lo + n ≤ bits d1 39 16 * 65536 + 65536)

/-- A walk's end; bits of a leaf's address below its page size count as 0 (notes/assumptions/85): the translation with the location of its entry, or cause 0x10 or 0x11 with its DETAIL (R425). -/
def walkLeaf (s : State) (part : Option Nat) (asid va e key lvl : Nat) (wr fetch : Bool) : Except (Nat × Nat) (Tlb × Nat) :=
  let big := decide (lvl = 2)
  let size := if big then 2097152 else 65536
  let pa := bits e 39 12 * 4096 / size * size
  if bits e 11 10 ≠ 0 ∨ bit e 7 ∨ bits e 5 4 ≠ 0 then .error (16, lvl * 64 + 2)
  else if bits e 47 40 ≠ 0 then .error (16, lvl * 64 + 5)
  else if !s.admits part pa size then .error (16, lvl * 64 + 4)
  else if wr && !bit e 1 then .error (17, 1)
  else if fetch && !bit e 2 then .error (17, 2)
  else .ok ({ asid := asid, page := va / size, big := big, pa := pa, w := bit e 1, x := bit e 2, vsrc := bit e 6,
              d := bit e 9 || wr }, key)

/-- The walk from an entry at level lvl (R156, R157); `fuel` counts the levels left. With 0 for a cause it meets a home that is off, and
finds no answer (R233). -/
def walkFrom (s : State) (part : Option Nat) (asid va : Nat) (wr fetch : Bool) :
    Nat → Nat → Nat → Except (Nat × Nat) (Tlb × Nat)
  | 0, _, _ => .error (16, 3)
  | fuel + 1, lvl, key =>
    let e := Mem.read s.mem key 8
    if s.off (homeOf key / 64) then .error (0, lvl * 64 + 1)
    else if !bit e 0 then .error (16, lvl * 64 + 1)
    else if lvl < 2 then
      if bits e 11 4 ≠ 0 then .error (16, lvl * 64 + 2)
      else if bit e 3 then .error (16, lvl * 64 + 3)
      else if bits e 47 40 ≠ 0 then .error (16, lvl * 64 + 5)
      else if !s.admits part (bits e 39 12 * 4096) 4096 then .error (16, lvl * 64 + 4)
      else walkFrom s part asid va wr fetch fuel (lvl + 1)
        (bits e 39 12 * 4096 + 8 * (if lvl = 0 then bits va 38 30 else bits va 29 21))
    else if bit e 3 then walkLeaf s part asid va e key lvl wr fetch
    else if lvl = 3 then .error (16, 195)
    else if bits e 7 4 ≠ 0 then .error (16, lvl * 64 + 2)
    else if bits e 47 40 ≠ 0 then .error (16, lvl * 64 + 5)
    else if !s.admits part (bits e 39 12 * 4096 + bits e 11 8 * 256) 256 then .error (16, lvl * 64 + 4)
    else walkFrom s part asid va wr fetch fuel 3 (bits e 39 12 * 4096 + bits e 11 8 * 256 + 8 * bits va 20 16)

/-- A whole walk in an address space. One that belongs to no partition is admitted nothing, but for the hypervisor's own, to which
the partitions' ranges do not apply (R229). -/
def State.walk (s : State) (asid va : Nat) (wr fetch hyp : Bool) : Except (Nat × Nat) (Tlb × Nat) :=
  let (root, part) := s.rootOf asid
  let part := if hyp then part else some (part.getD 8)
  if !s.admits part root 4096 then .error (16, 4)
  else walkFrom s part asid va wr fetch 4 0 (root + 8 * bits va 47 39)

/-- The physical address that a translation gives (R156). -/
def Tlb.addr (e : Tlb) (va : Nat) : Nat := e.pa + va % (if e.big then 2097152 else 65536)
/-- Does a TLB entry map an address of an address space? -/
def Tlb.maps (e : Tlb) (asid va : Nat) : Bool :=
  e.asid == asid && va / (if e.big then 2097152 else 65536) == e.page

/-- A and D of the entry at a location, set by an atomic OR at its home (R158), at every walk (notes/assumptions/85). -/
def State.setAD (s : State) (key : Nat) (wr : Bool) : State :=
  let e := Mem.read s.mem key 8
  (s.wrBytes key 8 (e ||| 256 ||| if wr then 512 else 0) 255 none).stamp key 8

/-- An address translated by a walk of an engine, a home or the command processor, with A and D set (R158); one that finds a home off
does not translate (notes/assumptions/85). -/
def State.engineWalk (s : State) (asid va : Nat) (wr : Bool) : Except (Nat × Nat) (State × Tlb) :=
  match s.walk asid va wr false false with
  | .error (0, d) => .error (16, d)
  | .error e => .error e
  | .ok (t, key) => .ok (s.setAD key wr, t)

/-- The address that a TLB holds for a context's access, or the walk it must wait for (R159, R422). -/
def State.translate (s : State) (c : CtxId) (va : Nat) (wr fetch : Bool) : Chk Nat :=
  let x := s.ctx c
  let asid := s.spaceOf c
  let find (l : List Tlb) := l.find? (Tlb.maps · asid va)
  match (find (s.cluster (tlbNo c.core)).tlb).orElse fun _ => find (s.pylon c.core.pyl).tlb with
  | some e =>
    if wr && !e.w then trap 17 1 va
    else if fetch && !e.x then trap 17 2 va
    else if wr && !e.d then .error (.walk va wr fetch)
    else .ok (e.addr va)
  | none =>
    match x.walked with
    | some t => if t.val = va then .error (.trap t) else .error (.walk va wr fetch)
    | none => .error (.walk va wr fetch)

/-- Put a walk's entry into the TLBs of the cluster and the pylon, the oldest entry making room (R159). -/
def State.tlbFill (s : State) (u : CoreId) (e : Tlb) : State :=
  let keep (l : List Tlb) (n : Nat) := (e :: l.filter fun f => !(f.asid == e.asid && f.big == e.big && f.page == e.page)).take n
  let k := tlbNo u
  let s := s.setCluster k { s.cluster k with tlb := keep (s.cluster k).tlb 512 }
  s.setPylon u.pyl { s.pylon u.pyl with tlb := keep (s.pylon u.pyl).tlb 8192 }

/-- Where an address leads: the key of its first byte, the home or the core that orders it, and the round trip (R147). -/
structure Place where
  key : Nat
  home : Option Nat := none
  owner : Option CoreId := none
  peer : Bool := false
  ctl : Bool := false
  lat : Nat := 4
  deriving DecidableEq, Repr

/-- The coordinate fields of a space 0x4, 0x6 or 0xC address, or of a relative one (R144, R145). -/
def addrCore (kind : CoreKind) (va : Nat) : CoreId := ⟨kind, bits va 59 57, bits va 56 51, bits va 50 46⟩

/-- POOL_HOLE (R426): the core must belong to the launch and the offset to its pool. -/
def State.holeCheck (s : State) (c : CtxId) (u : CoreId) (off lim va : Nat) : Chk Unit :=
  match s.launchOf c.core with
  | none => trap 18 1 va
  | some l =>
    if !bit l.pyls u.pyl then trap 18 3 va
    else if !l.has u then trap 18 1 va
    else if off ≥ lim then trap 18 4 va
    else if (s.cluster u.cluster).power = .failed then trap 18 6 va
    else .ok ()

/-- The place of a pool, crown, window or local address (R144, R145, R213). `ok4` tells that the kind fits the space. -/
def State.localPlace (s : State) (c : CtxId) (va : Nat) (kindOk : Bool) : Chk Place := do
  let sp := bits va 63 60
  let svc := c.core.kind == .service
  if sp = 4 then
    if bits va 45 18 ≠ 0 then trap 17 4 va
    if svc then trap 17 6 va
    if !kindOk then trap 17 3 va
    let u := addrCore .span va
    s.holeCheck c u (bits va 17 0) ((s.core c.core).fp * 65536) va
    pure { key := s.ownBase u + bits va 17 0, owner := some u, lat := latPool c.core u }
  else if sp = 5 then
    if bits va 59 57 ≠ 0 ∨ bits va 45 18 ≠ 0 then trap 17 4 va
    if svc then trap 17 6 va
    if !kindOk then trap 17 3 va
    let y := (c.core.y : Int) + sext (bits va 56 51) 6
    let x := (c.core.x : Int) + sext (bits va 50 46) 5
    if y < 0 ∨ 63 < y ∨ x < 0 ∨ 31 < x then trap 18 2 va
    let u : CoreId := ⟨.span, c.core.pyl, y.toNat, x.toNat⟩
    s.holeCheck c u (bits va 17 0) ((s.core c.core).fp * 65536) va
    pure { key := s.ownBase u + bits va 17 0, owner := some u, lat := latPool c.core u }
  else if sp = 6 then
    if bits va 45 18 ≠ 0 then trap 17 4 va
    if svc then trap 17 6 va
    if !kindOk then trap 17 3 va
    let u := addrCore .span va
    s.holeCheck c u 0 1 va
    if !(s.core c.core).crn then trap 18 5 va
    pure { key := crownKey u (bits va 17 0), owner := some u, lat := latPool c.core u }
  else if sp = 12 then
    if bits va 45 16 ≠ 0 then trap 17 4 va
    if svc then trap 17 6 va
    if !kindOk then trap 17 3 va
    let u := (addrCore .deck va).deck
    s.holeCheck c u 0 1 va
    pure { key := deckKey u (bits va 15 0), owner := some u, lat := latPool c.core u }
  else
    if bits va 59 18 ≠ 0 then trap 17 4 va
    if !kindOk then trap 17 3 va
    pure { key := s.ownBase c.core + bits va 17 0, owner := some c.core }

/-- Offsets of control space that R20 to R460 assign. -/
def ctlAssigned (o : Nat) : Bool :=
  o % 8 == 0 && (
  (decide (65536 ≤ o) && decide (o < 67584)) || (decide (67584 ≤ o) && decide (o < 67648)) ||
  (decide (4096 ≤ o) && decide (o < 4160)) || o == 4224 || (decide (4352 ≤ o) && decide (o < 4416)) ||
  (decide (4416 ≤ o) && decide (o < 4544)) || o == 4544 || (decide (4608 ≤ o) && decide (o < 5120)) ||
  (decide (16777216 ≤ o) && decide (o < 50331648) &&
    (let r := o % 65536
     decide (r < 512) || r == 2048 || r == 2064 || r == 2072 || r == 2080 || (decide (4096 ≤ r) && decide (r < 8192)))) ||
  (decide (50331648 ≤ o) && decide (o < 50333696)) || o == 50335744 || (decide (50339840 ≤ o) && decide (o < 50341888)) ||
  o == 50343936 || (decide (50348032 ≤ o) && decide (o < 50348176)) || (decide (50352128 ≤ o) && decide (o < 50352256)) ||
  (decide (50356224 ≤ o) && decide (o < 50360320)) ||
  (decide (67108864 ≤ o) && decide (o < 67110912) && decide (o % 256 < 32)) ||
  (decide (67112960 ≤ o) && decide (o < 67115008) && decide (o % 256 < 32)) ||
  (decide (83886080 ≤ o) && decide (o < 83886592)) || (decide (83886592 ≤ o) && decide (o < 83886656)) ||
  (decide (100663296 ≤ o) && decide (o < 100665344) && decide (o % 256 < 24)) ||
  o == 117440512 || o == 117440520 || o == 117440528 ||
  (decide (134217728 ≤ o) && decide (o < 135266304) && decide (o % 256 < 32)))

/-- Is a control word written at H only (R415)? -/
def ctlHOnly (o : Nat) : Bool :=
  (decide (4096 ≤ o) && decide (o < 4160)) || o == 4224 || (decide (4416 ≤ o) && decide (o < 5120)) ||
  (decide (16777216 ≤ o) && decide (o < 50331648) && !(o % 65536 == 2064) && !(o % 65536 == 2072)) ||
  (decide (50331648 ≤ o) && decide (o < 50348032)) || (decide (50352128 ≤ o) && decide (o < 50360320)) ||
  (decide (83886080 ≤ o) && decide (o < 83886592)) || o == 117440512 || o == 117440520 || o == 117440528

/-- The place of an address of any space for an access of n bytes (R144 to R146, R425): `wr` for a store or atomic. -/
def State.place (s : State) (c : CtxId) (va n : Nat) (kind : AccKind) (wr : Bool) : Chk Place := do
  let sp := bits va 63 60
  if sp = 15 ∧ (s.ctx c).level = .u then trap 2 0 s.ir.toNat
  if sp = 0 then
    if bits va 59 48 ≠ 0 then trap 17 4 va
    if !(kind == .g || kind == .f || kind == .a || (kind == .v && !wr)) then trap 17 3 va
    let pa ← s.translate c va wr false
    pure { key := pa, home := some (homeOf pa), lat := latHome c.core (homeOf pa) }
  else if sp = 8 then
    if bits va 59 56 ≠ 0 then trap 17 4 va
    if !(kind == .s || (kind == .g && !wr)) then trap 17 3 va
    pure { key := va, peer := true, lat := 0 }
  else if sp = 15 then
    if !(kind == .f) || n != 8 then trap 17 3 va
    if !ctlAssigned (bits va 59 0) then trap 17 5 va
    if wr && (s.ctx c).level == .s && ctlHOnly (bits va 59 0) then trap 2 0 s.ir.toNat
    pure { key := ctlBase + bits va 59 0, ctl := true, lat := 260 }
  else if sp = 4 ∨ sp = 5 ∨ sp = 12 then s.localPlace c va (kind == .l)
  else if sp = 6 then s.localPlace c va (kind == .c)
  else if sp = 7 then s.localPlace c va (kind == .w)
  else trap 17 4 va

/-- WINDOW DETAIL 4 and 5 of a .w access (R418): offsets that exist, and whose window it is. -/
def State.windowCheck (s : State) (c : CtxId) (va : Nat) (wr : Bool) : Chk Unit := do
  if bits va 63 60 = 7 ∧ bits va 59 18 = 0 then
    let off := bits va 17 0
    let inWin := decide (off < s.nwin c.core * 8192)
    if c.core.kind != .service && !inWin then trap 10 4 off
    if inWin && decide (768 ≤ off % 8192) && decide (off % 8192 < 1024) then trap 10 4 off
    let o : CtxId := ⟨c.core, off / 8192⟩
    if wr && inWin && o != c && (s.ctx o).live && (s.ctx o).st != .stopped then trap 10 5 off

/-- ANCHOR DETAIL 7 and 8 of an anchored access of n bytes (R442); `ea` is the address that its word formed (R423). -/
def State.anchorCheck (s : State) (c : CtxId) (ea va n : Nat) : Chk Unit :=
  match (s.ctx c).grant with
  | none => trap 54 8 ea
  | some g => if g.va ≤ va ∧ va + n ≤ g.va + 8 * g.len8 then .ok () else trap 54 7 ea

/-- A block of n bytes, aligned to n, in the issuer's own pool, local or private memory (R418, R425 DETAIL 7). -/
def State.ownBlock (s : State) (c : CtxId) (va n : Nat) : Chk Nat := do
  let sp := bits va 63 60
  if sp = 15 ∧ (s.ctx c).level = .u then trap 2 0 s.ir.toNat
  if va % n ≠ 0 then trap 5 0 va
  match c.core.kind with
  | .span =>
    let p ← s.place c va n .l false
    if (sp = 4 ∨ sp = 5) ∧ p.owner = some c.core then pure p.key else trap 17 7 va
  | .deck =>
    let p ← s.place c va n .l false
    if sp = 12 ∧ p.owner = some c.core then pure p.key else trap 17 7 va
  | .service =>
    let p ← s.place c va n .w false
    if sp = 7 then pure p.key else trap 17 7 va

end Sys2Proof.Machine
end

