-- ==== Sys2Proof/Machine/Access.lean ====
section
/-! DEFINITION. Accesses: asynchronous causes and the fault log, what a performed write sets off (R181, R190, R111, R444), and
the way of an access from issue to its ordering point and back (R160 to R171, R394 to R399). -/

namespace Sys2Proof.Machine

/-! ### Causes that no word awaits -/

/-- Write 32 bytes through a ring block of control words (R238, R446): dropped when the address does not translate or lacks
W in the partition's system space; the head increments all the same. -/
def State.ringWrite (s : State) (block pyl : Nat) (regress : State → Reg → State) (ws : List Nat) : State :=
  let head := Mem.read s.mem (block + 16) 8
  let va := ringSlot s block
  let s := match s.partition pyl with
    | none => s
    | some p => match s.engineWalk (s.sysAsid p) va true with
      | .error _ => s
      | .ok (t, e) => t.wrRecord (e.addr va) regress ws
  { s with mem := Mem.write s.mem (block + 16) 8 (head + 1) }

/-- An entry of a pylon's fault log (R446); `regress` as for `wrRecord`. -/
def State.faultEntry (s : State) (regress : State → Reg → State) (pyl cause detail : Nat) (home : Bool) (place val aux : Nat) : State :=
  s.ringWrite (ctlBase + 100663296 + pyl * 256) pyl regress
    [cause * 72057594037927936 + detail * 281474976710656 + (if home then 1048576 else 0) + place, val, s.cyc, aux]
/-- The entry of a counter that a writer which is no context has set back (R444); the one that an entry of the log itself sets back
is the last. -/
def State.regressLog (next : State → Reg → State) (s : State) (r : Reg) : State :=
  s.faultEntry next (homeOf r.pa / 64) 52 (if r.home.isSome then 1 else 2) true (homeOf r.pa) r.va 0
/-- An entry of a pylon's fault log (R446). -/
def State.faultLog (s : State) (pyl cause detail : Nat) (home : Bool) (place val aux : Nat) : State :=
  s.faultEntry (State.regressLog fun s _ => s) pyl cause detail home place val aux
/-- What follows when the module's own writes set a counter back. -/
def State.regressed (s : State) (r : Reg) : State := State.regressLog (State.regressLog fun s _ => s) s r

/-- A trace record of a launch in a pylon's debug ring (R238), and in the capture buffer of the server that took the launch's command
while capture was active (R241); kind 0x0C is of the capture packet itself. -/
def State.traceFor (s : State) (l : Option Launch) (pyl sstep place kind payload : Nat) : State :=
  let ws := [sstep, s.cyc, place % 262144 + kind * 16777216, payload]
  let s := s.ringWrite (ctlBase + 67108864 + pyl * 256) pyl State.regressed ws
  let pyl := l.elim pyl fun l => firstPylon l.pyls
  let y := s.pylon pyl
  if y.capture && l.elim (kind == 12) (·.captured) && bit y.capMask kind then
    let va := y.capBase + 32 * y.capCount
    let s := if 32 * (y.capCount + 1) ≤ y.capSize then
        match s.engineWalk y.capAsid va true with
        | .error _ => s
        | .ok (t, e) => t.wrRecord (e.addr va) State.regressed ws
      else s
    s.setPylon pyl { s.pylon pyl with capCount := y.capCount + 1 }
  else s
/-- The launch of the core that a place names, else one of a pylon. -/
def State.traceOf (s : State) (pyl place : Nat) : Option Launch :=
  (s.launchOf (coreOfWord (place % 262144))).orElse fun _ => s.launches.find? fun l => bit l.pyls pyl
/-- A trace record of the launch of the core that it names. -/
def State.trace (s : State) (pyl sstep place kind payload : Nat) : State :=
  s.traceFor (if kind = 12 then none else s.traceOf pyl place) pyl sstep place kind payload

/-- Does an asynchronous cause end this wait (R411)? -/
def Wait.breaks : Wait → Bool
  | .waitt _ => true
  | .mwait => true
  | .ewait _ => true
  | .msync _ => true
  | _ => false

/-- Is a context the first to be served of those that wait in RECV (R373)? One that is stopped in it keeps its turn. -/
def State.recvFirst (s : State) (c : CtxId) : Bool :=
  ((s.core c.core).recvOrder.takeWhile (· != c.k)).all fun n => let y := s.ctx ⟨c.core, n⟩; y.st != .waiting || y.wait != .recv

/-- Raise an asynchronous cause on a context (R423, R424): the fifth pending one, or one of a context that is free and has
no live context 0 beside it, goes to the fault log. -/
def State.pendAsync (s : State) (c : CtxId) (t : Trap) : State :=
  let t := { t with async := true, insn := some (t.insn.getD 0) }
  let c := if (s.ctx c).st = .free then ⟨c.core, 0⟩ else c
  let x := s.ctx c
  if x.st = .free ∨ x.async.length ≥ 4 then s.faultLog c.core.pyl t.cause t.detail false c.place t.val 0
  else
    let s := s.setCtx c { x with async := x.async ++ [t] }
    if x.st = .waiting ∧ x.wait.breaks then s.after 0 .asyncTrapTake { ctx := c } else s

/-! ### Writes -/

/-- Registered counters that a write of an agent reaches, COUNTER_REGRESS for the writer (R444). -/
def State.counterWrite (s : State) (key n : Nat) (writer : Option CtxId) : State :=
  s.counterWriteBy key n fun s r =>
    match writer with
    | some c => s.pendAsync c { cause := 52, detail := if r.home.isSome then 1 else 2, val := r.va }
    | none => s.regressed r

/-- Bytes written at a location by an agent, with all that follows but for a master's stamp (R80, R181, R398, R429, R444). -/
def State.wrPlain (s : State) (key n val mask : Nat) (writer : Option CtxId) : State :=
  let s := s.wrBytes key n val mask writer
  if isDevice key then s.counterWrite key n writer else s
/-- The same, counted for the master blocks that it falls in (R190). -/
def State.wrMem (s : State) (key n val mask : Nat) (writer : Option CtxId) : State :=
  let s := s.wrPlain key n val mask writer
  if isDevice key then s.stamp key n else s
/-- Bytes that an engine writes for a context, as another agent's store to what the context still holds (R161, R171). -/
def State.wrEngine (s : State) (c : CtxId) (key n val mask : Nat) : State :=
  ((if isDevice key then s.overtake key n mask none else s).wrMem key n val mask (some c))

/-! ### The way of an access -/

/-- Do two accesses meet in a byte? -/
def Access.meets (f g : Access) : Bool := decide (f.key < g.key + g.n) && decide (g.key < f.key + f.n)
/-- The port that performs the accesses of a pool, a crown slice or a local memory (R148, R149); none of other locations. -/
def portOf (key : Nat) : Option Nat :=
  if key < poolBase ∨ hostBase ≤ key then none
  else some (if deckBase ≤ key ∧ key < svcBase then key / 65536 else key / 262144)
/-- The cluster whose power a location depends on (R216). -/
def placeCluster (key : Nat) : Option Nat :=
  if poolBase ≤ key ∧ key < deckBase then
    let i := (key - (if key < crownBase then poolBase else crownBase)) / 262144
    some (clusterNo (i / 2048) (i / 64 % 32) (i % 32 / 2))
  else if deckBase ≤ key ∧ key < svcBase then some ((key - deckBase) / 65536)
  else none
/-- The pylon of a location, for parts that minimal mode turns off (R233). -/
def keyPylon (key : Nat) : Option Nat := if isDevice key then some (homeOf key / 64) else (placeCluster key).map (· / 512)
/-- The module that a peer address names (R144). -/
def peerOf (va : Nat) : Nat := bits va 55 48
/-- May traffic of a peer come and go: the route table names a port that is up (R234, R458), and the link is on (R233)? Bit p of a word
of the table stands for port p (notes/assumptions/77). -/
def State.carried (s : State) (peer : Nat) : Bool :=
  s.minimal.isNone && (upFrom 0 18).any fun p => bit (s.ctl (50339840 + 8 * peer)) p && bit (s.ctl (50348032 + 8 * p)) 63
/-- Does program order bind two accesses of a context to one location (R161, R397)? A snapshot load holds nothing back, and follows
what writes alone. -/
def Access.tied (f g : Access) : Bool :=
  f.meets g && !(f.isLoad && f.kind == .g) && !(g.isLoad && g.kind == .g && f.isLoad)
/-- Cycles that misses of the home's cache add to a read of a range (R147, R466); which lines miss is free (notes/assumptions/32). -/
def lineMiss (key n tag : Nat) : Nat :=
  if isDevice key ∧ (upFrom (key / 64) ((key % 64 + n + 63) / 64)).any fun l => Config.homeMiss l tag % 2 == 1 then 120 else 0
/-- Must an earlier access of the context be performed before a later one: behind an acquire (R169), across a FENCE.O (R170), at
the same bytes (R161, R397), of fresh loads (R162, R171), of stores to one home or peer module and of all deferred stores (R163 to
R165), of anchored stores and atomics (R121), at one port (R148, R149)? -/
def Access.before (f g : Access) : Bool :=
  f.ctx == g.ctx && !f.performed &&
  ((f.acq && (g.ordered || (g.isLoad && g.kind == .s))) || (f.fence && f.fenced && g.fenced) ||
   f.tied g || (f.isFresh && g.isFresh) ||
   (f.isLoad && g.isLoad && f.kind == .s && g.kind == .s && peerOf f.va == peerOf g.va) ||
   (f.act == .store && g.act == .store && f.kind == g.kind &&
     (f.kind == .g || (f.kind == .f && homeOf f.key == homeOf g.key) || (f.kind == .s && peerOf f.va == peerOf g.va))) ||
   (f.kind == .a && g.kind == .a && !f.isLoad && !g.isLoad) || ((portOf f.key).isSome && portOf f.key == portOf g.key))

/-- Every earlier access that a release of the context waits for (R169): eager, anchored, fresh, atomic; peer at system scope. -/
def State.releaseIds (s : State) (c : CtxId) (sys : Bool) : List Nat :=
  (s.flight.filter fun f => f.ctx == c && !f.performed && (f.ordered || (sys && f.kind == .s))).map (·.id)

/-- The context's own buffered bytes over a range, but those that another agent has stored to since: bytes and mask (R161, R163,
R350). -/
def heldOver (hs : List Held) (key n : Nat) : Nat × Nat :=
  hs.foldl (fun (v, m) h =>
    (upFrom 0 8).foldl (fun (v, m) j =>
      let k := h.key + j
      if bit h.mask j ∧ !bit h.lost j ∧ !bit h.later j ∧ key ≤ k ∧ k < key + n then
        let sh := k - key
        (v - (v / 256 ^ sh % 256) * 256 ^ sh + h.val / 256 ^ j % 256 * 256 ^ sh, m ||| 2 ^ sh)
      else (v, m)) (v, m)) (0, 0)

/-- A buffered doubleword with all that it holds, as its atomics read it (R122). -/
def Held.kept (h : Held) : Held := { h with lost := 0, later := 0 }
/-- A loan's buffer as loads of a kind read it: what another agent has stored since stands over it but for anchored ones (R122, R161). -/
def Ctx.loan (x : Ctx) (kind : AccKind) : List Held :=
  match x.grant with
  | some g => if kind = .a then g.buf.map fun h => { h with lost := 0 } else g.buf
  | none => []

/-- Enter bytes into a buffer of doublewords, replacing bytes already held in place (R163, R122). -/
def heldPut (hs : List Held) (key va n val mask : Nat) : List Held :=
  (upFrom 0 ((n + 7) / 8)).foldl (fun hs j =>
    let d := (key + 8 * j) / 8 * 8
    let sh := if n < 8 then key % 8 else 0
    let w := (if n < 8 then val * 256 ^ sh else val / 18446744073709551616 ^ j % 18446744073709551616)
    let mk := (if n < 8 then mask % 2 ^ n * 2 ^ sh else mask / 256 ^ j % 256)
    if mk = 0 then hs
    else match hs.find? (·.key == d) with
      | some h => hs.map fun g => if g.key = d then { h with val := mergeBytes h.val w mk 8, mask := h.mask ||| mk, lost := h.lost - (h.lost &&& mk), later := h.later - (h.later &&& mk) } else g
      | none => hs ++ [{ key := d, val := w, mask := mk, va := va / 8 * 8 + 8 * j }]) hs

/-- A cluster of a place that is gated wakes for an access, which waits for the wake; whether the wake fails is free, and shows four
times its latency on (R216, R457). A gated pylon is awake once the first wake of a cluster of it ends. One that meets a gate in its
cycle wins, and a request of the gate stays pending (R217). -/
def State.wakeCluster (s : State) (k : Nat) : State :=
  let cl := s.cluster k
  match cl.power with
  | .gated =>
    let y := s.pylon (k / 512)
    if cl.gatedAt = s.cyc + 1 then
      let s := s.setCluster k { cl with power := .awake, gateReq := cl.gateBy }
      let s := if y.gated ∧ y.wakeEnd = 0 then s.setPylon (k / 512) { y with gated := false } else s
      if cl.gateBy then s.after 1 .clusterGate { ns := [k] } else s.after 1 .packIdleGate { ns := [k, cl.freeSince] }
    else
      let lat := if y.gated then (if s.cyc < y.wakeEnd then max (y.wakeEnd - s.cyc) 1680 else 21000) else 1680
      let s := s.setCluster k { cl with power := .waking s.cyc }
      let s := if y.gated ∧ y.wakeEnd ≤ s.cyc then s.setPylon (k / 512) { y with wakeEnd := s.cyc + lat } else s
      let s : State := { s with free := s.free + 1 }
      if Config.wakeFails s.free k % 2 = 1 then s.after (if y.gated then 84000 else 6720) .wakeFailure { ns := [k, s.cyc] }
      else s.after lat .clusterWakeDone { ns := [k] }
  | _ => if cl.gateReq then s.setCluster k { cl with wakeAsk := s.cyc + 1 } else s

/-- The matrix commands of a context that still have to read bytes of a range: the context's store waits for them (R150). -/
def State.interlock (s : State) (c : CtxId) (key n : Nat) : List Nat :=
  ((s.core c.core).mq.filter fun m => m.src == some c && m.holds.any fun h => decide (h.2.1 < key + n) && decide (key < h.2.1 + h.2.2)).map (·.id)
/-- Does an access wait for numbers that are still under way: accesses not performed, matrix commands not ended? -/
def State.waitsFor (s : State) (u : CoreId) (ids : List Nat) : Bool :=
  s.flight.any (fun f => ids.contains f.id && !f.performed) || (s.core u).mq.any fun m => ids.contains m.id

/-- A line with bytes replaced, whose doublewords then carry no mark (R398). -/
def SnapLine.put (l : SnapLine) (va n val mask : Nat) : SnapLine :=
  { l with bytes := BitVec.ofNat 512 ((upFrom 0 64).foldl (fun v j =>
             let k := l.key + j
             let b := if va ≤ k ∧ k < va + n ∧ bit mask (k - va) then val / 256 ^ (k - va) % 256 else l.bytes.toNat / 256 ^ j % 256
             v + b * 256 ^ j) 0)
           marks := l.marks.filter fun m => !reachesWord m va n mask }
/-- A store or atomic of a pylon's context has been performed at a peer: its remote line cache holds the bytes where it holds their
line, and loads under way do not bring an older one (R154, R161). -/
def State.rlcPut (s : State) (p va n val mask : Nat) : State :=
  let y := s.pylon p
  let meets (k : Nat) : Bool := decide (k < va + n) && decide (va < k + 64)
  let s := s.setPylon p { y with rlc := y.rlc.map fun l => if meets l.key then l.put va n val mask else l }
  { s with flight := s.flight.map fun f =>
      if f.kind = .g ∧ f.ctx.core.pyl = p ∧ meets (f.va / 64 * 64) then { f with uncached := true } else f }

/-- An access that reads a stream's elements ahead, or what SBIND binds, without its destination. -/
def Access.unread (f : Access) : Access := if f.dcls = 6 then { f with dcls := 0 } else f
/-- Snapshot boundary of a context (R153): a new phase, which no element of a stream read ahead outlives (R151). -/
def State.snapBoundary (s : State) (c : CtxId) : State :=
  let s := s.setCtx c { s.ctx c with snap := [], ahead := [], snapAt := s.cyc }
  { s with flight := s.flight.map fun f => if f.ctx = c then f.unread else f }
/-- Does a load of n bytes return a doubleword with a copy's mark (R398)? The bytes of `cover` come from elsewhere. -/
def marked (marks : List Nat) (key n cover : Nat) : Bool :=
  marks.any fun m => (upFrom 0 n).any fun j => decide (m ≤ key + j) && decide (key + j < m + 8) && !bit cover j
/-- A load that returns a marked stamp from its ordering point passes a snapshot boundary (R398). -/
def State.markSeen (s : State) (c : CtxId) (key n : Nat) : State :=
  if marked s.marks key n 0 then s.snapBoundary c else s
/-- The result row of a location when it is empty (R140). -/
def State.emptyRow (s : State) (key : Nat) : Bool := isDevice key && s.emptyRows.contains (key / 2048 * 2048)

/-- Bytes of a snapshot load that the context has read since its boundary stand for those of memory, and its own buffered stores
for both (R153, R161): value, and the bytes that are not memory's. -/
def State.overlay (s : State) (f : Access) (v : Nat) : Nat × Nat :=
  let (v, m) := if f.kind = .g then
      (s.ctx f.ctx).snap.foldl (fun (v, m) e =>
        if f.key ≤ e.1 ∧ e.1 < f.key + f.n then
          (mergeBytes v (e.2.toNat * 256 ^ (e.1 - f.key)) (2 ^ (e.1 - f.key)) f.n, m ||| 2 ^ (e.1 - f.key)) else (v, m)) (v, 0)
    else (v, 0)
  (mergeBytes v f.val f.mask f.n, m ||| f.mask)
/-- A snapshot load's bytes stay the context's until its next snapshot boundary (R153). -/
def State.snapKeep (s : State) (f : Access) (v : Nat) : State :=
  let x := s.ctx f.ctx
  let new := (upFrom 0 f.n).filterMap fun j =>
    if x.snap.any (·.1 == f.key + j) then none else some (f.key + j, BitVec.ofNat 8 (v / 256 ^ j))
  s.setCtx f.ctx { x with snap := x.snap ++ new }
/-- A load has its bytes, from a place that keeps marks (R153, R398): a marked one ends the context's phase, any other of the
snapshot kind stays what the context reads. -/
def State.taken (s : State) (f : Access) (marks : List Nat) (v : Nat) : State × Nat :=
  let (v', cover) := s.overlay f v
  (if marked marks f.key f.n cover then s.snapBoundary f.ctx
   else if f.kind = .g ∧ isDevice f.key then s.snapKeep f v' else s, v')
/-- The line of its cluster's snapshot cache that may serve a snapshot load (R153, R140): one read after the context's last boundary. -/
def State.snapLine (s : State) (f : Access) : Option SnapLine :=
  if f.act = .load ∧ f.kind = .g ∧ isDevice f.key ∧ f.ctx.core.kind ≠ .service ∧
      !(s.flight.any fun g => g.before f) then
    (s.cluster f.ctx.core.cluster).snapLines.find? fun l =>
      l.key == f.key / 64 * 64 && decide ((s.ctx f.ctx).snapAt < l.at_) && Config.snapHit l.key f.id % 2 == 1
  else none
/-- A line of device memory as it stands at its home enters a cluster's snapshot cache of 1,024 lines (R153), but for one that is
poisoned or lies in an empty result row. -/
def State.fillLine (s : State) (k line : Nat) : State :=
  let b := line / 64 * 64
  if isDevice b ∧ (s.poisoned b 64).isNone ∧ !s.emptyRow b then
    let l : SnapLine := { key := b, bytes := BitVec.ofNat 512 (s.rdMem b 64), at_ := s.cyc,
                          marks := s.marks.filter fun m => decide (b ≤ m) && decide (m < b + 64) }
    s.setCluster k { s.cluster k with snapLines := (l :: (s.cluster k).snapLines.filter (·.key != b)).take 1024 }
  else s
/-- A line that a snapshot load has read enters its cluster's cache (R153). -/
def State.snapFill (s : State) (f : Access) : State :=
  if f.act = .load ∧ f.kind = .g ∧ f.ctx.core.kind ≠ .service then s.fillLine f.ctx.core.cluster f.key else s
/-- The bytes that a store or atomic of a context writes are no longer its snapshot's (R153, R161), nor those of its cluster's
cache. -/
def State.unsnap (s : State) (c : CtxId) (key n mask : Nat) : State :=
  let x := s.ctx c
  let s := if x.snap.isEmpty then s
    else s.setCtx c { x with snap := x.snap.filter fun e => !(decide (key ≤ e.1) && decide (e.1 < key + n) && bit mask (e.1 - key)) }
  let k := c.core.cluster
  let cl := s.cluster k
  if cl.snapLines.isEmpty ∨ c.core.kind = .service then s
  else s.setCluster k { cl with snapLines := cl.snapLines.filter fun l => !(decide (l.key < key + n) && decide (key < l.key + 64)) }

/-- A load performed in its issue cycle, whose value sets off at once (R147). -/
def State.loadNow (s : State) (f : Access) (v lat : Nat) : State :=
  ({ s with flight := s.flight ++ [{ f with id := s.nextId, performed := true, got := v }] } : State).fresh.after lat .loadValueReturn
    { ctx := f.ctx, ns := [s.nextId] }
/-- The line of a remote line cache that holds a peer location (R154). -/
def rlcLine (rlc : List SnapLine) (va n : Nat) : Option SnapLine :=
  rlc.find? fun l => decide (l.key ≤ va) && decide (va + n ≤ l.key + 64)
/-- Send an access on its way: it arrives after half its round trip; a peer access leaves the module. The remote line cache and
the snapshot cache serve loads in its place (R147, R153, R154, R458). -/
def State.send (s : State) (f : Access) : State :=
  let f := { f with id := s.nextId, after := f.after ++ (s.flight.filter (·.before f)).map (·.id) ++
                      (if f.act = .load then [] else s.interlock f.ctx f.key f.n) }
  let y := s.pylon f.ctx.core.pyl
  let held := if f.act == .load && f.kind == .g && !(s.flight.any fun g => g.before f && g.meets f) then rlcLine y.rlc f.va f.n else none
  if f.va / 1152921504606846976 = 8 ∧ (f.kind = .s ∨ f.kind = .g) then
    match held with
    | some l => (if marked l.marks f.va f.n 0 then s.snapBoundary f.ctx else s).loadNow f
        (l.bytes.toNat / 256 ^ (f.va - l.key) % 256 ^ f.n) 60
    | none => { s.fresh with flight := s.flight ++ [f] }.after s.pto .peerTimeout { ctx := f.ctx, ns := [f.id] }
  else match s.snapLine f with
    | some l =>
      let (s, v) := s.taken f l.marks (l.bytes.toNat / 256 ^ (f.key - l.key) % 256 ^ f.n)
      s.loadNow f v 12
    | none => { s.fresh with flight := s.flight ++ [f] }.after (f.lat / 2) .accessAtOrderingPoint { ctx := f.ctx, ns := [f.id] }

/-- Access of a number, while it is on its way. -/
def State.access (s : State) (id : Nat) : Option Access := s.flight.find? (·.id == id)
def State.setAccess (s : State) (f : Access) : State :=
  { s with flight := s.flight.map fun g => if g.id = f.id then f else g }
def State.dropAccess (s : State) (id : Nat) : State := { s with flight := s.flight.filter (·.id != id) }

/-- A buffered doubleword goes to its home (R163). -/
def State.publish (s : State) (c : CtxId) (h : Held) : State :=
  s.send { id := 0, ctx := c, act := .store, kind := .g, key := h.key, va := h.va, n := 8, val := h.val, mask := h.mask,
           lat := latHome c.core (homeOf h.key), ea := h.va }
/-- The buffered bytes of the doublewords that an eager store or atomic reaches go to their home ahead of it (R397). -/
def State.flushRange (s : State) (c : CtxId) (key n mask : Nat) : State :=
  let x := s.ctx c
  let meets (h : Held) := reachesWord h.key key n mask
  if (x.publish.any meets) then
    (x.publish.filter meets).foldl (fun s h => s.publish c h)
      (s.setCtx c { x with publish := x.publish.filter (fun h => !meets h) })
  else s
/-- A store boundary (R166): the deferred stores go to their homes in program order. The eager and peer stores are those
already on their way. -/
def State.boundary (s : State) (c : CtxId) : State :=
  let x := s.ctx c
  x.publish.foldl (fun s h => s.publish c h) (s.setCtx c { x with publish := [] })

/-- Numbers of the stores of a context that have not been acknowledged: eager, deferred and peer (R91, R463). -/
def State.storeIds (s : State) (c : CtxId) : List Nat :=
  (s.flight.filter fun f => f.ctx == c && f.act == .store && (f.kind == .f || f.kind == .g || f.kind == .s)).map (·.id)
/-- Are the accesses with these numbers no longer on their way? -/
def State.gone (s : State) (ids : List Nat) : Bool := !(s.flight.any fun f => ids.contains f.id)
/-- Are the deferred, eager and peer stores of a context all performed and acknowledged (R91, R166, R463)? -/
def State.storesDone (s : State) (c : CtxId) : Bool :=
  (s.ctx c).publish.isEmpty &&
  !(s.flight.any fun f => f.ctx == c && f.act == .store && (f.kind == .f || f.kind == .g || f.kind == .s))

end Sys2Proof.Machine
end

