-- ==== Sys2Proof/Machine/Frame.lean ====
section
/-! DEFINITION. The frame of an instruction word: the checks of R418 in their order, the source operands with links and
streams (R255, R329), the word's results, and the loads and stores that words issue. -/

namespace Sys2Proof.Machine

/-- A register is written: a value still on its way to it is not delivered (R395). -/
def State.cancel (s : State) (c : CtxId) (cls reg : Nat) : State :=
  if s.pending c cls reg then
    let x := s.ctx c
    let s := s.setCtx c { x with pend := x.pend.filter fun p => !(p.cls == cls && p.reg == reg) }
    let drop (f : Access) : Access := if f.ctx = c ∧ f.dcls = cls ∧ f.dreg = reg then { f with dcls := 0 } else f
    let k := s.core c.core
    let quiet (r : SfuReq) : SfuReq :=
      if r.ctx = c then { r with outs := r.outs.filter fun o => !(o.1 == cls && o.2.1 == reg) } else r
    let s := if k.sfu.isEmpty then s else s.setCore c.core { k with sfu := k.sfu.map quiet }
    { s with flight := s.flight.map drop }
  else s

/-- Start a load whose place is known: its own buffered bytes go with it (R161, R350). -/
def State.load (s : State) (c : CtxId) (p : Place) (f : Access) : State :=
  let x := s.ctx c
  let (v, m) := if p.home.isSome then heldOver (x.publish ++ x.loan f.kind) p.key f.n else (0, 0)
  let f := { f with ctx := c, act := .load, key := p.key, lat := p.lat, val := v, mask := m, asid := s.spaceOf c }
  match p.owner with
  | some u => (if u = c.core then s else s.wakeCluster u.cluster).send f
  | none => s.send f

/-- Is a place read in the issue cycle: the issuer's own pool, window, crown slice or memory (R147)? -/
def Place.near (p : Place) (c : CtxId) : Bool := p.owner == some c.core
/-- Does a location lie in the context's own window? -/
def State.ownWindow (s : State) (c : CtxId) (key : Nat) : Bool := decide (s.win c ≤ key) && decide (key < s.win c + 8192)
/-- The window bytes of a register by class number, as offset and length (R79). -/
def regBytes (cls reg : Nat) : List (Nat × Nat) :=
  match cls with
  | 1 => [(8 * reg, 8)]
  | 2 => [(2048 + 128 * reg, 128), (672 + 2 * reg, 2)]
  | 3 => [(6144 + 128 * reg, 128), (736 + 2 * reg, 2)]
  | 4 => [(1024 + 64 * reg, 64)]
  | _ => []
/-- Do a register's bytes meet a range of its context's window? -/
def State.regMeets (s : State) (c : CtxId) (cls reg key n : Nat) : Bool :=
  (regBytes cls reg).any fun b => decide (s.win c + b.1 < key + n) && decide (key < s.win c + b.1 + b.2)
/-- A register of the context in a range of its window whose value is on its way, but for the delivery from a near place (R81); one that
a load brings hinders only what reads it (R395). -/
def State.incoming (s : State) (c : CtxId) (key n : Nat) (reads : Bool) : Option (Nat × Nat) :=
  let hit (r : Nat × Nat) : Bool := s.regMeets c r.1 r.2 key n
  ((if reads then (s.flight.filter (·.ctx == c)).map fun f => (f.dcls, f.dreg) else []) ++
    ((s.core c.core).sfu.filter (·.ctx == c)).flatMap fun r => r.outs.map fun o => (o.1, o.2.1)).find? hit

/-- The accesses and matrix commands that an access of a context has to follow and that are still under way (R148 to R150, R169,
R170). -/
def State.ahead (s : State) (f : Access) : List Nat :=
  (s.flight.filter (·.before f)).map (·.id) ++ (if f.isLoad then [] else s.interlock f.ctx f.key f.n)
/-- An access of n bytes of a context to a place, before it has a number. -/
def Place.access (p : Place) (c : CtxId) (act : Act) (kind : AccKind) (va n : Nat) : Access :=
  { id := 0, ctx := c, act := act, kind := kind, key := p.key, va := va, n := n, lat := p.lat, ea := va }
/-- May an access to a place be carried out in its issue cycle: at a near place, behind nothing? One to the own window waits instead
of following the context's later words (R81). -/
def State.atOnce (s : State) (p : Place) (f : Access) : Chk Bool :=
  if !p.near f.ctx then .ok false
  else match s.ahead f with
    | [] => .ok true
    | ids => if s.ownWindow f.ctx f.key then .error (.retry (.accesses ids)) else .ok false
/-- Control space takes only LD.D.F and ST.D.E: any other access is PRIV at U, else ACCESS 3 (R146, R415, R425). -/
def State.noControl (s : State) (c : CtxId) (va : Nat) : Chk Unit := do
  if bits va 63 60 = 15 then
    if (s.ctx c).level = .u then trap 2 0 s.ir.toNat
    trap 17 3 va

/-- The anchored atomics of the context on these bytes that have not been performed yet (R122). -/
def State.anchBusy (s : State) (c : CtxId) (key n : Nat) : List Nat :=
  (s.flight.filter fun f => f.ctx == c && f.kind == .a && !f.performed && f.act != .load && decide (f.key < key + n) &&
    decide (key < f.key + f.n)).map (·.id)

/-- The place of an access of n bytes, of which lo to hi − 1 are touched, after the causes of R418 in their order; `ctl`
tells that the word may reach control space. An access to a register in the own window follows the write of it that is on its way
(R81), and one to a loan's buffer the atomics before it (R122). -/
def State.aim (s : State) (c : CtxId) (va n lo hi : Nat) (kind : AccKind) (wr ctl : Bool) : Chk Place := do
  if bits va 63 60 = 15 ∧ ((s.ctx c).level = .u ∨ (wr ∧ (s.ctx c).level = .s ∧ ctlHOnly (bits va 59 0))) then trap 2 0 s.ir.toNat
  if kind == .w then s.windowCheck c va wr
  if kind == .a then s.anchorCheck c va (va + lo) (hi - lo)
  if va % n ≠ 0 then trap 5 0 va
  if !ctl then s.noControl c va
  let p ← s.place c va n kind wr
  if kind == .a && ((s.ctx c).grant.any (·.snap)) && !(s.anchBusy c p.key n).isEmpty then
    throw (.retry (.accesses (s.anchBusy c p.key n)))
  if s.ownWindow c p.key then
    match s.incoming c p.key n (!wr) with
    | some (k, r) => throw (.stall k r)
    | none => pure ()
  pure p

/-- Poison met by a load of a near place: ECC_UNCORRECTABLE, asynchronous, with its destination (R423, R429). -/
def eccTrap (va cls reg : Nat) : Trap :=
  { cause := 20, detail := if 1 ≤ cls ∧ cls ≤ 3 then cls * 64 + reg else 0, val := va, async := true }

/-- The doublewords of a block of n bytes in the issuer's own memory (R365, R374, R418). -/
def State.ownWords (s : State) (c : CtxId) (va n : Nat) : Chk (List Nat) := do
  let key ← s.ownBlock c va n
  match s.poisoned key n with
  | some _ => throw (.quit (s.pendAsync c (eccTrap va 0 0)))
  | none => pure ()
  match s.ahead { id := 0, ctx := c, act := .load, kind := .l, key := key, va := va, n := n } with
  | [] => pure ()
  | ids => throw (.retry (.accesses ids))
  pure ((upFrom 0 (n / 8)).map fun i => s.rdMem (key + 8 * i) 8)

/-- Doubleword 2 of a stream's state (R327). -/
def State.streamWord (s : State) (c : CtxId) (n : Nat) : Nat := s.rs c n 2

/-- STREAM causes of a use of stream n (R418): not bound, empty, against its direction, reserved state, wrong element. -/
def State.streamCheck (s : State) (c : CtxId) (n : Nat) (sink vec : Bool) : Chk Unit := do
  let w := s.streamWord c n
  if !bit w 15 then trap 11 1 n
  if bit w 14 != sink then trap 11 3 n
  if bits w 63 32 = 0 then trap 11 2 n
  if (decide (4 ≤ bits w 10 8) && decide (bits w 10 8 ≤ 6)) || bits w 13 11 = 4 then trap 11 4 n
  if (bits w 10 8 == 7) != vec then trap 11 6 n

/-- The kind of a stream's accesses (R327). -/
def streamKind (w : Nat) : AccKind := AccKind.ofCode (bits w 13 11)
/-- Bytes of a stream's element. -/
def State.streamBytes (s : State) (c : CtxId) (w : Nat) : Nat :=
  if bits w 10 8 = 7 then slotBytes (bits w 4 0) (s.fdOf c.core) else 2 ^ bits w 10 8

/-- One element has passed: ADDR, COUNT and DONE move on (R329). -/
def State.streamStep (s : State) (c : CtxId) (n : Nat) : State :=
  let a := (s.rs c n 0 + s.rs c n 1) % 18446744073709551616
  let w := s.rs c n 2 - 4294967296
  let d := s.rs c n 3
  (((s.ws c n 0 a).ws c n 2 w).ws c n 3 (d / 4294967296 * 4294967296 + (d % 4294967296 + 1) % 4294967296))

/-- Codes of a format of width 4 or less, two to a byte, in their lanes of 8 bits (R28). -/
def widen4 (v : Nat) : Nat → Nat
  | 0 => 0
  | n + 1 => v % 16 + 256 * (v / 16 % 16) + 65536 * widen4 (v / 256) n
/-- Lanes of 8 bits packed two to a byte (R28). -/
def pack4 (v : Nat) : Nat → Nat
  | 0 => 0
  | n + 1 => v % 16 + 16 * (v / 256 % 16) + 256 * pack4 (v / 65536) n

/-- Codes cut to w bits, in lanes of 8 bits (R28, R299). -/
def cut8 (w v : Nat) : Nat → Nat
  | 0 => 0
  | n + 1 => v % 256 % 2 ^ w + 256 * cut8 w (v / 256) n
/-- Codes of a narrow slot without the bits above their width; the bits of any other slot. -/
def State.cutCodes (s : State) (c : CtxId) (slot v : Nat) : Nat :=
  if slot < 23 then cut8 (codeWidth slot (s.fdOf c.core)) v 128 else v

/-- A popped element as an operand: value and tag (R329). -/
def State.streamValue (s : State) (c : CtxId) (w v : Nat) : Nat × Nat :=
  if bits w 10 8 = 7 then (s.cutCodes c (bits w 4 0) (if s.streamBytes c w = 64 then widen4 v 64 else v), 16384 + bits w 4 0) else (v, 0)

/-- Poison met by a stream's read of a near place (R423, R429): the asynchronous cause is taken before the word that waits
for the element issues, and names no destination. -/
def streamEcc (va : Nat) : Trap := { eccTrap va 0 0 with insn := some 0 }

/-- Pop an element of stream n, from the read-ahead, from a near place, or by a load that the word waits for (R151, R329).
`s0` is the state before the word took any operand: a word that waits takes them all again. -/
def State.popStream (s0 s : State) (c : CtxId) (n : Nat) (vec : Bool) : Chk (Nat × Nat × State) := do
  s.streamCheck c n false vec
  let w := s.streamWord c n
  let b := s.streamBytes c w
  let va := s.rs c n 0
  match Tab.get (s.ctx c).ahead n [] with
  | v :: rest =>
    let s := s.setCtx c { s.ctx c with ahead := Tab.set (s.ctx c).ahead n rest }
    let (v, t) := s.streamValue c w v
    pure (v, t, s.streamStep c n)
  | [] =>
    let p ← s.aim c va b 0 b (streamKind w) false false
    if ← s.atOnce p (p.access c .load (streamKind w) va b) then
      match s.poisoned p.key b with
      | some _ => throw (.trap (streamEcc va))
      | none =>
        let (v, t) := s.streamValue c w (s.rdMem p.key b)
        pure (v, t, (s.markSeen c p.key b).streamStep c n)
    else if s.pending c 6 n then throw (.stall 6 n)
    else throw (.ask (s0.load c p { p.access c .load (streamKind w) va b with dcls := 6, dreg := n }))

/-- What a field of a class takes of a value: class x bits 63:0 (R255). -/
def Opr.take (o : Option Opr) (v : Nat) : Nat := if o.any (·.cls == .x) then v % 18446744073709551616 else v
/-- A second field that names the link or stream of a first takes its value; a stream's element fits one class alone (R255, R418
STREAM 6). -/
def again (o first : Option Opr) (code v tag : Nat) (s : State) : Chk (Nat × Nat × State) := do
  if 8 ≤ code ∧ o.any (·.cls == .v) ≠ first.any (·.cls == .v) then trap 11 6 (code - 8)
  pure (v, tag, s)
/-- The value and tag that a source field holds or its direction code delivers, whole, and the state after taking it (R255); `s0` as
for a pop. -/
def State.source (s0 s : State) (c : CtxId) (o : Option Opr) (code : Nat) : Chk (Nat × Nat × State) := do
  match o with
  | none => pure (0, 0, s)
  | some o =>
    if o.role = .write then pure (0, 0, s)
    else if code = 0 then
      let (v, t) ← s.readReg c o
      pure (v, t, s)
    else if code < 8 then
      let v ← s.peekLink c code
      pure (v.val.toNat, v.tag.toNat, s.takeLink c code)
    else s0.popStream s c (code - 8) (o.cls == .v)

/-- A span-core word does not use an operand with the command-record tag (R417, DETAIL 5). -/
def recordCheck (k : CoreKind) (o : Option Opr) (t : Nat) (field : Nat) : Chk Unit :=
  match o with
  | some o => if k = .span ∧ o.cls = .v ∧ o.role ≠ .write ∧ t = 16447 then trap 6 5 (t + o.reg * 65536) field else .ok ()
  | none => .ok ()

/-- The checks that come before a word's own (R418), and its source operands (R255): a link or stream named twice is read
once; D is read after A and B. -/
def prep (g : Sig) (s0 : State) : Chk (Opnds × State) := do
  let s := s0
  let c := s.cur
  let x := s.ctx c
  let w := s.ir.toNat
  let m := match x.chainMod with
    | some p => Mod.ofPayload p
    | none => {}
  hintCheck g x.chainImm m (x.chainMod.getD 0)
  match s.bad with
  | some f => trap 1 0 w f
  | none => pure ()
  replacedCheck g m w
  unitCheck g m c.core.kind w
  levelCheck x.level g.level w
  let (a, ta, s) ← s0.source s c g.a m.srca
  let (b, tb, s) ← if m.srcb ≠ 0 ∧ m.srcb = m.srca then again g.b g.a m.srcb a ta s else s0.source s c g.b m.srcb
  let (v, tc, s) ← s0.source s c g.c 0
  let rd := match g.d with
    | some o => o.role != .write
    | none => false
  let (d, td, s) ←
    if !rd then pure (0, 0, s)
    else if m.dst ≠ 0 ∧ m.dst = m.srca then again g.d g.a m.dst a ta s
    else if m.dst ≠ 0 ∧ m.dst = m.srcb then again g.d g.b m.dst b tb s
    else s0.source s c g.d m.dst
  pure ({ a := Opr.take g.a a, b := Opr.take g.b b, c := v, d := Opr.take g.d d, ta := ta, tb := tb, tc := tc, td := td, m := m, imm := x.chainImm,
          pred := s.rp c m.pred }, s)

/-- Run a word with causes of its own that come before those of links, streams and memory (R418): `early` where the operands cannot be
had, `late` where they are. -/
def wordWith (g : Sig) (s : State) (early : Chk Unit) (late : Opnds → Chk Unit) (body : Opnds → State → Chk Out) :
    Host.Outcome State Fault Refusal :=
  .next (s.finish s.cur (match prep g s with
    | .ok (o, t) => do
      late o
      body o t
    | .error (.stall k r) => .error (.stall k r)
    | .error (.trap w) => if w.cause ≤ 4 then .error (.trap w) else do
      early
      .error (.trap w)
    | .error h => do
      early
      .error h))
/-- Run a word: its checks and operands, then its effect, then what becomes of its context. -/
def word (g : Sig) (s : State) (body : Opnds → State → Chk Out) : Host.Outcome State Fault Refusal :=
  .next (s.finish s.cur (do let (o, t) ← prep g s; body o t))

/-- The state after a word whose opcode or function is reserved (R252, R253, R416, R418): a chain that is pending finds no target, but
for HINT.IMM at a word of format B, else ILLEGAL with its FIELD. -/
def State.reserved (s : State) (f : Nat) : State :=
  let x := s.ctx s.cur
  let w := s.ir.toNat
  if w / 67108864 = 63 then s.illegal f
  else s.finish s.cur (do
    hintCheck { imm := w / 67108864 == 13 } x.chainImm (x.chainMod.elim {} Mod.ofPayload) (x.chainMod.getD 0)
    trap 1 0 w f)
/-- What the release order that a word's description gives it waits for, with the scope that HINT.MOD puts in its place (R169, R254). -/
def Opnds.releases (o : Opnds) (s : State) (c : CtxId) : List Nat := s.releaseIds c (o.m.scope == 5)
/-- The same for the words of R172. -/
def Opnds.engines (o : Opnds) (s : State) (c : CtxId) : List Nat :=
  s.engineIds c ++ if o.m.scope = 5 then s.releaseIds c true else []

/-! ### Results -/

/-- A store into the state of an own stream drops its read-ahead, also that on its way (R329). -/
def State.dropAhead (s : State) (c : CtxId) (key n : Nat) : State :=
  let x := s.ctx c
  if x.ahead.isEmpty ∧ !s.flight.any (fun f => f.ctx == c && f.dcls == 6) then s else
    let b := s.win c + 416
    let hit (r : Nat) : Bool := decide (r < 8) && decide (b + 32 * r < key + n) && decide (key < b + 32 * r + 32)
    let s := s.setCtx c { x with ahead := x.ahead.filter fun e => !hit e.1 }
    { s with flight := s.flight.map fun f => if f.ctx = c ∧ hit f.dreg then f.unread else f }

/-- Doublewords of a loan's buffer with those that the context's anchored atomics under way will bring in (R122). -/
def State.bufferNeed (s : State) (c : CtxId) (buf : List Held) : Nat :=
  let keys := (s.flight.filter fun f => f.ctx == c && f.kind == .a && !f.performed && f.act != .load && f.act != .store).map (·.key)
  buf.length + (keys.filter fun k => !(buf.any (·.key == k))).eraseDups.length
/-- A store of a context to the destination of its own load on the way comes after that load: its bytes stay (R395). -/
def State.shield (s : State) (c : CtxId) (key n mask : Nat) : State :=
  if s.flight.any (fun f => f.ctx == c && s.regMeets c f.dcls f.dreg key n) then
    { s with flight := s.flight.map fun f =>
        if f.ctx = c ∧ s.regMeets c f.dcls f.dreg key n then { f with later := f.later ++ [(key, n, mask)] } else f }
  else s
/-- What a context's own write to its pool sets off beside what every write does (R81, R329): the stall after a store to its window,
the end of a stream's read-ahead. -/
def State.ownStore (s : State) (c : CtxId) (kind : AccKind) (key n mask : Nat) : State :=
  let s := (s.dropAhead c key n).shield c key n mask
  if kind = .w ∨ s.ownWindow c key then s.setCtx c { s.ctx c with notBefore := max (s.ctx c).notBefore (s.cyc + 3) } else s
/-- The value of a performed store enters the signature of a recording or replay in the context's pylon (R242). -/
def State.signStore (s : State) (c : CtxId) (val : Nat) : State :=
  let w := s.ctl (67112960 + c.core.pyl * 256)
  if bit w 0 || bit w 2 then
    let y := s.pylon c.core.pyl
    s.setPylon c.core.pyl { y with signAcc := Config.replaySign y.signAcc val }
  else s
/-- Store an element or a register's bytes to a place (R163 to R165, R121, R122, R148); near places at once. `ea` is the address that
the word formed; `grp` and `pos` join the parts of one word. -/
def State.storeAt (s : State) (c : CtxId) (p : Place) (kind : AccKind) (va n val mask : Nat) (ea : Nat := va) (grp : Nat := 0)
    (pos : Nat := 0) : Chk State := do
  let x := s.ctx c
  let f : Access := { p.access c .store kind va n with val := val, mask := mask, ea := ea, grp := grp, pos := pos }
  if ← s.atOnce p f then pure (((s.signStore c val).wrMem p.key n val mask (some c)).ownStore c kind p.key n mask)
  else if kind = .g then
    pure ((s.setCtx c { x.coverLoan p.key n mask with publish := heldPut x.publish p.key va n val mask }).unsnap c p.key n mask)
  else match kind, x.grant with
    | .a, some gr =>
      if gr.snap then
        let busy := s.anchBusy c p.key n
        if !busy.isEmpty then throw (.retry (.accesses busy))
        let buf := heldPut gr.buf p.key va n val mask
        if s.bufferNeed c buf > 512 then trap 54 9 ea
        else pure (s.setCtx c { x.coverHeld p.key n mask with grant := some { gr with buf := buf } })
      else pure ((s.flushRange c p.key n mask).send f)
    | _, _ =>
      let s := if kind = .f ∧ p.home.isSome then (s.setCtx c (x.coverLoan p.key n mask)).flushRange c p.key n mask else s
      let s := match p.owner with
        | some u => s.wakeCluster u.cluster
        | none => s
      pure (s.send f)

/-- The place of the element that is appended next to stream n, after the causes of the append (R151, R329, R418). -/
def State.appendPlace (s : State) (c : CtxId) (n : Nat) (vec : Bool) : Chk Place := do
  s.streamCheck c n true vec
  let w := s.streamWord c n
  let b := s.streamBytes c w
  s.aim c (s.rs c n 0) b 0 b (streamKind w) true false
/-- The causes that a destination stream has, which come before DIV_ZERO and FP_ENABLED (R418). -/
def State.dstCheck (s : State) (c : CtxId) (o : Opnds) (vec : Bool) : Chk Unit :=
  if 8 ≤ o.m.dst then do
    let _ ← s.appendPlace c (o.m.dst - 8) vec
    pure ()
  else .ok ()
/-- Append an element to stream n (R151, R329). -/
def State.appendStream (s : State) (c : CtxId) (n val : Nat) (vec : Bool) : Chk State := do
  let p ← s.appendPlace c n vec
  let w := s.streamWord c n
  let b := s.streamBytes c w
  let va := s.rs c n 0
  let val := if vec then s.cutCodes c (bits w 4 0) val else val
  let s ← s.storeAt c p (streamKind w) va b (if vec ∧ b = 64 then pack4 val 64 else val) (2 ^ b - 1)
  pure (s.streamStep c n)

/-- A result of class x to register r, or where DST directs it (R95, R255). -/
def State.putX (s : State) (c : CtxId) (o : Opnds) (r v : Nat) : Chk State :=
  if o.m.dst = 0 then .ok ((s.cancel c 1 r).wx c r v)
  else if o.m.dst < 8 then s.putLink c o.m.dst (v % 18446744073709551616) 0
  else s.appendStream c (o.m.dst - 8) (v % 18446744073709551616) false

/-- A result of class v to register r with its tag, or where DST directs it. -/
def State.putV (s : State) (c : CtxId) (o : Opnds) (r v tag : Nat) : Chk State :=
  if o.m.dst = 0 then .ok ((s.cancel c 2 r).wv c r v tag)
  else if o.m.dst < 8 then s.putLink c o.m.dst v tag
  else s.appendStream c (o.m.dst - 8) v true

/-- Complete a word with a scalar result. -/
def retX (s : State) (c : CtxId) (o : Opnds) (r v : Nat) : Chk Out := do
  let t ← s.putX c o r v
  pure (.done t)

/-- Complete a word with a vector result. -/
def retV (s : State) (c : CtxId) (o : Opnds) (r v tag : Nat) : Chk Out := do
  let t ← s.putV c o r v tag
  pure (.done t)

/-- A result of the own pool that words read from the fourth cycle on (R98, R147). -/
def State.later (s : State) (c : CtxId) (cls reg : Nat) : State :=
  s.setCtx c { s.ctx c with pend := (s.ctx c).pend.filter (fun p => decide (s.cyc < p.until_) || p.until_ == 0) ++ [{ cls := cls, reg := reg, until_ := s.cyc + 4 }] }

/-! ### Immediates (R246, R253) -/

/-- IMM16, or the 38-bit value that HINT.IMM widens it to. -/
def immI (o : Opnds) (imm : Nat) : Int :=
  match o.imm with
  | some p => sext (p * 65536 + imm) 38
  | none => sext imm 16
/-- OFF of format M, scaled. -/
def offM (o : Opnds) (off sz : Nat) : Int :=
  (match o.imm with
   | some p => sext (p * 1024 + off) 32
   | none => sext off 10) * 2 ^ sz
/-- OFF of format VM, scaled. -/
def offVM (o : Opnds) (off : Nat) : Int :=
  (match o.imm with
   | some p => sext (p * 256 + off) 30
   | none => sext off 8) * 128
/-- OFF12 of format B. -/
def offB (o : Opnds) (off : Nat) : Int :=
  match o.imm with
  | some p => sext (p * 4096 + off) 34
  | none => sext off 12
/-- `wrap64` of a base plus a signed displacement (R8). -/
def addOff (base : Nat) (off : Int) : Nat := (Word.ofI ((base : Int) + off)).toNat

/-- A transfer to an address (R279): in space 0x0 and aligned to 4, or ALIGN or ACCESS at the transfer word (R418, R425). -/
def transfer (s : State) (pc : Nat) : Chk Out := do
  if pc % 4 ≠ 0 then trap 5 0 pc
  if bits pc 63 60 ≠ 0 then trap 17 2 pc
  pure (.goto s pc)

/-! ### Common signatures -/

/-- A register that is read. -/
def rd (k : Cls) (r : Nat) : Option Opr := some ⟨k, .read, r⟩
/-- A register that is written. -/
def wr (k : Cls) (r : Nat) : Option Opr := some ⟨k, .write, r⟩
/-- A register that is read and written. -/
def rw (k : Cls) (r : Nat) : Option Opr := some ⟨k, .both, r⟩

end Sys2Proof.Machine
end

