-- ==== Sys2Proof/Machine/Alu.lean ====
section
/-! DEFINITION. The scalar family (11_isa_scalar R269 to R279): integer arithmetic, immediates, shifts, branches, jumps. -/

namespace Sys2Proof.Machine

/-- A word of three scalar registers; each takes direction codes. -/
def rrr (d a b : Nat) : Sig := { d := wr .x d, a := rd .x a, b := rd .x b, dd := true, da := true, db := true }
/-- A word of two scalar registers. -/
def rr (d a : Nat) : Sig := { d := wr .x d, a := rd .x a, dd := true, da := true }

/-- x[D] from x[A] and x[B] (R269). -/
def alu2 (d a b : Nat) (f : Word → Word → Word) (s : State) : Host.Outcome State Fault Refusal :=
  word (rrr d a b) s fun o t => retX t t.cur o d (f (Word.ofN o.a) (Word.ofN o.b)).toNat

/-- x[D] from x[A] (R269, R274). -/
def alu1 (d a : Nat) (f : Word → Word) (s : State) : Host.Outcome State Fault Refusal :=
  word (rr d a) s fun o t => retX t t.cur o d (f (Word.ofN o.a)).toNat

/-- x[D] from x[A] and the immediate, which HINT.IMM widens (R272, R253). -/
def aluI (d a imm : Nat) (f : Word → Int → Word) (s : State) : Host.Outcome State Fault Refusal :=
  word { rr d a with imm := true } s fun o t => retX t t.cur o d (f (Word.ofN o.a) (immI o imm)).toNat

/-- A quotient or remainder; a zero divisor traps DIV_ZERO with the dividend (R270, R413). -/
def divide (d a b : Nat) (f : Word → Word → Word) (s : State) : Host.Outcome State Fault Refusal :=
  word (rrr d a b) s fun o t => do
    t.dstCheck t.cur o false
    if Word.ofN o.b = 0 then trap 9 0 (Word.ofN o.a).toNat
    retX t t.cur o d (f (Word.ofN o.a) (Word.ofN o.b)).toNat

/-- 1 or 0. -/
def flag (p : Bool) : Word := if p then 1 else 0

/-- Leading zero bits of the low n bits of v. -/
def leadZeros (v : Nat) : Nat → Nat
  | 0 => 0
  | n + 1 => if v / 2 ^ n % 2 = 1 then 0 else 1 + leadZeros v n
/-- Trailing zero bits of the low n bits of v. -/
def trailZeros (v : Nat) : Nat → Nat
  | 0 => 0
  | n + 1 => if v % 2 = 1 then 0 else 1 + trailZeros (v / 2) n
/-- How many of the low n bits of v are 1. -/
def popCount (v : Nat) : Nat → Nat
  | 0 => 0
  | n + 1 => v % 2 + popCount (v / 2) n

/-- A conditional branch (R275); the offset counts from the branch word (R246). -/
def branch (sig : Sig) (off : Nat) (take : Word → Word → Bool) (s : State) : Host.Outcome State Fault Refusal :=
  word { sig with imm := true } s fun o t =>
    if take (Word.ofN o.a) (Word.ofN o.b) then transfer t (addOff (t.ctx t.cur).pc.toNat (4 * offB o off)) else .ok (.done t)
/-- The fields of a two-register branch. -/
def brr (a b : Nat) : Sig := { a := rd .x a, b := rd .x b, da := true, db := true }
/-- The fields of a one-register branch. -/
def br (a : Nat) : Sig := { a := rd .x a, da := true }

/-- ADD: wrap64(a + b) (R269). -/
def execAdd (d a b : Nat) (s : State) : Host.Outcome State Fault Refusal := alu2 d a b (· + ·) s
/-- SUB: wrap64(a − b) (R269). -/
def execSub (d a b : Nat) (s : State) : Host.Outcome State Fault Refusal := alu2 d a b (· - ·) s
/-- AND (R269). -/
def execAnd (d a b : Nat) (s : State) : Host.Outcome State Fault Refusal := alu2 d a b (· &&& ·) s
/-- OR (R269). -/
def execOr (d a b : Nat) (s : State) : Host.Outcome State Fault Refusal := alu2 d a b (· ||| ·) s
/-- XOR (R269). -/
def execXor (d a b : Nat) (s : State) : Host.Outcome State Fault Refusal := alu2 d a b (· ^^^ ·) s
/-- SHL by b mod 64 (R269). -/
def execShl (d a b : Nat) (s : State) : Host.Outcome State Fault Refusal := alu2 d a b (fun a b => a <<< (b.toNat % 64)) s
/-- SHR by b mod 64 (R269). -/
def execShr (d a b : Nat) (s : State) : Host.Outcome State Fault Refusal := alu2 d a b (fun a b => a >>> (b.toNat % 64)) s
/-- SRA by b mod 64 (R269). -/
def execSra (d a b : Nat) (s : State) : Host.Outcome State Fault Refusal := alu2 d a b (fun a b => a.sshiftRight (b.toNat % 64)) s
/-- MUL (R269). -/
def execMul (d a b : Nat) (s : State) : Host.Outcome State Fault Refusal := alu2 d a b (· * ·) s
/-- MULH: the high half of the signed product (R269). -/
def execMulh (d a b : Nat) (s : State) : Host.Outcome State Fault Refusal := alu2 d a b (fun a b => Word.ofI (a.toInt * b.toInt / 18446744073709551616)) s
/-- MULHU (R269). -/
def execMulhu (d a b : Nat) (s : State) : Host.Outcome State Fault Refusal := alu2 d a b (fun a b => Word.ofN (a.toNat * b.toNat / 18446744073709551616)) s
/-- MIN, signed (R269). -/
def execMin (d a b : Nat) (s : State) : Host.Outcome State Fault Refusal := alu2 d a b (fun a b => if a.toInt ≤ b.toInt then a else b) s
/-- MAX, signed (R269). -/
def execMax (d a b : Nat) (s : State) : Host.Outcome State Fault Refusal := alu2 d a b (fun a b => if a.toInt ≤ b.toInt then b else a) s
/-- MINU (R269). -/
def execMinu (d a b : Nat) (s : State) : Host.Outcome State Fault Refusal := alu2 d a b (fun a b => if a ≤ b then a else b) s
/-- MAXU (R269). -/
def execMaxu (d a b : Nat) (s : State) : Host.Outcome State Fault Refusal := alu2 d a b (fun a b => if a ≤ b then b else a) s
/-- SLT (R269). -/
def execSlt (d a b : Nat) (s : State) : Host.Outcome State Fault Refusal := alu2 d a b (fun a b => flag (decide (a.toInt < b.toInt))) s
/-- SLTU (R269). -/
def execSltu (d a b : Nat) (s : State) : Host.Outcome State Fault Refusal := alu2 d a b (fun a b => flag (decide (a < b))) s
/-- SEQ (R269). -/
def execSeq (d a b : Nat) (s : State) : Host.Outcome State Fault Refusal := alu2 d a b (fun a b => flag (a == b)) s
/-- ADDW: the low 32 bits of the sum, sign-extended (R269). -/
def execAddw (d a b : Nat) (s : State) : Host.Outcome State Fault Refusal := alu2 d a b (fun a b => Word.ofI (sext (a + b).toNat 32)) s
/-- SUBW (R269). -/
def execSubw (d a b : Nat) (s : State) : Host.Outcome State Fault Refusal := alu2 d a b (fun a b => Word.ofI (sext (a - b).toNat 32)) s
/-- MKPA: a space 0x4 address (R271). -/
def execMkpa (d a b : Nat) (s : State) : Host.Outcome State Fault Refusal := alu2 d a b (fun a b => Word.ofN (4611686018427387904 + bits a.toNat 17 15 * 144115188075855872 + bits a.toNat 14 9 * 2251799813685248 +
    bits a.toNat 8 4 * 70368744177664 + bits b.toNat 17 0)) s
/-- MKPA.REL: a space 0x5 address (R271). -/
def execMkpaRel (d a b : Nat) (s : State) : Host.Outcome State Fault Refusal := alu2 d a b (fun a b => Word.ofN (5764607523034234880 + bits a.toNat 14 9 * 2251799813685248 + bits a.toNat 8 4 * 70368744177664 +
    bits b.toNat 17 0)) s
/-- DIV: toward zero, wrapping (R270). -/
def execDiv (d a b : Nat) (s : State) : Host.Outcome State Fault Refusal := divide d a b (fun a b => Word.ofI (a.toInt.tdiv b.toInt)) s
/-- DIVU (R270). -/
def execDivu (d a b : Nat) (s : State) : Host.Outcome State Fault Refusal := divide d a b (fun a b => Word.ofN (a.toNat / b.toNat)) s
/-- REM: the sign of the dividend (R270). -/
def execRem (d a b : Nat) (s : State) : Host.Outcome State Fault Refusal := divide d a b (fun a b => Word.ofI (a.toInt.tmod b.toInt)) s
/-- REMU (R270). -/
def execRemu (d a b : Nat) (s : State) : Host.Outcome State Fault Refusal := divide d a b (fun a b => Word.ofN (a.toNat % b.toNat)) s
/-- CLZ (R269). -/
def execClz (d a : Nat) (s : State) : Host.Outcome State Fault Refusal := alu1 d a (fun a => Word.ofN (leadZeros a.toNat 64)) s
/-- CTZ (R269). -/
def execCtz (d a : Nat) (s : State) : Host.Outcome State Fault Refusal := alu1 d a (fun a => Word.ofN (trailZeros a.toNat 64)) s
/-- POPC (R269). -/
def execPopc (d a : Nat) (s : State) : Host.Outcome State Fault Refusal := alu1 d a (fun a => Word.ofN (popCount a.toNat 64)) s
/-- SEL: a if x[C] ≠ 0, else b (R269). -/
def execSel (d a b c : Nat) (s : State) : Host.Outcome State Fault Refusal := 
  word { rrr d a b with c := rd .x c } s fun o t => retX t t.cur o d (if Word.ofN o.c ≠ 0 then o.a else o.b)
/-- SHLI (R274). -/
def execShli (d a n n5 : Nat) (s : State) : Host.Outcome State Fault Refusal := alu1 d a (fun a => a <<< (n + 32 * n5)) s
/-- SHRI (R274). -/
def execShri (d a n n5 : Nat) (s : State) : Host.Outcome State Fault Refusal := alu1 d a (fun a => a >>> (n + 32 * n5)) s
/-- SRAI (R274). -/
def execSrai (d a n n5 : Nat) (s : State) : Host.Outcome State Fault Refusal := alu1 d a (fun a => a.sshiftRight (n + 32 * n5)) s
/-- ADDI (R272). -/
def execAddi (d a imm : Nat) (s : State) : Host.Outcome State Fault Refusal := aluI d a imm (fun a i => Word.ofI (a.toNat + i)) s
/-- ANDI (R272). -/
def execAndi (d a imm : Nat) (s : State) : Host.Outcome State Fault Refusal := aluI d a imm (fun a i => a &&& Word.ofI i) s
/-- ORI (R272). -/
def execOri (d a imm : Nat) (s : State) : Host.Outcome State Fault Refusal := aluI d a imm (fun a i => a ||| Word.ofI i) s
/-- XORI (R272). -/
def execXori (d a imm : Nat) (s : State) : Host.Outcome State Fault Refusal := aluI d a imm (fun a i => a ^^^ Word.ofI i) s
/-- SLTI (R272). -/
def execSlti (d a imm : Nat) (s : State) : Host.Outcome State Fault Refusal := aluI d a imm (fun a i => flag (decide (a.toInt < i))) s
/-- MOVI (R272). -/
def execMovi (d imm : Nat) (s : State) : Host.Outcome State Fault Refusal := 
  word { d := wr .x d, dd := true, imm := true } s fun o t => retX t t.cur o d (Word.ofI (immI o imm)).toNat
/-- MOVK: one halfword replaced (R273). -/
def execMovk (d pos imm : Nat) (s : State) : Host.Outcome State Fault Refusal := 
  word { d := rw .x d, dd := true } s fun o t =>
    retX t t.cur o d (o.d - o.d / 65536 ^ pos % 65536 * 65536 ^ pos + imm % 65536 * 65536 ^ pos)
/-- BEQ (R275). -/
def execBeq (a b off : Nat) (s : State) : Host.Outcome State Fault Refusal := branch (brr a b) off (fun a b => a == b) s
/-- BNE (R275). -/
def execBne (a b off : Nat) (s : State) : Host.Outcome State Fault Refusal := branch (brr a b) off (fun a b => a != b) s
/-- BLT (R275). -/
def execBlt (a b off : Nat) (s : State) : Host.Outcome State Fault Refusal := branch (brr a b) off (fun a b => decide (a.toInt < b.toInt)) s
/-- BGE (R275). -/
def execBge (a b off : Nat) (s : State) : Host.Outcome State Fault Refusal := branch (brr a b) off (fun a b => decide (b.toInt ≤ a.toInt)) s
/-- BLTU (R275). -/
def execBltu (a b off : Nat) (s : State) : Host.Outcome State Fault Refusal := branch (brr a b) off (fun a b => decide (a < b)) s
/-- BGEU (R275). -/
def execBgeu (a b off : Nat) (s : State) : Host.Outcome State Fault Refusal := branch (brr a b) off (fun a b => decide (b ≤ a)) s
/-- BZ (R275). -/
def execBz (a off : Nat) (s : State) : Host.Outcome State Fault Refusal := branch (br a) off (fun a _ => a == 0) s
/-- BNZ (R275). -/
def execBnz (a off : Nat) (s : State) : Host.Outcome State Fault Refusal := branch (br a) off (fun a _ => a != 0) s
/-- J (R276). -/
def execJ (off : Nat) (s : State) : Host.Outcome State Fault Refusal := 
  word {} s fun _ t => transfer t (addOff (t.ctx t.cur).pc.toNat (4 * sext off 26))
/-- JAL: x1 takes the address of the next word (R276). -/
def execJal (off : Nat) (s : State) : Host.Outcome State Fault Refusal := 
  word {} s fun _ t =>
    transfer ((t.cancel t.cur 1 1).wx t.cur 1 ((t.ctx t.cur).pc + 4).toNat) (addOff (t.ctx t.cur).pc.toNat (4 * sext off 26))
/-- JR (R277). -/
def execJr (a : Nat) (s : State) : Host.Outcome State Fault Refusal := 
  word { a := rd .x a, da := true } s fun o t => transfer t o.a
/-- JALR: the target is read before x[D] is written (R277). -/
def execJalr (d a : Nat) (s : State) : Host.Outcome State Fault Refusal := 
  word (rr d a) s fun o t => do
    let t' ← t.putX t.cur o d ((t.ctx t.cur).pc + 4).toNat
    transfer t' o.a
/-- RET: as JR of x1 (R277). -/
def execRet (s : State) : Host.Outcome State Fault Refusal :=
  word {} s fun _ t => do
    let (a, _) ← t.readReg t.cur ⟨.x, .read, 1⟩
    transfer t a
/-- LOOP: count down and branch while not zero; x0 counts down from 0 for ever (R278). -/
def execLoop (d imm : Nat) (s : State) : Host.Outcome State Fault Refusal :=
  word { d := rw .x d, dd := true, imm := true } s fun o t => do
    let n := Word.ofN o.d - 1
    let t' ← t.putX t.cur o d n.toNat
    if n = 0 then pure (.done t') else transfer t' (addOff (t.ctx t.cur).pc.toNat (4 * immI o imm))
/-- NOP (R282 table, R250). -/
def execNop (s : State) : Host.Outcome State Fault Refusal := word {} s fun _ t => .ok (.done t)

end Sys2Proof.Machine
end

