-- ==== Sys2Proof/Machine/Sha.lean ====
section
/-! DEFINITION. SHA-512 and HMAC, with which capabilities are sealed (15_isa_engines R387; FIPS 180-4, RFC 2104). -/

namespace Sys2Proof.Machine

/-- The round constants of SHA-512. -/
def shaK : List Nat :=
  [4794697086780616226, 8158064640168781261, 13096744586834688815, 16840607885511220156,
   4131703408338449720, 6480981068601479193, 10538285296894168987, 12329834152419229976,
   15566598209576043074, 1334009975649890238, 2608012711638119052, 6128411473006802146,
   8268148722764581231, 9286055187155687089, 11230858885718282805, 13951009754708518548] ++
  [16472876342353939154, 17275323862435702243, 1135362057144423861, 2597628984639134821,
   3308224258029322869, 5365058923640841347, 6679025012923562964, 8573033837759648693,
   10970295158949994411, 12119686244451234320, 12683024718118986047, 13788192230050041572,
   14330467153632333762, 15395433587784984357, 489312712824947311, 1452737877330783856] ++
  [2861767655752347644, 3322285676063803686, 5560940570517711597, 5996557281743188959,
   7280758554555802590, 8532644243296465576, 9350256976987008742, 10552545826968843579,
   11727347734174303076, 12113106623233404929, 14000437183269869457, 14369950271660146224,
   15101387698204529176, 15463397548674623760, 17586052441742319658, 1182934255886127544] ++
  [1847814050463011016, 2177327727835720531, 2830643537854262169, 3796741975233480872,
   4115178125766777443, 5681478168544905931, 6601373596472566643, 7507060721942968483,
   8399075790359081724, 8693463985226723168, 9568029438360202098, 10144078919501101548,
   10430055236837252648, 11840083180663258601, 13761210420658862357, 14299343276471374635] ++
  [14566680578165727644, 15097957966210449927, 16922976911328602910, 17689382322260857208,
   500013540394364858, 748580250866718886, 1242879168328830382, 1977374033974150939,
   2944078676154940804, 3659926193048069267, 4368137639120453308, 4836135668995329356,
   5532061633213252278, 6448918945643986474, 6902733635092675308, 7801388544844847127]
/-- The first hash value. -/
def shaH : List Nat :=
  [7640891576956012808, 13503953896175478587, 4354685564936845355, 11912009170470909681,
   5840696475078001361, 11170449401992604703, 2270897969802886507, 6620516959819538809]
/-- Rotate a 64-bit number right. -/
def rotr (x n : Nat) : Nat := (x / 2 ^ n + x * 2 ^ (64 - n)) % 18446744073709551616
/-- The message schedule, last word first: n more words. -/
def shaSchedule : Nat → List Nat → List Nat
  | 0, w => w
  | n + 1, w =>
    let x := w.getD 14 0
    let y := w.getD 1 0
    let s0 := rotr x 1 ^^^ rotr x 8 ^^^ (x / 128)
    let s1 := rotr y 19 ^^^ rotr y 61 ^^^ (y / 64)
    shaSchedule n ((s1 + w.getD 6 0 + s0 + w.getD 15 0) % 18446744073709551616 :: w)
/-- The working variables a to h after one round with k + w. -/
def shaRound (v : List Nat) (kw : Nat) : List Nat :=
  match v with
  | [a, b, c, d, e, f, g, h] =>
    let s1 := rotr e 14 ^^^ rotr e 18 ^^^ rotr e 41
    let ch := (e &&& f) ^^^ ((18446744073709551615 - e) &&& g)
    let t1 := h + s1 + ch + kw
    let s0 := rotr a 28 ^^^ rotr a 34 ^^^ rotr a 39
    let maj := (a &&& b) ^^^ (a &&& c) ^^^ (b &&& c)
    [(t1 + s0 + maj) % 18446744073709551616, a, b, c, (d + t1) % 18446744073709551616, e, f, g]
  | v => v
/-- The hash value after one block of sixteen words. -/
def shaBlock (h block : List Nat) : List Nat :=
  let w := (shaSchedule 64 block.reverse).reverse
  let v := ((shaK.zip w).map fun e => e.1 + e.2).foldl shaRound h
  (h.zip v).map fun e => (e.1 + e.2) % 18446744073709551616
/-- Bytes as a number, the first highest. -/
def bigEndian (bs : List Nat) : Nat := bs.foldl (fun v b => 256 * v + b) 0
/-- n bytes of a number, the highest first. -/
def bytesBig (v : Nat) : Nat → List Nat
  | 0 => []
  | n + 1 => v / 256 ^ n % 256 :: bytesBig v n
/-- The first n words of 64 bits of a list of bytes. -/
def wordsBig (bs : List Nat) : Nat → List Nat
  | 0 => []
  | n + 1 => bigEndian (bs.take 8) :: wordsBig (bs.drop 8) n
/-- The hash over n blocks of a padded message. -/
def shaBlocks : Nat → List Nat → List Nat → List Nat
  | 0, _, h => h
  | n + 1, bs, h => shaBlocks n (bs.drop 128) (shaBlock h (wordsBig (bs.take 128) 16))
/-- SHA-512 of a message of bytes. -/
def sha512 (msg : List Nat) : List Nat :=
  let n := (msg.length + 17 + 127) / 128
  let padded := msg ++ 128 :: List.replicate (128 * n - msg.length - 17) 0 ++ bytesBig (8 * msg.length) 16
  (shaBlocks n padded shaH).flatMap fun w => bytesBig w 8
/-- HMAC-SHA-512 under a key of at most 128 bytes. -/
def hmacSha512 (key msg : List Nat) : List Nat :=
  let k := key ++ List.replicate (128 - key.length) 0
  sha512 ((k.map (· ^^^ 92)) ++ sha512 ((k.map (· ^^^ 54)) ++ msg))

/-! ### RSASSA-PSS (R230): SHA-512, MGF1 with SHA-512, a salt of 64 bytes, RSA-4096 with exponent 65,537 -/

/-- MGF1 (R230): n bytes from a seed. -/
def mgf1 (seed : List Nat) (n : Nat) : List Nat :=
  ((List.range ((n + 63) / 64)).flatMap fun i => sha512 (seed ++ bytesBig i 4)).take n
/-- The power 2^k of a number under a modulus. -/
def squares (n : Nat) : Nat → Nat → Nat
  | 0, x => x
  | k + 1, x => squares n k (x * x % n)
/-- Does a signature verify on a message under a modulus of 4,096 bits (R230)? The encoded message has 4,095 bits. -/
def pssVerify (n sig : Nat) (msg : List Nat) : Bool :=
  let em := bytesBig (squares n 16 sig * sig % n) 512
  let masked := em.take 447
  let h := (em.drop 447).take 64
  let db := (masked.zip (mgf1 h 447)).map fun e => e.1 ^^^ e.2
  let db := (db.headD 0 % 128) :: db.drop 1
  decide (sig < n) && decide (masked.headD 0 < 128) && em.getD 511 0 == 188 && (db.take 382).all (· == 0) && db.getD 382 0 == 1 &&
    sha512 (List.replicate 8 0 ++ sha512 msg ++ db.drop 383) == h

end Sys2Proof.Machine
end

