-- ==== Sys2Proof/Machine/Issue.lean ====
section
/-! DEFINITION. Which context issues next (R104, R219), when a waiting word is issued again (R77), fetching a word (R158,
R422), and how time goes on (R5, R87). -/

namespace Sys2Proof.Machine

/-- The mask of MWAIT (R182): entries that fired, a timeout, a spurious cause. -/
def Ctx.watchMask (x : Ctx) : Nat :=
  let f (n : Nat) := x.watchAt n
  (upFrom 0 4).foldl (fun m n => m + if (f n).fired then 2 ^ n else 0) 0 +
  (if (upFrom 0 4).any fun n => (f n).expired then 16 else 0) +
  (if x.spurious || (upFrom 0 4).any (fun n => (f n).evicted) then 32 else 0)
/-- Does MWAIT complete: no MON of the context is still on its way, and a cause holds or no entry is armed (R182, R361)? -/
def State.mwaitDone (s : State) (c : CtxId) : Bool :=
  let x := s.ctx c
  let mon (f : Access) : Bool := f.ctx == c && !f.performed && match f.act with
    | .mon _ _ => true
    | _ => false
  !(s.flight.any mon) && (x.watchMask != 0 || !((upFrom 0 4).any fun n => (x.watchAt n).armed))
/-- Is a helper free, with its stores performed and nothing on its way to its window (R78, R283)? -/
def State.helperDone (s : State) (h : CtxId) : Bool :=
  (s.ctx h).st == .free && !(s.sfuBusy h) &&
  !(s.flight.any fun f => f.ctx == h && ((!f.isLoad && !f.performed) || (decide (1 ≤ f.dcls) && decide (f.dcls ≤ 4))))
/-- Does the condition of a wait hold, so that its word is issued again (R77)? Other waits are ended by a step. -/
def State.wakes (s : State) (c : CtxId) : Bool :=
  let x := s.ctx c
  let u := s.core c.core
  match x.wait with
  | .operands k r => !s.pending c k r
  | .stores => s.storesDone c
  | .halt => c.core.ctxs.all fun o => o == c || (s.ctx o).st == .free
  | .joinh n => s.helperDone ⟨c.core, n⟩
  | .pwait => match x.parrive with
    | some (_, r) => r
    | none => true
  | .recv => !u.rx.isEmpty && s.recvFirst c
  | .send v => decide ((s.core v).rxWait.length ≤ Config.meshRoom)
  | .mwait => s.mwaitDone c
  | .wfi => x.wfiCst || x.wfiMsg || x.wfiTmo || x.spurious || !u.rx.isEmpty
  | .ewait _ => x.raised
  | .twait => bit x.tgrp.toNat 2
  | .queue m => if m then decide (u.mq.length < 8) else decide ((s.clOf c).gq.length < 16)
  | .sfu => !s.sfuBusy c
  | .accesses l => !s.waitsFor c.core l
  | .msync l => !(u.mq.any fun m => l.contains m.id)
  | .link p => s.linkReady c p
  | _ => false
/-- Waits of a word that has not begun: its context counts as ready for a stop (R77, R221), but for one that reads the destination of a
load parked on an empty row, which is a wait of R77 (`State.stalls`). -/
def Wait.stalls : Wait → Bool
  | .operands _ _ => true
  | .walk => true
  | .sfu => true
  | .accesses _ => true
  | .delay => true
  | .yield => true
  | _ => false
/-- Does a context wait for a register that a load parked on an empty row writes (R77, R140)? -/
def State.parkedOn (s : State) (c : CtxId) : Bool :=
  match (s.ctx c).wait with
  | .operands k r => s.flight.any fun f => f.ctx == c && f.dcls == k && f.dreg == r && f.parked && f.onRow
  | _ => false
/-- Is a waiting context in a word that has not begun? -/
def State.stalls (s : State) (c : CtxId) : Bool := (s.ctx c).wait.stalls && !s.parkedOn c
/-- Has a context issued HALT, which it is still in (R221, R284)? -/
def Ctx.halting (x : Ctx) : Bool := x.st == .waiting && (x.wait == .halt || (x.wait == .stores && x.waitIr == 1))

/-- May a context issue a word in this cycle (R219)? -/
def State.canIssue (s : State) (c : CtxId) : Bool :=
  let x := s.ctx c
  decide (x.notBefore ≤ s.cyc) && !x.halted &&
  (match s.launchOf c.core with
   | some l => !l.stopHeld
   | none => true) &&
  (x.st == .ready || (x.st == .waiting && x.due && s.wakes c))

/-- A context whose awaited condition has come to hold is ready from this cycle on (R77, R219); one whose condition has passed again
waits on. -/
def State.noteDue (s : State) (c : CtxId) : State :=
  let x := s.ctx c
  s.setCtx c { x with due := !x.due, since := if x.due then x.since else s.cyc }
/-- Is it time to note that? -/
def State.dueChanged (s : State) (c : CtxId) : Bool := (s.ctx c).st == .waiting && s.wakes c != (s.ctx c).due

/-- The selection of one core in one cycle (R219): the context, and `served` and `last_helper` after it. -/
def State.select (s : State) (u : CoreId) : Option (CtxId × List Nat × Nat) :=
  let k := s.core u
  if k.lastIssue = some s.cyc then none else
  match (k.pushLast.filter (·.1 == s.cyc)).map (·.2) with
  | some n => if s.canIssue ⟨u, n⟩ then some (⟨u, n⟩, k.served, k.lastHelper) else none
  | none =>
  match u.ctxs.find? fun c => (s.ctx c).timed.isSome with
  | some c => if s.canIssue c then some (c, k.served ++ [c.k], k.lastHelper) else none
  | none =>
    let able := (u.ctxs.filter (s.canIssue ·)).map (·.k)
    let fresh := able.filter fun n => !k.served.contains n
    let (cand, served) := if fresh.isEmpty then (able, []) else (fresh, k.served)
    let since0 := s.cyc - max k.zeroSince (s.ctx ⟨u, 0⟩).since
    if cand.contains 0 ∧ since0 ≥ 4 then some (⟨u, 0⟩, served ++ [0], k.lastHelper)
    else
      match ((cand.filter (· > k.lastHelper)) ++ cand).find? (· != 0) with
      | some n => some (⟨u, n⟩, served ++ [n], n)
      | none => if cand.contains 0 then some (⟨u, 0⟩, served ++ [0], k.lastHelper) else none

/-- The next context to issue in this cycle, of the first core that has one; a push that a pop may still come before is last
(R102). -/
def State.nextIssuer (s : State) : Option CtxId :=
  let late (u : CoreId) : Bool := (s.core u).pushLast.any (·.1 == s.cyc)
  (s.ctxs.findSome? fun e => if late e.1.core then none else (s.select e.1.core).map (·.1)).orElse fun _ =>
    s.ctxs.findSome? fun e => (s.select e.1.core).map (·.1)

/-- The contexts whose YIELD ends with this issue: each sibling that was ready has issued once (R285). -/
def State.yieldNote (s : State) (c : CtxId) : State :=
  c.core.ctxs.foldl (fun s o =>
    let x := s.ctx o
    if o ≠ c ∧ x.st = .waiting ∧ x.wait = .yield ∧ x.yieldTo.contains c.k then
      let rest := x.yieldTo.filter (· != c.k)
      let s := s.setCtx o { x with yieldTo := rest }
      if rest.isEmpty then s.after 0 .yieldEnd { ctx := o, ns := [x.waitNo] } else s
    else s) s

/-- The state in which a context's word is executed: the context and its word are the ones in issue, and the core has issued
in this cycle (R219). -/
def State.issue (s : State) (c : CtxId) (w : BitVec 32) : State :=
  let k := s.core c.core
  let (served, lastH) := match s.select c.core with
    | some (d, sv, lh) => if d = c then (sv, lh) else (k.served ++ [c.k], k.lastHelper)
    | none => (k.served ++ [c.k], k.lastHelper)
  let s := s.setCore c.core { k with served := served, lastHelper := lastH, lastIssue := some s.cyc,
                                     zeroSince := if c.k = 0 then s.cyc else k.zeroSince }
  let x := s.ctx c
  ({ s with cur := c, ir := w, bad := none }.setCtx c { x with st := .ready, wait := .none, due := false }).yieldNote c

/-- The word at a context's pc (R158, R422, R429, R430): fetched through translation with X, or the state after its cause; a home that is
off gives none (R233). -/
def State.fetch (s : State) (c : CtxId) : Except State (BitVec 32) :=
  let pc := (s.ctx c).pc.toNat
  let s' := { s with cur := c, ir := 0 }
  if pc % 4 ≠ 0 then .error (s'.takeTrap c { cause := 5, val := pc } (s.ctx c).resume 0)
  else if bits pc 63 60 ≠ 0 then .error (s'.takeTrap c { cause := 17, detail := 2, val := pc } (s.ctx c).resume 0)
  else if bits pc 59 48 ≠ 0 then .error (s'.takeTrap c { cause := 17, detail := 4, val := pc } (s.ctx c).resume 0)
  else match s.translate c pc false true with
    | .error h => .error (s'.finish c (.error h))
    | .ok pa =>
      if isDevice pa ∧ s.off (homeOf pa / 64) then .error (s.setCtx c { s.ctx c with notBefore := s.cyc + 1 })
      else match s.poisoned pa 4 with
      | some u => .error ((s'.countPoison u).takeTrap c { cause := 20, val := pc } (s.ctx c).resume 0)
      | none => .ok (BitVec.ofNat 32 (Mem.read s.mem pa 4))

/-- Is a live context one that time alone may let issue? -/
def Ctx.timely (x : Ctx) : Bool := x.st == .ready || (x.st == .waiting && match x.wait with
  | .operands _ _ => true
  | _ => false)

/-- At the end of a cycle in which a core had no ready context that it has not served, no context of it is served (R219). -/
def State.unserved (s : State) : State :=
  { s with cores := s.cores.map fun e =>
      if e.2.served.isEmpty ∨ e.2.lastIssue = some s.cyc ∨ e.1.ctxs.any (fun c => (s.ctx c).timed.isSome) ∨
          e.1.ctxs.any (fun c => !e.2.served.contains c.k && s.canIssue c) then e
      else (e.1, { e.2 with served := [] }) }
/-- The next cycle, or the cycle in which the next step falls due when nothing else can happen before it (R87). -/
def State.tick (s : State) : State :=
  let next := match s.agenda with
    | (t, _, _) :: _ =>
      let soon (e : CtxId × Ctx) : Bool := !e.2.halted && (e.2.timely || (e.2.st == .waiting && s.wakes e.1))
      if s.ctxs.any soon then s.cyc + 1 else max (s.cyc + 1) t
    | [] => s.cyc + 1
  { s.unserved with cyc := next }

/-- Does a context issue HALT in the cycle in which its stop request arrives (R290)? -/
def State.haltsNow (s : State) (c : CtxId) : Bool :=
  ((s.ctx c).stops.all (· == s.cyc)) && ((s.select c.core).map (·.1) == some c) && match s.fetch c with
    | .ok w => w.toNat == 1
    | .error _ => false
/-- Is the packet of a context, if it has one open, no hindrance to a stop: PFB is set, or the stop has waited long enough (R221,
R453)? -/
def Ctx.pktFree (x : Ctx) : Bool := x.pkt.isNone || bit x.ctlmode.toNat 0 || x.pktCut
/-- May a word of a context be chosen to issue: it is the selection of its core in this cycle (R219)? -/
def State.mayIssue (s : State) (c : CtxId) : Bool := (s.select c.core).map (·.1) == some c
/-- May a stop take hold of a context in this cycle (R221)? A wait of R77 is stopped inside it, but for SEND's, XBEGIN's and
HALT's; a ready context between two units of a hint chain and its target. -/
def State.atStop (s : State) (c : CtxId) : Bool :=
  let x := s.ctx c
  !x.stops.isEmpty && x.timed.isNone && !x.halted && !x.halting &&
  (if x.st == .waiting && !s.stalls c then
     match x.wait with
     | .barrier _ t => !t
     | .send _ => x.pktFree
     | _ => true
   else x.chainPc.isNone && x.pktFree && !s.haltsNow c) &&
  !((s.core c.core).mq.any fun m => m.started && !m.halted && decide (m.word % 64 < 3) && (m.src == some c || (m.src == none && c.k == 0)))

/-- A stop request arrives at a context (R221, R223, R453): none for one that is free, Stopped or in HALT. A matrix command that runs
is noted, and a packet's end is waited for no longer than 65,536 cycles. -/
def State.askStop (s : State) (c : CtxId) : State :=
  let x := s.ctx c
  if x.st = .free ∨ x.st = .stopped ∨ x.halting then s else
    let runs := (s.core c.core).mq.any fun m => m.started && !m.halted && (m.src == some c || (m.src == none && c.k == 0))
    (s.setCtx c { x with stops := x.stops ++ [s.cyc], cmdRan := x.cmdRan || runs }).after 65536 .packetStopLimit
      { ctx := c, ns := [s.cyc] }

/-- What a context does when it is its turn: it stops, takes a pending cause, or issues (R411, R418). -/
inductive Turn where
  | due (c : CtxId)
  | step (i : Instr) (a : Arg)
  | issue (c : CtxId)
  deriving DecidableEq, Repr

/-- The next turn of the machine in this cycle, when the agenda has nothing due: waits whose condition has come to hold, then pending
causes, before stops (R418). A cause is taken before a word that has not begun; other waits end first (R411). `traps` tells of a
context whose next word takes a cause, which comes before its stop. -/
def State.turn (s : State) (traps : CtxId → Bool) : Option Turn :=
  let cause (e : CtxId × Ctx) := (e.2.st == .ready || (e.2.st == .waiting && s.stalls e.1 && s.wakes e.1)) && !e.2.async.isEmpty &&
    !e.2.halted
  match s.ctxs.find? fun e => s.dueChanged e.1 with
  | some e => some (.due e.1)
  | none =>
    match s.ctxs.find? cause with
    | some e => some (.step .asyncTrapTake { ctx := e.1 })
    | none =>
      match s.ctxs.find? fun e => (e.2.st == .ready || e.2.st == .waiting) && s.atStop e.1 && !traps e.1 with
      | some e => some (.step .contextStop { ctx := e.1 })
      | none => (s.nextIssuer).map .issue

end Sys2Proof.Machine
end

