-- ==== Sys2Proof/Machine/ViewGeo.lean ====
section
/-! DEFINITION. Where the blocks of masters and views lie (07_views R183 to R188), and the locations that a step of a view engine
accesses (R193). -/

namespace Sys2Proof.Machine

/-! ### Geometry (R183, R188) -/

/-- Bytes of a master element. -/
def Master.ms (m : Master) : Nat := if m.slot = 26 then 4 else 2
/-- Block columns of a master. -/
def Master.nbc (m : Master) : Nat := m.cols / 128
/-- How many blocks a master has. -/
def Master.blocks (m : Master) : Nat := m.rows / 128 * m.nbc
/-- Rows and columns of a view in blocks. -/
def View.nbr (w : View) (m : Master) : Nat := if w.lay = 1 then m.cols / 128 else m.rows / 128
def View.nbc (w : View) (m : Master) : Nat := if w.lay = 1 then m.rows / 128 else m.cols / 128
/-- Half bytes of a view element: 1 for widths of four or less, else 2, 4 or 8 (R188). -/
def View.es (w : View) : Nat :=
  if w.slot = 26 then 8 else if w.slot = 24 ∨ w.slot = 25 then 4
  else if slotBytes w.slot (fun k => w.fd.getD k 0) = 64 then 1 else 2
/-- Bytes of n elements. -/
def View.bytes (w : View) (n : Nat) : Nat := n * w.es / 2
/-- Does a view keep scales? -/
def View.scaled (w : View) : Bool := w.slot < 24
/-- Bytes of scales of one view block (R188). -/
def View.scaleBytes (w : View) : Nat := if !w.scaled then 0 else if w.geo = 0 then 128 else if w.geo = 1 then 1 else 512
/-- Master block of a view block. -/
def View.master (w : View) (m : Master) (bi bj : Nat) : Nat := if w.lay = 1 then bj * m.nbc + bi else bi * m.nbc + bj
/-- View block of a master block. -/
def View.ofMaster (w : View) (m : Master) (b : Nat) : Nat × Nat :=
  if w.lay = 1 then (b % m.nbc, b / m.nbc) else (b / m.nbc, b % m.nbc)
/-- Shard and local index of a view block (R188). -/
def View.slotOf (w : View) (m : Master) (bi bj : Nat) : Nat × Nat :=
  let ns := w.shards.length
  if w.lay = 2 then
    let b := bi * w.nbc m + bj
    (b % ns, b / ns)
  else (bi % ns, bi / ns * w.nbc m + bj)
/-- The view block at a shard and local index. -/
def View.blockOf (w : View) (m : Master) (n p : Nat) : Nat × Nat :=
  let ns := w.shards.length
  let c := w.nbc m
  if w.lay = 2 then ((p * ns + n) / c, (p * ns + n) % c) else (p / c * ns + n, p % c)
/-- Address of element (r, c) of a view block. -/
def View.elem (w : View) (m : Master) (bi bj r c : Nat) : Nat :=
  let (n, p) := w.slotOf m bi bj
  let sh := w.shards.getD n ⟨0, 0, 0⟩
  if w.lay = 2 then sh.ebase + w.bytes (p * 16384 + r * 128 + c)
  else sh.ebase + w.bytes ((bi / w.shards.length * 128 + r) * (w.nbc m * 128) + bj * 128 + c)
/-- Address of the first scale byte of a view block. -/
def View.scaleAt (w : View) (m : Master) (bi bj : Nat) : Nat :=
  let (n, p) := w.slotOf m bi bj
  (w.shards.getD n ⟨0, 0, 0⟩).sbase + p * w.scaleBytes
/-- Address of a view block's tag. -/
def View.tagAt (w : View) (m : Master) (bi bj : Nat) : Nat :=
  let (n, p) := w.slotOf m bi bj
  (w.shards.getD n ⟨0, 0, 0⟩).tbase + 8 * p
/-- Every block of a view. -/
def View.allBlocks (w : View) (m : Master) : List (Nat × Nat) :=
  (upFrom 0 (w.nbr m)).flatMap fun i => (upFrom 0 (w.nbc m)).map fun j => (i, j)
/-- Physical address of a byte of a view's memory in this module, by the pages found at registration (R441). -/
def View.paOf (w : View) (va : Nat) : Option Nat :=
  (w.pages.find? (·.1 == va / 65536)).map fun e => e.2 * 65536 + va % 65536
/-- The pieces of the n bytes at an address likewise: one, or two when they cross a page. -/
def View.pieces (w : View) (va n : Nat) : Option (List (Nat × Nat)) := do
  let first := min n (65536 - va % 65536)
  let k ← w.paOf va
  if first = n then pure [(k, n)]
  else
    let k2 ← w.paOf (va + first)
    pure [(k, first), (k2, n - first)]
/-- The same, a shard at a peer standing for itself; none that cannot be reached. -/
def View.places (w : View) (va n : Nat) : List (Nat × Nat) :=
  if bits va 63 60 = 8 then [(va, n)] else (w.pieces va n).getD []
/-- Where the scale codes of row r stand among a block's, and how many they are (R188). -/
def View.scaleRow (w : View) (r : Nat) : Nat := if w.geo = 0 then r else if w.geo = 1 then 0 else 4 * r
def View.scaleLen (w : View) : Nat := if w.geo = 2 then 4 else 1
/-- First byte of a master block (R183): its stamp home is that byte's (R190). -/
def Master.blockPa (m : Master) (b : Nat) : Nat := m.pa.getD (b * (m.ms * 16384) / 16384) 0
/-- Physical address of element (r, c) of a master block. -/
def Master.elemPa (m : Master) (b r c : Nat) : Nat :=
  let o := b * (m.ms * 16384) + (r * 128 + c) * m.ms
  m.pa.getD (o / 16384) 0 + o % 16384

/-- The 16 KB granules of a master block. -/
def Master.granules (m : Master) (b : Nat) : List (Nat × Nat) :=
  (upFrom (b * m.ms) m.ms).map fun i => (m.pa.getD i 0, 16384)
/-- The master and view of a number. -/
def State.master (s : State) (mid : Nat) : Option Master := (s.pylon (mid / 256 % 8)).masters.find? (·.mid == mid)
def Master.view (m : Master) (n : Nat) : Option View := m.views.find? fun w => w.num == n && w.live
/-- A step of the engine of pylon p: phase, master, block, stamp, tries or poison, data, views still to refresh. -/
def viewStep (p phase mid b st k data : Nat) (views : List Nat) : Arg := { ns := [p, phase, mid, b, st, k, data] ++ views }
/-- The locations that such a step accesses at homes: the stamp, the master's block, or the tag, the elements or the scales of a view. -/
def State.viewKeys (s : State) (a : Arg) : List Nat :=
  let n (i : Nat) := a.ns.getD i 0
  match s.master (n 2) with
  | none => []
  | some m =>
    let b := n 3
    match n 1 with
    | 0 => []
    | 1 => [m.blockPa b]
    | 2 => m.blockPa b :: (m.granules b).map (·.1)
    | ph => match (a.ns[7]?).bind m.view with
      | none => []
      | some w =>
        let (bi, bj) := w.ofMaster m b
        let ranges := match ph with
          | 4 => (upFrom 0 128).map fun r => (w.elem m bi bj r 0, w.bytes 128)
          | 5 => if w.scaled then [(w.scaleAt m bi bj, w.scaleBytes)] else []
          | _ => [(w.tagAt m bi bj, 8)]
        (ranges.flatMap fun r => w.places r.1 r.2).map (·.1)
/-- The agent that stands for a pylon's view engine in a recording (notes/assumptions/88). -/
def viewAgent (p : Nat) : CtxId := ⟨⟨.span, p, 0, 0⟩, 0⟩

end Sys2Proof.Machine
end

