-- ==== Sys2Proof/Machine/Engines.lean ====
section
/-! DEFINITION. The copy engine and the gather engine (06_memory R172 to R180; 22_faults_memory R433 to R435), and how any
engine reaches a location. -/

namespace Sys2Proof.Machine

/-- Why an engine cannot reach an address: translation, permission, a hole of the pool spaces, a space it may not use. -/
inductive EngErr where
  | xlate | perm | hole | space | align
  deriving DecidableEq, Repr

/-- The location of an address for an engine that works for context c in an address space; the walk sets A and D (R158). A
peer address stands for itself. `spaces` are those the engine may use. -/
def State.engKey (s : State) (c : CtxId) (asid va : Nat) (wr : Bool) (spaces : List Nat) : Except EngErr (State × Nat) :=
  let sp := bits va 63 60
  if !spaces.contains sp then .error .space
  else if sp = 8 then .ok (s, va)
  else if sp = 0 then
    if bits va 59 48 ≠ 0 then .error .xlate
    else match s.engineWalk asid va wr with
      | .ok (t, e) => .ok (t, e.addr va)
      | .error (16, _) => .error .xlate
      | .error _ => .error .perm
  else match s.localPlace c va true with
    | .ok p => .ok (s, p.key)
    | .error _ => .error .hole

/-- Is a location at a peer module? -/
def isPeer (key : Nat) : Bool := decide (9223372036854775808 ≤ key)

/-- Round trip from a context's core to a location, a home access counting as a miss (R176). -/
def State.latTo (s : State) (c : CtxId) (va key : Nat) : Nat :=
  if isDevice key then latHome c.core (homeOf key) + 120
  else match s.localPlace c va true with
    | .ok p => p.lat
    | .error _ => 4

/-- Every index tuple of a copy, as source and destination displacements, the last dimension outermost (R175). -/
def copyOffsets : List (Nat × Int × Int) → List (Int × Int)
  | [] => [(0, 0)]
  | (n, ss, ds) :: rest => (copyOffsets rest).flatMap fun (a, b) => (upFrom 0 n).map fun (j : Nat) => (a + (j : Int) * ss, b + (j : Int) * ds)

/-- The copy CSRs as a job block or a shadow set holds them: number to value. -/
def copyDims (cp : Nat → Nat) : List (Nat × Int × Int) :=
  (upFrom 0 (cp 515 % 32)).map fun k => (cp (528 + k), sext (cp (544 + k)) 64, sext (cp (560 + k)) 64)

/-- Reserved values of a copy (R433 DETAIL 5). -/
def copyReserved (cp : Nat → Nat) : Bool :=
  decide (cp 514 ≥ 7) || decide (cp 515 = 0) || decide (cp 515 > 16) ||
  (upFrom 0 (cp 515 % 32)).any (fun k => cp (528 + k) = 0 || decide (cp (528 + k) ≥ 4294967296)) ||
  (cp 516 % 8 != 0) || !([0, 4, 5].contains (bits (cp 516) 63 60))

/-- Locations of the n bytes at an address for an engine, page by page: pieces of at most one page. -/
def State.engPieces (s : State) (c : CtxId) (asid va n : Nat) (wr : Bool) (spaces : List Nat) :
    Except EngErr (State × List (Nat × Nat)) := do
  let first := min n (65536 - va % 65536)
  let (s, k) ← s.engKey c asid va wr spaces
  if first = n then pure (s, [(k, n)])
  else
    let (s, k2) ← s.engKey c asid ((va + first) % 18446744073709551616) wr spaces
    pure (s, [(k, first), (k2, n - first)])
/-- Resolve every element of e bytes of a copy, source then destination; the DETAIL of the first that fails (R433). -/
def State.copyPin (s : State) (c : CtxId) (asid e : Nat) :
    List (Nat × Nat) → Except Nat (State × List (List (Nat × Nat) × List (Nat × Nat)))
  | [] => .ok (s, [])
  | (sa, da) :: rest => do
    let sp := [0, 4, 5, 6, 8, 12]
    let (s, src) ← (s.engPieces c asid sa e false sp).mapError fun | .xlate => 1 | .perm => 3 | .hole => 7 | _ => 5
    let (s, dst) ← (s.engPieces c asid da e true sp).mapError fun | .xlate => 2 | .perm => 4 | .hole => 7 | _ => 5
    let (s, ks) ← State.copyPin s c asid e rest
    pure (s, (src, dst) :: ks)

/-- First byte and length of the range that addresses lie in. -/
def footprint (as : List Nat) (e : Nat) : Nat × Nat :=
  let lo := as.foldl min (as.headD 0)
  (lo, as.foldl max 0 + e - lo)

/-! ### Footprints (R172) -/

/-- An address as a footprint has it: bytes of pools, crown slices and local memories by their place, so that the names of one
byte agree. -/
def State.footAddr (s : State) (c : CtxId) (va : Nat) : Nat :=
  if bits va 63 60 = 0 ∨ bits va 63 60 = 8 then va
  else match s.localPlace c va true with
    | .ok p => 18446744073709551616 + p.key
    | .error _ => va
/-- Do two footprints overlap: does a write range of one meet a range of the other? -/
def Foot.overlaps (f g : Foot) : Bool :=
  let meet (a b : Nat × Nat) := decide (a.1 < b.1 + b.2) && decide (b.1 < a.1 + a.2)
  f.wr.any (fun a => (g.rd ++ g.wr).any (meet a)) || g.wr.any fun a => f.rd.any (meet a)
/-- Has every one of these engine commands that a footprint overlaps ended (R172)? -/
def State.engineClear (s : State) (c : CtxId) (f : Foot) (ids : List Nat) : Bool :=
  (s.engineCmds c).all fun e => !ids.contains e.1 || !e.2.overlaps f

/-- Take a copy from a set of copy CSRs (R175, R433): the running copy, or the DETAIL of its fault. The first state has the
page-table bits set. -/
def State.copyTake (s : State) (c : CtxId) (asid id : Nat) (cp : Nat → Nat) : Except Nat (State × CopyRun) := do
  if copyReserved cp then throw 5
  let e := 2 ^ cp 514
  let offs := copyOffsets (copyDims cp)
  let sas := offs.map fun o => addOff (cp 512) o.1
  let das := offs.map fun o => addOff (cp 513) o.2
  let (s, elems) ← s.copyPin c asid e (sas.zip das)
  let (s, stamp) ← if cp 516 = 0 then pure (s, none) else do
    let (s, k) ← (s.engKey c asid (cp 516) true [0, 4, 5]).mapError fun | .xlate => 2 | .perm => 4 | .hole => 7 | _ => 5
    pure (s, some (k, 9223372036854775808 + c.place % 262144 * 65536 + id))
  let range (l : List Nat) := footprint (l.map (s.footAddr c)) e
  let foot : Foot := { rd := [range sas], wr := range das :: if cp 516 = 0 then [] else [(s.footAddr c (cp 516), 8)] }
  pure (s, { ctx := c, id := id, elems := elems, stamp := stamp, due := 0, after := s.engineIds c, foot := foot })

/-- REPLAY_DIVERGE (R460) of a launch: on every member context of domain 0, in the debug ring, and as a precise stop with STOP. No pylon of
the launch imposes anything further. -/
def State.diverge (s : State) (l : Option Launch) (pyl sstep detail : Nat) : State :=
  let pyls := l.elim [pyl] fun l => (upFrom 0 8).filter (bit l.pyls ·)
  let s := (pyls.foldl (fun s p => s.setPylon p { s.pylon p with diverged := true }) s).traceFor l pyl sstep 0 11 detail
  match l with
  | none => s
  | some l =>
    let ctxs := (Tab.get l.doms 0 []).flatMap fun u => u.ctxs.filter fun c => (s.ctx c).live
    let s := ctxs.foldl (fun s c => s.pendAsync c { cause := 55, detail := detail, val := sstep }) s
    let stop := ctlBase + 67108864 + firstPylon l.pyls * 256 + 24
    if bit (Mem.read s.mem (ctlBase + 67112960 + pyl * 256) 8) 1 then { s with mem := Mem.write s.mem stop 8 9223372036854775808 } else s
/-- First location of a pylon's replay control block (R460). -/
def replayBlock (pyl : Nat) : Nat := ctlBase + 67112960 + pyl * 256
/-- The next record of the log that a pylon's replay imposes (R242): its place with its kind, and its payload. None when it imposes
nothing: no replay, a divergence, or the log's end. A log that cannot be read gives a record that no outcome has. -/
def State.logNext (s : State) (pyl : Nat) : Option (Nat × Nat) :=
  let blk := replayBlock pyl
  let head := Mem.read s.mem (blk + 24) 8
  if bit (Mem.read s.mem blk 8) 0 && !(s.pylon pyl).diverged && decide (32 * (head + 1) ≤ Mem.read s.mem (blk + 16) 8) then
    match s.partition pyl with
    | none => some (0, 0)
    | some p =>
      let va := Mem.read s.mem (blk + 8) 8 + 32 * head
      match s.engineWalk (s.sysAsid p) va false with
      | .error _ => some (0, 0)
      | .ok (_, e) =>
        let w := Mem.read s.mem (e.addr va + 16) 8
        if bits w 31 24 = 0 then none else some (w, Mem.read s.mem (e.addr va + 24) 8)
  else none
/-- The word of a record that holds its place and kind (R238). -/
def logWord (place kind : Nat) : Nat := place % 262144 + kind * 16777216
/-- An outcome of a launch in a recording or a replay: logged in the debug ring and the log, or compared with the next record of the log, which
the outcome follows where the rules leave it open (R242, R460). -/
def State.recordFor (s : State) (l : Option Launch) (pyl sstep place kind payload : Nat) : State :=
  let blk := replayBlock pyl
  let w := Mem.read s.mem blk 8
  let head := Mem.read s.mem (blk + 24) 8
  if bit w 2 && !bit w 3 then
    let size := Mem.read s.mem (blk + 16) 8
    if 32 * (head + 1) ≤ size then
      let va := Mem.read s.mem (blk + 8) 8 + 32 * head
      let s := match s.partition pyl with
        | none => s
        | some p => match s.engineWalk (s.sysAsid p) va true with
          | .error _ => s
          | .ok (t, e) => t.wrRecord (e.addr va) State.regressed [sstep, s.cyc, logWord place kind, payload]
      let full := if 32 * (head + 2) ≤ size then [] else [w % 4 + 8]
      let mem := full.foldl (fun m v => Mem.write m blk 8 v) (Mem.write s.mem (blk + 24) 8 (head + 1))
      ({ s with mem := mem }).traceFor l pyl sstep place kind payload
    else { s with mem := Mem.write s.mem blk 8 (w % 4 + 8) }
  else match s.logNext pyl with
    | none => s
    | some e =>
      if e = (logWord place kind, payload) then { s with mem := Mem.write s.mem (blk + 24) 8 (head + 1) }
      else s.diverge l pyl sstep (if kind = 10 then 1 else 2)
/-- An outcome of the launch of the core that its place names. -/
def State.record (s : State) (pyl sstep place kind payload : Nat) : State :=
  s.recordFor (s.traceOf pyl place) pyl sstep place kind payload

/-- The copy that a cluster's engine runs under a number. -/
def State.copyRun (s : State) (k eid : Nat) : Option CopyRun := (s.cluster k).copies.find? (·.eid == eid)

/-- The lowest-numbered valid window that holds a VA and admits a requester (R235): its first offset. -/
def State.exportWindow (s : State) (modn va : Nat) : Option Nat :=
  (upFrom 0 64).findSome? fun w =>
    let o := 50331648 + 32 * w
    let v := s.ctl (o + 24)
    let base := bits (s.ctl o) 47 16 * 65536
    if bit v 35 && decide (bits v 23 16 ≤ modn) && decide (modn ≤ bits v 31 24) && decide (base ≤ va) &&
        decide (va < base + bits (s.ctl (o + 8)) 47 16 * 65536) then some o else none
/-- Does a range of an engine in an address space touch a home with its first byte? -/
def State.atHome (s : State) (asid va h : Nat) (wr : Bool) : Bool :=
  bits va 63 60 == 0 && match s.engineWalk asid va wr with
    | .ok (_, e) => homeOf (e.addr va) == h
    | .error _ => false
/-- The home of the DONE counter of a home's task. -/
def State.doneAt (s : State) (g q seq : Nat) : Option Nat :=
  ((Tab.get (s.home g).queues q {}).tasks.find? (·.seq == seq)).bind fun t =>
    if t.donePa = 0 then none else some (homeOf (t.donePa - 1))
/-- Does a step of an agent other than `me` reach a home (R399)? -/
def State.reaches (s : State) (h : Nat) (me : Option CtxId) (i : Instr) (a : Arg) : Bool :=
  let near (k : Nat) : Bool := isDevice k && homeOf k == h
  match i with
  | .accessAtOrderingPoint => match s.access (a.ns.headD 0) with
    | some g => some g.ctx != me && !g.performed && near g.key
    | none => false
  | .copyComplete => match s.copyRun (a.ns.headD 0) (a.ns.getD 1 0) with
    | some r => match r.elems with
      | e :: _ => (if r.got.isSome then e.2 else e.1).any fun p => near p.1
      | [] => r.stamp.any fun e => near e.1
    | none => false
  | .gatherDescriptorRun => match ((s.cluster (a.ns.headD 0)).gq.headD { ctx := a.ctx, va := 0, desc := [], asid := 0, after := [] }).moves with
    | some (m :: _) => m.1.any fun p => near p.1
    | _ => false
  | .matrixCommandRun => match (s.core a.ctx.core).mq with
    | m :: _ => m.started && a.ns.headD 0 == 1 && ((m.word % 64 == 5 && m.foot.wr.any fun r => s.atHome m.asid r.1 h true) ||
        (decide (m.word % 64 < 4) && m.foot.rd.any fun r => s.atHome m.asid r.1 h false))
    | [] => false
  | .pierJobEnd => match (s.home (a.ns.headD 0)).job, a.ns.getD 2 0 with
    | some _, 0 => a.ns.headD 0 == h
    | some (.task q seq), 1 => s.doneAt (a.ns.headD 0) q seq == some h
    | _, _ => false
  | .tretArrival => some a.ctx != me && match a.ns.getD 4 0 with
    | 0 => a.ns.headD 0 == h
    | 1 => s.doneAt (a.ns.headD 0) (a.ns.getD 1 0) (a.ns.getD 2 0) == some h
    | _ => false
  | .viewBlockRefresh => (s.viewKeys a).any near
  | .peerRequestArrival => match s.exportWindow (a.ns.headD 0) (a.ns.getD 1 0) with
    | some o => s.atHome (s.ctl (o + 24) % 65536) (bits (s.ctl (o + 16)) 47 16 * 65536 + (a.ns.getD 1 0 - bits (s.ctl o) 47 16 * 65536)) h false
    | none => false
  | _ => false
/-- The agent whose place the record of a step names. -/
def State.agent (s : State) (i : Instr) (a : Arg) : CtxId :=
  match i with
  | .pierJobEnd => match (s.home (a.ns.headD 0)).job with
    | some (.call p) => p.ctx
    | some (.task q seq) => ((Tab.get (s.home (a.ns.headD 0)).queues q {}).tasks.find? (·.seq == seq)).elim a.ctx (·.poster)
    | none => a.ctx
  | .gatherDescriptorRun => (s.cluster (a.ns.headD 0)).gq.head?.elim a.ctx (·.ctx)
  | .matrixCommandRun => (s.core a.ctx.core).mq.head?.elim a.ctx fun m => m.src.getD a.ctx
  | .viewBlockRefresh => viewAgent (a.ns.headD 0)
  | _ => a.ctx
/-- Do other agents reach the home of a location in this cycle (R399)? -/
def State.contended (s : State) (key : Nat) (me : Option CtxId) : Bool :=
  isDevice key && s.agenda.any fun e => decide (e.1 ≤ s.cyc) && s.reaches (homeOf key) me e.2.1 e.2.2
/-- Could a step give the outcome of a record: a word at a receive queue, a task message at a queue, an access at a home, a grant, the
end of a copy? -/
def State.gives (s : State) (w v : Nat) (i : Instr) (a : Arg) : Bool :=
  (s.agent i a).place % 262144 == w % 262144 && match bits w 31 24 with
    | 13 =>
      if bit v 63 then i == .routedWordArrival && coreOfWord (a.ns.headD 0) == coreOfWord (v % 1048576)
      else s.reaches (homeOf v) none i a ||
        ((i == .tpostArrival || i == .tjoinArrival || i == .tleaveArrival) && a.ns.getD 1 0 + 64 * a.ns.headD 0 == v)
    | 9 => i == .tstealArrival
    | 14 => i == .copyComplete && (s.copyRun (a.ns.headD 0) (a.ns.getD 1 0)).any fun r => r.elems.isEmpty && v % 65536 == r.id % 65536
    | _ => false
/-- Does a replay's log give the next outcome to another agent, in a step of this cycle, for which an outcome of this agent waits (R242,
R460)? -/
def State.logOther (s : State) (pyl : Nat) (c : CtxId) : Bool :=
  match s.logNext pyl with
  | some (w, v) => w % 262144 != c.place % 262144 && s.agenda.any fun e => decide (e.1 ≤ s.cyc) && s.gives w v e.2.1 e.2.2
  | none => false
/-- Does the log of a replay put an outcome of another agent before this access, which others contend for (R242)? -/
def State.yields (s : State) (c : CtxId) (key : Nat) (me : Option CtxId) : Bool :=
  s.contended key me && s.logOther c.core.pyl c
/-- An access of an agent that works for a context is performed at a home: in a recording or replay, one that has won against others
is logged (R242, R399). -/
def State.arbitrate (s : State) (c : CtxId) (key : Nat) (me : Option CtxId) : State :=
  if s.contended key me then s.record c.core.pyl (s.core c.core).sstep.toNat c.place 13 key else s

/-! ### An engine's access -/

/-- What comes of an engine's access to a range: it is performed; it meets a cluster that has failed to wake (R457); it finds a part that
is off, and no answer (R233); or it is tried again, some cycles on. -/
inductive Reach where
  | go (s : State)
  | hole
  | never
  | wait (s : State) (n : Nat)
/-- May an engine that works for a context access pieces in this step? It waits for a cluster without power, which wakes (R216), and for
an agent that a replay's log puts first (R242). -/
def State.reach (s : State) (c : CtxId) : List (Nat × Nat) → Reach
  | [] => .go s
  | (key, _) :: r =>
    if s.yields c key none then .wait s 0
    else if (keyPylon key).any s.off then .never
    else match placeCluster key with
      | none => (s.arbitrate c key none).reach c r
      | some k => match (s.cluster k).power with
        | .awake => (s.wakeCluster k).reach c r
        | .failed => .hole
        | .gated => .wait (s.wakeCluster k) 1
        | .waking _ => .wait s 1
/-- The lowest poisoned unit of the first piece that has one. -/
def State.poisonIn (s : State) (ps : List (Nat × Nat)) : Option Nat := ps.findSome? fun p => s.poisoned p.1 p.2
/-- The number that pieces hold, the first piece lowest. -/
def State.rdPieces (s : State) : List (Nat × Nat) → Nat
  | [] => 0
  | (k, n) :: r => s.rdMem k n + 256 ^ n * s.rdPieces r
/-- An engine writes a number over pieces for a context (R161, R171). -/
def State.wrPieces (s : State) (c : CtxId) : List (Nat × Nat) → Nat → State
  | [], _ => s
  | (k, n) :: r, v => (s.wrEngine c k n (v % 256 ^ n) (2 ^ n - 1)).wrPieces c r (v / 256 ^ n)
/-- Does a range lie at a peer? -/
def farPieces (l : List (Nat × Nat)) : Bool := l.any fun p => isPeer p.1

/-- Insert by key, after those of the same key. -/
def insertBy {α : Type} (k : Nat) (a : α) : List (Nat × α) → List (Nat × α)
  | [] => [(k, a)]
  | (k', b) :: r => if k < k' then (k, a) :: (k', b) :: r else (k', b) :: insertBy k a r
/-- A list in the order that the free value gives its elements. -/
def freeOrder {α : Type} (key : Nat → Nat) (l : List α) : List α :=
  ((l.zip (upFrom 0 l.length)).foldl (fun r e => insertBy (key e.2) e.1 r) []).map (·.2)

/-- A taken copy as its cluster's engine holds it: its elements in an order that no rule gives, from the cycle that leaves time for
its bytes before it is due (R175, R176; notes/assumptions/47). -/
def CopyRun.begin (r : CopyRun) (tag due total rc : Nat) : CopyRun :=
  { r with elems := freeOrder (Config.copyOrder tag) r.elems, due := due, from_ := due - (total + rc - 1) / rc }
/-- Bytes of a copy, and does it reach a peer? -/
def pieceBytes (l : List (Nat × Nat)) : Nat := l.foldl (fun n p => n + p.2) 0
def CopyRun.total (r : CopyRun) : Nat := r.elems.foldl (fun n e => n + pieceBytes e.1) 0
def CopyRun.far (r : CopyRun) : Bool := r.elems.any fun e => farPieces e.1 || farPieces e.2
/-- The first locations of a copy's source and destination, whose distances its promise takes (R176; notes/assumptions/84). -/
def CopyRun.ends (r : CopyRun) : Nat × Nat :=
  let e := r.elems.headD ([], [])
  ((e.1.headD (0, 0)).1, (e.2.headD (0, 0)).1)
/-- The promise of a copy, which a replay takes from its log (R176, R242). -/
def State.promised (s : State) (c : CtxId) (id due : Nat) : Nat :=
  match s.logNext c.core.pyl with
  | some (w, v) => if w = logWord c.place 15 ∧ v % 65536 = id % 65536 ∧ s.cyc ≤ v / 65536 then v / 65536 else due
  | none => due
/-- Must a copy wait to complete until another one of its cluster has, by the log of a replay (R242)? -/
def State.copyWaits (s : State) (k : Nat) (r : CopyRun) : Bool :=
  match s.logNext r.ctx.core.pyl with
  | some (w, v) => bits w 31 24 == 14 && !(w == logWord r.ctx.place 14 && v % 65536 == r.id % 65536) &&
      (s.cluster k).copies.any fun q => w == logWord q.ctx.place 14 && v % 65536 == q.id % 65536
  | none => false
/-- CP_GO: a read of `cp.go` (R175, R176; notes/assumptions/84): the identifier it returns, `cp.due`, and the copy in the cluster's engine. -/
def State.cpGo (s : State) (c : CtxId) : State × Nat :=
  let x := s.ctx c
  let id := (x.cpId + 1).toNat
  let s := s.setCtx c { x with cpId := x.cpId + 1, cpDue := 0 }
  let cp (n : Nat) := (Tab.get x.cp n 0).toNat
  match s.copyTake c (s.spaceOf c) id cp with
  | .error d => (s.pendAsync c { cause := 33, detail := d, val := id }, id)
  | .ok (t, r) =>
    let k := c.core.cluster
    let cl := t.cluster k
    let r := { r with eid := t.nextId, behind := t.engineNow c }
    let tag := t.free
    let t : State := { t.fresh with free := t.free + 1 }
    if r.far then (t.setCluster k { cl with copies := cl.copies ++ [r.begin tag 0 0 cl.rc] }, id)
    else
      let total := r.total
      let ls := t.latTo c (cp 512) r.ends.1
      let ld := t.latTo c (cp 513) r.ends.2
      let due := t.promised c id (max t.cyc cl.prevDue + ls + (total + cl.rc - 1) / cl.rc + ld)
      let r := r.begin tag due total cl.rc
      let t := t.setCluster k { cl with copies := cl.copies ++ [r], prevDue := due }
      let t := t.setCtx c { t.ctx c with cpDue := Word.ofN due }
      let a : Arg := { ctx := c, ns := [k, r.eid] }
      let t := (t.at_ r.from_ .copyComplete a).at_ due .promiseMissed a
      (t.record c.core.pyl (t.core c.core).sstep.toNat c.place 15 (id + due * 65536), id)

/-- May a copy move: its context's earlier accesses are performed, and the engine commands before it that it overlaps have ended? -/
def State.copyReady (s : State) (r : CopyRun) : Bool :=
  !(s.flight.any fun f => r.after.contains f.id && !f.performed) && s.engineClear r.ctx r.foot r.behind
/-- Replace a copy of a cluster. -/
def State.setCopy (s : State) (k : Nat) (r : CopyRun) : State :=
  let cl := s.cluster k
  s.setCluster k { cl with copies := cl.copies.map fun q => if q.eid = r.eid then r else q }
/-- A copy has ended. -/
def State.copyEnd (s : State) (k : Nat) (r : CopyRun) : State :=
  let cl := s.cluster k
  let s := s.setCluster k { cl with copies := cl.copies.filter (·.eid != r.eid), copiesDone := cl.copiesDone + 1 }
  match r.job with
  | some (p, n) => s.after 0 .copyJobTake { ns := [p, n] }
  | none => s
/-- The running copy fails (R433): 6 poison in the source, 7 a cluster that has failed to wake, 8 a peer failure. -/
def State.copyFail (s : State) (k : Nat) (r : CopyRun) (detail : Nat) : State :=
  (s.copyEnd k r).pendAsync r.ctx { cause := 33, detail := detail, val := r.id }
/-- A peer's answers, while a port carries them (R234). -/
def State.answers (s : State) (key : Nat) (peer : List Nat) : List Nat := if s.carried (peerOf key) then peer else []
/-- The next access of a copy (R175): the read of its first element, its write, or the stamp with its mark (R398). `peer` holds the
peers' answers to the accesses to come; one without an answer has failed. A fresh read does not wait on an empty row
(notes/assumptions/84). -/
def State.copyStep (s : State) (k : Nat) (r : CopyRun) (peer : List Nat) : State :=
  let go (s : State) (t : Nat) (peer : List Nat) : State := s.at_ (max s.cyc t) .copyComplete { ctx := r.ctx, ns := [k, r.eid] ++ peer }
  let once (ps : List (Nat × Nat)) (f : State → State) : State :=
    match s.reach r.ctx ps with
    | .go t => f t
    | .wait t n => t.after n .copyComplete s.arg
    | .never => s
    | .hole => s.copyFail k r 7
  match r.got, r.elems with
  | none, (src, _) :: _ =>
    if farPieces src then
      match s.answers ((src.headD (0, 0)).1) peer with
      | v :: rest => go (s.setCopy k { r with got := some v }) 0 rest
      | [] => s.copyFail k r 8
    else once src fun t =>
      match t.poisonIn src with
      | some u => (t.countPoison u).copyFail k r 6
      | none => go (t.setCopy k { r with got := some (t.rdPieces src) }) 0 peer
  | some v, (src, dst) :: rest =>
    let r' := { r with got := none, elems := rest, moved := r.moved + pieceBytes src }
    let t := if rest.isEmpty then r.due else r.from_ + r'.moved / (s.cluster k).rc
    if farPieces dst then
      match s.answers ((dst.headD (0, 0)).1) peer with
      | _ :: rest => go (s.setCopy k r') t rest
      | [] => s.copyFail k r 8
    else match dst.findSome? fun p => s.holdOf p.1 p.2 with
      | some mid => s.holdWrite mid .copyComplete
      | none => once dst fun u => go ((u.wrPieces r.ctx dst v).setCopy k r') t peer
  | _, [] =>
    let end_ (s : State) : State :=
      let u := r.ctx.core
      (s.copyEnd k r).record u.pyl (s.core u).sstep.toNat r.ctx.place 14 (r.id + (s.cluster k).copiesDone * 65536)
    match r.stamp with
    | none => end_ s
    | some (key, v) =>
      match s.holdOf key 8 with
      | some mid => s.holdWrite mid .copyComplete
      | none => once [(key, 8)] fun t =>
        let t := (t.fireWatch key 8 255 true).wrEngine r.ctx key 8 v 255
        end_ { t with marks := key :: t.marks }

/-- CP_GO (R175): the copy starts for the context, and the identifier is in the register that the read names. -/
def execCpGo (s : State) : Host.Outcome State Fault Refusal :=
  let (t, id) := s.cpGo s.arg.ctx
  done (t.wx s.arg.ctx (s.n 0) id)

/-- COPY_COMPLETE (R175, R177, R398, R433): a copy's accesses one by one, and the stamp that completes it. Where a copy reaches a
peer, the step comes from outside, with the peer's answers after the cluster and the copy's number. -/
def execCopyComplete (s : State) : Host.Outcome State Fault Refusal :=
  let k := s.n 0
  match s.copyRun k (s.n 1) with
  | none => done s
  | some r =>
    if !s.copyReady r ∨ (r.elems.isEmpty ∧ s.copyWaits k r) then done (s.after 1 .copyComplete s.arg)
    else done (s.copyStep k r (s.arg.ns.drop 2))

/-- PROMISE_MISSED (R434): at the due cycle the copy has not performed its stamp, nor is about to in this cycle. -/
def execPromiseMissed (s : State) : Host.Outcome State Fault Refusal :=
  match s.copyRun (s.n 0) (s.n 1) with
  | none => done s
  | some r =>
    let soon := s.copyReady r && s.agenda.any fun e => decide (e.1 ≤ s.cyc) && e.2.2.ns == [s.n 0, r.eid] && match e.2.1 with
      | .copyComplete => true
      | _ => false
    if soon then done (s.after 0 .promiseMissed s.arg) else done (s.pendAsync r.ctx { cause := 32, val := r.id })

/-! ### Gather (R178 to R180, R435) -/

/-- EVENT_LINE_RAISE (R180): the oldest waiter of the line completes, else the count rises, to 0xFFFF at most. -/
def State.raiseLine (s : State) (k e : Nat) : State :=
  let cl := s.cluster k
  match cl.evWait.find? (·.1 == e) with
  | some (_, c) =>
    (s.setCluster k { cl with evWait := cl.evWait.erase (e, c) }).setCtx c { s.ctx c with raised := true }
  | none => s.setCluster k { cl with ev := Tab.set cl.ev e (min (Tab.get cl.ev e 0 + 1) 65535) }

/-- A gather descriptor's reserved values (R435 DETAIL 5). -/
def gatherReserved (d : Nat → Nat) : Bool :=
  decide (bits (d 1) 35 32 > 11) || bits (d 1) 63 41 != 0 || bits (d 1) 39 36 != 0 || bits (d 1) 31 0 == 0 ||
  decide (bits (d 1) 31 0 > 65536) || bits (d 4) 63 9 != 0 || bits (d 4) 7 4 != 0 || d 5 != 0 || d 6 != 0 || d 7 != 0

/-- Where a gather descriptor's index k, the table's element and the packed array's element stand. -/
def gatherIdxW (d : Nat → Nat) : Nat := if bit (d 1) 40 then 8 else 4
def gatherElem (d : Nat → Nat) : Nat := 2 ^ bits (d 1) 35 32
/-- The probe pass of positions k, k + 1, … (R179): the table's address with its pieces and those of the packed array; or position
and DETAIL. -/
def gatherProbe (c : CtxId) (asid : Nat) (d : Nat → Nat) (scat : Bool) :
    List Nat → State → Except (Nat × Nat) (State × List (Nat × List (Nat × Nat) × List (Nat × Nat)))
  | [], s => .ok (s, [])
  | k :: ks, s => do
    let e := gatherElem d
    let iw := gatherIdxW d
    let at_ (n : Nat) := fun (_ : EngErr) => (k, n)
    let (s, ip) ← (s.engPieces c asid ((d 0 + k * iw) % 18446744073709551616) iw false [0, 4, 5]).mapError (at_ 1)
    if ip.any fun p => (s.poisoned p.1 p.2).isSome then throw (k, 6)
    let idx := s.rdPieces ip
    let ta := (d 2 + idx * e) % 18446744073709551616
    let (s, tp) ← (s.engPieces c asid ta e scat [0, 8]).mapError fun
      | .perm => (k, if scat then 3 else 2)
      | _ => (k, 2)
    let (s, dp) ← (s.engPieces c asid ((d 3 + k * e) % 18446744073709551616) e (!scat) [4, 5]).mapError (at_ 4)
    let (s, rest) ← gatherProbe c asid d scat ks s
    pure (s, (ta, tp, dp) :: rest)

/-- The footprint of a gather descriptor (R172, R178): index array, the range of the table's bytes `table`, packed array. -/
def State.gatherFoot (s : State) (c : CtxId) (d : Nat → Nat) (table : Nat × Nat) : Foot :=
  let n := bits (d 1) 31 0
  let idx := (s.footAddr c (d 0), n * gatherIdxW d)
  let table := (s.footAddr c table.1, table.2)
  let packed := (s.footAddr c (d 3), n * gatherElem d)
  if bit (d 4) 8 then { rd := [idx, packed], wr := [table] } else { rd := [idx, table], wr := [packed] }
/-- The same before the indices are known: as far as an index reaches. -/
def State.gatherFoot0 (s : State) (c : CtxId) (d : Nat → Nat) : Foot := s.gatherFoot c d (d 2, 256 ^ gatherIdxW d * gatherElem d)
/-- Replace the head descriptor of a cluster's queue. -/
def State.setGather (s : State) (k : Nat) (g : Gather) : State :=
  let cl := s.cluster k
  s.setCluster k { cl with gq := g :: cl.gq.drop 1 }
/-- The head descriptor has ended; the next one follows. -/
def State.gatherEnd (s : State) (k : Nat) : State :=
  let cl := s.cluster k
  let s := s.setCluster k { cl with gq := cl.gq.drop 1 }
  if (cl.gq.drop 1).isEmpty then s else s.after 1 .gatherDescriptorRun { ns := [k] }
/-- The head descriptor fails (R435): position, then 1 to 7. -/
def State.gatherFail (s : State) (k : Nat) (g : Gather) (pos det : Nat) : State :=
  (s.gatherEnd k).pendAsync g.ctx { cause := 34, detail := det, val := g.va, insn := some pos }
/-- The next access of a probed descriptor (R179, R180): an element's read, its write in the next step, and after the last one the
raise of its line. `peer` holds the peers' answers, as for a copy. Of the orders that R179 leaves free, the model moves the elements
in that of their positions (notes/assumptions/84). -/
def State.gatherStep (s : State) (k : Nat) (g : Gather) (moves : List (List (Nat × Nat) × List (Nat × Nat))) (peer : List Nat) : State :=
  let d (i : Nat) := g.desc.getD i 0
  let scat := bit (d 4) 8
  let go (s : State) (n : Nat) (peer : List Nat) : State := s.after n .gatherDescriptorRun { ns := [k, 1] ++ peer }
  let once (ps : List (Nat × Nat)) (f : State → State) : State :=
    match s.reach g.ctx ps with
    | .go t => f t
    | .wait t n => t.after n .gatherDescriptorRun s.arg
    | .never => s
    | .hole => s.gatherFail k g g.pos 4
  match moves with
  | [] => (s.gatherEnd k).raiseLine k (bits (d 4) 3 0)
  | (tp, dp) :: rest =>
    let (src, dst) := if scat then (dp, tp) else (tp, dp)
    match g.got with
    | none =>
      if farPieces src then
        match s.answers ((src.headD (0, 0)).1) peer with
        | v :: more => go (s.setGather k { g with got := some v }) 0 more
        | [] => s.gatherFail k g g.pos 7
      else once src fun t =>
        match t.poisonIn src with
        | some u => (t.countPoison u).gatherFail k g g.pos 6
        | none => go (t.setGather k { g with got := some (t.rdPieces src) }) 0 peer
    | some v =>
      let g' := { g with got := none, moves := some rest, pos := g.pos + 1 }
      if farPieces dst then
        match s.answers ((dst.headD (0, 0)).1) peer with
        | _ :: more => go (s.setGather k g') 1 more
        | [] => s.gatherFail k g g.pos 7
      else match dst.findSome? fun p => s.holdOf p.1 p.2 with
      | some mid => s.holdWrite mid .gatherDescriptorRun
      | none => once dst fun t => go ((t.wrPieces g.ctx dst v).setGather k g') 1 peer
/-- First locations of the pages that an index list lies in, as far as they can be reached. -/
def State.indexPages (s : State) (c : CtxId) (asid : Nat) (d : Nat → Nat) : List (Nat × Nat) :=
  (upFrom 0 ((d 0 % 65536 + bits (d 1) 31 0 * gatherIdxW d + 65535) / 65536)).filterMap fun j =>
    match s.engKey c asid ((d 0 / 65536 + j) * 65536 % 18446744073709551616) false [0, 4, 5] with
    | .ok (_, k) => some (k, 65536)
    | .error _ => none
/-- The probe pass of the head descriptor (R179): its moves and its footprint, or its failure. The model reads the index list in one
step (notes/assumptions/84). -/
def State.gatherBegin (s : State) (k : Nat) (g : Gather) : State :=
  let d (i : Nat) := g.desc.getD i 0
  match s.reach g.ctx (s.indexPages g.ctx g.asid d) with
  | .wait t n => t.after n .gatherDescriptorRun s.arg
  | .never => s
  | .hole => s.gatherFail k g 0 1
  | .go s => match gatherProbe g.ctx g.asid d (bit (d 4) 8) (upFrom 0 (bits (d 1) 31 0)) s with
    | .error (pos, det) =>
      let u := match s.engPieces g.ctx g.asid ((d 0 + pos * gatherIdxW d) % 18446744073709551616) (gatherIdxW d) false [0, 4, 5] with
        | .ok (_, ps) => if det = 6 then s.poisonIn ps else none
        | .error _ => none
      (u.elim s s.countPoison).gatherFail k g pos det
    | .ok (t, found) =>
      let g := { g with moves := some (found.map (·.2)), foot := t.gatherFoot g.ctx d (footprint (found.map (·.1)) (gatherElem d)) }
      (t.setGather k g).after 0 .gatherDescriptorRun s.arg

/-- GATHER_DESCRIPTOR_RUN (R179, R180, R435): the head descriptor is probed, its elements move one by one, and its line is raised; or its
fault is. With a table at a peer, the step after the probe comes from outside, marked 1 and followed by the peer's answers. -/
def execGatherDescriptorRun (s : State) : Host.Outcome State Fault Refusal :=
  let k := s.n 0
  match (s.cluster k).gq with
  | [] => done s
  | g :: _ =>
    let d (i : Nat) := g.desc.getD i 0
    let clear (f : Foot) : Bool := !(s.flight.any fun f => g.after.contains f.id && !f.performed) && s.engineClear g.ctx f g.behind
    let wait := done (s.after 1 .gatherDescriptorRun s.arg)
    match g.moves with
    | some moves =>
      if !clear g.foot then wait
      else if s.n 1 = 0 && moves.any fun m => farPieces m.1 then done s
      else done (s.gatherStep k g moves (s.arg.ns.drop 2))
    | none =>
      if gatherReserved d then done (s.gatherFail k g 0 5)
      else if !clear { rd := [(s.footAddr g.ctx (d 0), bits (d 1) 31 0 * gatherIdxW d)] } then wait
      else done (s.gatherBegin k g)

/-- GPOST (R374): the descriptor is read as one access and queued; the word waits while the queue holds 16, the one in work counted
(notes/assumptions/84). -/
def execGpost (a : Nat) (s : State) : Host.Outcome State Fault Refusal :=
  word { a := rd .x a, da := true, scope := true, svc := false } s fun o t => do
    let c := t.cur
    let k := c.core.cluster
    let cl := t.cluster k
    let desc ← t.ownWords c o.a 64
    if cl.gq.length ≥ 16 then throw (.retry (.queue false))
    let g : Gather := { ctx := c, va := o.a, desc := desc, asid := t.spaceOf c, eid := t.nextId, after := o.engines t c,
                        behind := t.engineNow c, foot := t.gatherFoot0 c (desc.getD · 0) }
    let t := t.fresh.setCluster k { cl with gq := cl.gq ++ [g] }
    pure (.done (if cl.gq.isEmpty then t.after 1 .gatherDescriptorRun { ns := [k] } else t))

end Sys2Proof.Machine
end

