-- ==== Sys2Proof/Machine/Csr.lean ====
section
/-! DEFINITION. CSRs (10_encoding R258 to R260; 11_isa_scalar R280, R281) and the hint words (R252 to R257). -/

namespace Sys2Proof.Machine

/-- The CSR numbers of R259 and R409. -/
def csrKnown (n : Nat) : Bool :=
  decide (n ≤ 9) || (decide (256 ≤ n) && decide (n ≤ 258)) || (decide (512 ≤ n) && decide (n ≤ 518)) ||
  (decide (528 ≤ n) && decide (n ≤ 575)) || n == 768 || n == 769 || (decide (1024 ≤ n) && decide (n ≤ 1028)) ||
  (decide (2048 ≤ n) && decide (n ≤ 2054)) || (decide (3072 ≤ n) && decide (n ≤ 3078))

/-- Is a CSR access above the level (R258, R415)? `wr` for one that writes. -/
def csrPriv (n : Nat) (wr : Bool) (lv : Level) : Bool :=
  (decide (2048 ≤ n) && decide (n ≤ 2303) && lv == .u) || (decide (3072 ≤ n) && decide (n ≤ 4095) && lv != .h) ||
  (n == 9 && wr && lv == .u)

/-- `coord` (R86). -/
def State.coord (s : State) (c : CtxId) : Nat :=
  c.place + match s.launchOf c.core with
    | none => 0
    | some l => l.pyls * 4294967296 + l.orgX * 1099511627776 + l.orgY * 35184372088832 + l.extW * 2251799813685248 +
        l.extH * 144115188075855872

/-- `vfree` (R103): the counts of the vertical FIFOs at the start of the cycle. -/
def State.vfree (s : State) (u : CoreId) : Nat :=
  let at_ (v : CoreId) (i : Nat) := ((s.core v).fifoStart s.cyc).getD i 0
  match u.kind with
  | .span => (8 - at_ u 1) + 16 * at_ u 2
  | .deck => (upFrom 0 4).foldl (fun v n =>
      let w := u.spanOf n
      v + 16 ^ n * (8 - at_ w 0) + 65536 * 16 ^ n * at_ w 3) 0
  | .service => 0

/-- Bit 8 + k of `ctx` for every live context (R88). -/
def State.liveBits (s : State) (u : CoreId) : Nat :=
  u.ctxs.foldl (fun v c => if (s.ctx c).live then v + 2 ^ (8 + c.k) else v) 0

/-- Field number n of a trap record, 0 to 6 (R409). -/
def TrapRec.get (r : TrapRec) : Nat → Word
  | 0 => r.cause | 1 => r.epc | 2 => r.val | 3 => r.info | 4 => r.vec | 5 => r.stat | _ => r.scr

/-- Put the fields of a write into a register: bits of the mask change (R280). -/
def field (old new mask : Nat) : Nat := old - (old &&& mask) + (new &&& mask)

/-- A write to field n of a trap record (R409, R415): reserved values leave their field; DBL is W1C, in `hstat` only. -/
def TrapRec.put (r : TrapRec) (n v : Nat) (isH : Bool) : TrapRec :=
  match n with
  | 0 => { r with cause := Word.ofN (field r.cause.toNat v (if bits v 23 22 = 3 then 17039359 else 29622271)) }
  | 1 => { r with epc := Word.ofN v }
  | 2 => { r with val := Word.ofN v }
  | 3 => { r with info := Word.ofN (field r.info.toNat v 281474976710655) }
  | 4 => { r with vec := Word.ofN (field r.vec.toNat v 18446744073709551361) }
  | 5 => { r with stat := Word.ofN (field r.stat.toNat v 4294901760 - (if isH ∧ bit v 1 ∧ bit r.stat.toNat 1 then 2 else 0)) }
  | _ => { r with scr := Word.ofN v }

/-- The value that a read of a CSR returns (R86 to R105, R131, R132, R240, R260, R409). -/
def State.csr (s : State) (c : CtxId) (n : Nat) : Nat :=
  let x := s.ctx c
  let u := s.core c.core
  match n with
  | 0 => s.cyc % 18446744073709551616
  | 1 => s.coord c
  | 2 => u.stage + ((s.launchOf c.core).elim 0 (·.nstg)) * 4 + u.stageNext * 16 + if u.stagePend then 64 else 0
  | 3 => u.sstep.toNat
  | 4 => c.k + x.parent * 16 + s.liveBits c.core
  | 5 => u.pw
  | 6 => if c.core.kind = .deck then x.vsel.toNat else 0
  | 7 => s.vfree c.core
  | 8 => u.bdom + if bit u.memb.toNat u.bdom then 64 else 0
  | 9 => x.ctlmode.toNat
  | 256 => x.fcsr.toNat
  | 257 => x.iflag.toNat
  | 258 => x.vstale.toNat
  | 517 => 0
  | 518 => x.cpDue.toNat
  | 768 => x.tsk.toNat
  | 769 => x.tgrp.toNat
  | 1024 => x.imb0.toNat
  | 1025 => x.imb1.toNat
  | 1026 => x.imb2.toNat
  | 1027 => x.imb3.toNat
  | 1028 => if (s.pylon c.core.pyl).capture then 1 else 0
  | _ =>
    if n < 1024 then (Tab.get x.cp n 0).toNat
    else if n < 3072 then (x.trapS.get (n - 2048)).toNat
    else (x.trapH.get (n - 3072)).toNat

/-- The bits of a copy register that a write replaces: reserved bits stay zero, and a reserved LG leaves the register as it is (R7,
R173, R174, R415). -/
def cpMask (n v : Nat) : Nat :=
  if n = 514 then (if v % 8 = 7 then 0 else 7) else if n = 515 then 31
  else if 528 ≤ n ∧ n < 544 then 4294967295 else 18446744073709551615
/-- What a write of a CSR changes in its context (R46, R67, R103, R105, R173, R199, R409); RO fields and CSRs ignore it. -/
def Ctx.csrPut (x : Ctx) (k : CoreKind) (n v : Nat) : Ctx :=
  match n with
  | 6 => if k = .deck then { x with vsel := Word.ofN (v % 4) } else x
  | 9 => { x with ctlmode := Word.ofN (v % 2) }
  | 256 => { x with fcsr := Word.ofN (field x.fcsr.toNat v (if bits v 7 5 > 4 then 7967 else 8191)) }
  | 257 => { x with iflag := Word.ofN (field x.iflag.toNat v 243) }
  | 258 => { x with vstale := Word.ofN (v % 4294967296) }
  | _ =>
    if (512 ≤ n ∧ n ≤ 516) ∨ (528 ≤ n ∧ n ≤ 575) then
      { x with cp := Tab.set x.cp n (Word.ofN (field (Tab.get x.cp n 0).toNat v (cpMask n v))) }
    else if 2048 ≤ n ∧ n ≤ 2054 then { x with trapS := x.trapS.put (n - 2048) v false }
    else if 3072 ≤ n ∧ n ≤ 3078 then { x with trapH := x.trapH.put (n - 3072) v true }
    else x

/-- View-checked reads of a context's words that may still count in `vstale`: loads, and MLDW and MMA through view handles (R281). -/
def State.staleIds (s : State) (c : CtxId) : List Nat :=
  ((s.flight.filter fun f => f.ctx == c && f.kind == .v && !f.performed).map (·.id)) ++
  (((s.core c.core).mq.filter fun m => m.src == some c && decide (m.word % 64 < 4) && bits (m.h0.getD 5 0) 20 19 == 2).map (·.id))
/-- The causes of a CSR access: a reserved number, the level (R258, R415). -/
def State.csrLegal (s : State) (n : Nat) (wr : Bool) : Chk Unit := do
  if !csrKnown n then trap 1 0 s.ir.toNat
  if csrPriv n wr (s.ctx s.cur).level then trap 2 0 s.ir.toNat
/-- The updates of earlier words that a CSR access waits for (R281). -/
def State.csrWait (s : State) (c : CtxId) (n : Nat) : Chk Unit := do
  if n = 256 ∨ n = 257 then
    match (s.core c.core).sfu.find? (·.ctx == c) with
    | some _ => throw (.retry .sfu)
    | none => pure ()
  if n = 258 then
    match s.staleIds c with
    | [] => pure ()
    | ids => throw (.retry (.accesses ids))

/-- The read half of a CSR instruction: a read of `cp.go` starts a copy (R175, R280). -/
def State.csrRead (s : State) (c : CtxId) (n : Nat) : State × Nat :=
  if n = 517 then s.cpGo c else (s, s.csr c n)
/-- The write half. -/
def State.csrWrite (s : State) (c : CtxId) (n v : Nat) : State := s.setCtx c ((s.ctx c).csrPut c.core.kind n v)

/-- A CSR word: its causes come before those of its operands (R418). -/
def csrWord (g : Sig) (csr : Nat) (wr : Bool) (s : State) (body : Opnds → State → Chk Out) : Host.Outcome State Fault Refusal :=
  wordWith g s (s.csrLegal csr wr) (fun _ => s.csrLegal csr wr) fun o t => do
    t.csrWait t.cur csr
    body o t
/-- CSRR (R280). -/
def execCsrr (d csr : Nat) (s : State) : Host.Outcome State Fault Refusal :=
  csrWord { d := wr .x d, dd := true } csr false s fun o t => do
    let (t', v) := t.csrRead t.cur csr
    retX t' t.cur o d v
/-- CSRW: with D = 0 the CSR is not read (R280). -/
def execCsrw (d a csr : Nat) (s : State) : Host.Outcome State Fault Refusal :=
  csrWord (rr d a) csr true s fun o t => do
    if d = 0 ∧ o.m.dst = 0 then pure (.done (t.csrWrite t.cur csr o.a))
    else
      let (t', v) := t.csrRead t.cur csr
      retX (t'.csrWrite t.cur csr o.a) t.cur o d v
/-- CSRS (R280). -/
def execCsrs (d a csr : Nat) (s : State) : Host.Outcome State Fault Refusal :=
  csrWord (rr d a) csr true s fun o t => do
    let (t', v) := t.csrRead t.cur csr
    retX (t'.csrWrite t.cur csr (v ||| o.a)) t.cur o d v
/-- CSRC (R280). -/
def execCsrc (d a csr : Nat) (s : State) : Host.Outcome State Fault Refusal :=
  csrWord (rr d a) csr true s fun o t => do
    let (t', v) := t.csrRead t.cur csr
    retX (t'.csrWrite t.cur csr (v &&& (18446744073709551615 - o.a))) t.cur o d v

/-! ### Hint words -/

/-- HINT_ORPHAN at a hint word (R416). -/
def orphan (s : State) (detail : Nat) : Host.Outcome State Fault Refusal :=
  .next (s.takeTrap s.cur { cause := 4, detail := detail, val := s.ir.toNat } (s.ctx s.cur).resume s.ir.toNat)
/-- A hint word completes and the chain stays for its target. -/
def State.chain (s : State) (x : Ctx) : State :=
  s.setCtx s.cur { x with chainPc := some x.resume, pc := x.pc + 4, st := .ready, wait := .none }

/-- A hint word in order: ILLEGAL where its payload holds a reserved value (R416, R418), else its effect. -/
def hintEnd (s t : State) : Host.Outcome State Fault Refusal :=
  .next (match s.bad with
    | some f => s.illegal f
    | none => t)

/-- HINT.IMM (R252, R253). A word before it in the chain is misuse (R416). -/
def execHintImm (s : State) : Host.Outcome State Fault Refusal :=
  let x := s.ctx s.cur
  match x.chainImm, x.chainMod with
  | some _, some _ => orphan s 1
  | some _, none => orphan s 7
  | none, some _ => orphan s 2
  | none, none => hintEnd s (s.chain { x with chainImm := some (s.ir.toNat % 4194304) })
/-- HINT.MOD (R252, R254). -/
def execHintMod (s : State) : Host.Outcome State Fault Refusal :=
  let x := s.ctx s.cur
  match x.chainImm, x.chainMod with
  | some _, some _ => orphan s 1
  | none, some _ => orphan s 7
  | _, none => hintEnd s (s.chain { x with chainMod := some (s.ir.toNat % 4194304) })
/-- HINT.DLY: the next word issues no earlier than n + 1 cycles after it (R256). -/
def execHintDly (s : State) : Host.Outcome State Fault Refusal :=
  let x := s.ctx s.cur
  let n := s.ir.toNat % 4096
  if x.chainPc.isSome then orphan s 3
  else if x.timed.isSome ∨ n = 0 then
    hintEnd s (s.setCtx s.cur { x with pc := x.pc + 4, notBefore := max x.notBefore (s.cyc + n + 1), resumeAt := 0 })
  else
    let t := s.sleep s.cur .delay
    hintEnd s (t.after (n + 1) .delayExpiry { ctx := s.cur, ns := [(t.ctx s.cur).waitNo] })
/-- HINT.PRF: no architectural effect (R257). -/
def execHintPrf (s : State) : Host.Outcome State Fault Refusal :=
  let x := s.ctx s.cur
  if x.chainPc.isSome then orphan s 3 else hintEnd s (s.advance s.cur)

end Sys2Proof.Machine
end

