-- ==== Sys2Proof/Machine/Sys.lean ====
section
/-! DEFINITION. Helpers, traps on purpose, stops and gating, translation invalidation (11_isa_scalar R282 to R292;
08_scheduling R221 to R225; 21_traps R411, R414), and the steps that end their waits. -/

namespace Sys2Proof.Machine

/-! ### Helpers (R282 to R284) -/

/-- Zero n bytes. -/
def State.zero (s : State) (key n : Nat) : State := { s with mem := Mem.write s.mem key n 0 }

/-- What the start of a helper without keep clears in its context (R76, R282). -/
def Ctx.cleared (x : Ctx) : Ctx :=
  { x with fcsr := 0, iflag := 0, vstale := 0, tsk := 0, tgrp := 0, watch0 := {}, watch1 := {}, watch2 := {}, watch3 := {},
           cpId := 0 }
/-- A context starts at an address (R76, R77): nothing of its last run is under way, and its trap records read zero but for the
vectors (R409). -/
def Ctx.begin (x : Ctx) (pc : Word) (parent cyc : Nat) : Ctx :=
  { x with st := .ready, wait := .none, pc := pc, parent := parent, chainImm := none, chainMod := none, chainPc := none,
           publish := [], snap := [], pkt := none, resend := none, parrive := none, again := none, timed := none, notBefore := cyc + 1,
           since := cyc + 1, due := false, pend := [], async := [], grant := none, stops := [], held := [], wfiCst := false,
           wfiMsg := false, wfiTmo := false, spurious := false, sfuHeld := [], ahead := [], walked := none, raised := false,
           snapAt := cyc, pktCut := false, cmdRan := false, resumeAt := 0, syncTo := none, yieldTo := [],
           trapS := { vec := x.trapS.vec }, trapH := { vec := x.trapH.vec } }
/-- x, p, q, s, tags and h of a window become zero (R76); a value still on its way to them is not delivered (R395), and what a
request of the last run would join `fcsr`, `iflag` and PMASK with is dropped too (R67, R347). -/
def State.clearWindow (s : State) (c : CtxId) : State :=
  let s := (s.zero (s.win c) 768).zero (s.win c + 1024) 512
  let quiet (f : Access) : Access := if f.ctx = c then { f with dcls := 0 } else f
  let k := s.core c.core
  { s.setCore c.core { k with sfu := k.sfu.map fun r => if r.ctx = c then { r with outs := [], flags := 0, ior := 0, pmask := none } else r } with
    flight := s.flight.map quiet }

/-- Stores and atomics of a context to the window of another that have not been performed (R76). -/
def State.windowIds (s : State) (c h : CtxId) : List Nat :=
  (s.flight.filter fun f => f.ctx == c && !f.isLoad && !f.performed && decide (f.key < s.win h + 8192) && decide (s.win h < f.key + f.n)).map (·.id)
/-- START (R282): WINDOW 2 by a helper, 1 for a number that is not provisioned, 3 for a live helper (R418). It waits for the parent's
earlier stores to the window (R76). Level and address space are the parent's, the vectors the helper's own (R412). -/
def execStart (a b n : Nat) (keep : Bool) (s : State) : Host.Outcome State Fault Refusal :=
  word { a := rd .x a, b := rd .x b, da := true, db := true } s fun o t => do
    let c := t.cur
    let h : CtxId := ⟨c.core, n⟩
    if c.k ≠ 0 then trap 10 2 n
    if n = 0 ∨ n ≥ c.core.kind.contexts ∨ n ≥ t.nwin c.core then trap 10 1 n
    if (t.ctx h).live then trap 10 3 n
    match t.windowIds c h with
    | [] => pure ()
    | ids => throw (.retry (.accesses ids))
    let x := if keep then t.ctx h else (t.ctx h).cleared
    let p := t.ctx c
    let x := { x with level := p.level, asid := p.asid }
    let t := if keep then t else t.clearWindow h
    let t := t.setCtx h (x.begin (Word.ofN o.a) c.k t.cyc)
    pure (.done ((t.wx h 2 o.b).wx h 3 c.k))

/-- JOINH (R283): WINDOW 6 of its own number, 1 beyond the provisioned ones. It waits until the helper is free, its stores are
performed and nothing is on its way to its window (R78). -/
def execJoinh (n : Nat) (s : State) : Host.Outcome State Fault Refusal :=
  word {} s fun _ t => do
    if n = t.cur.k then trap 10 6 n
    if n ≥ t.nwin t.cur.core then trap 10 1 n
    if !t.helperDone ⟨t.cur.core, n⟩ then throw (.retry (.joinh n))
    pure (.done t)

/-! ### Arrivals at barriers (R91, R461) -/

/-- Has every live context of a core executed its arrival at a domain's barrier, and are their stores performed? -/
def State.coreReady (s : State) (l : Launch) (u : CoreId) (dom : Nat) : Bool :=
  let b := Tab.get l.barriers dom {}
  let live := u.ctxs.filter fun c => (s.ctx c).live
  !live.isEmpty && live.all (fun c => b.ctxs.any fun e => e.1 == c && s.gone e.2) && !(b.cores.any (·.1 == u))
/-- Set the arrival of a core going where its contexts have all come (R91); a core with none drops out (R461). -/
def State.tryArrive (s : State) (u : CoreId) : State :=
  match s.launchOf u with
  | none => s
  | some l =>
    (l.barriers.map (·.1)).foldl (fun s dom =>
      if s.coreReady l u dom then s.after 0 .coreArrival { ctx := ⟨u, 0⟩, ns := [dom] }
      else match s.launch l.id with
        | some l => if (Tab.get l.doms dom []).contains u then s.tryRelease l dom else s
        | none => s) s

/-- Has a launch ended: started, no live context on its cores, no task of it with the pier (R75, R130)? -/
def State.launchEnded (s : State) (l : Launch) : Bool :=
  l.started && l.cores.all (fun u => u.ctxs.all fun c => !(s.ctx c).live || (s.core u).lid != l.id) &&
  s.away.all (fun e => e.2.1.lid != l.id || e.2.2.all (!·.live)) &&
  s.homes.all fun h => h.2.queues.all fun q => q.2.lid != l.id || q.2.tasks.all fun t => t.st != .near

/-- A context becomes free (R77, R284): its watch entries are disarmed, and requests withdrawn from the special-function unit are
discarded (R421); one that is still queued there ends in the window. -/
def Ctx.freed (x : Ctx) : Ctx :=
  { x with st := .free, wait := .none, chainImm := none, chainMod := none, chainPc := none, watch0 := {}, watch1 := {},
           watch2 := {}, watch3 := {}, sfuHeld := [], stops := [], tgrp := 0, async := [], ahead := [], parrive := none, again := none, timed := none }

/-- The contexts of a core that a CSTOP still waits for: those of a mask that have neither stopped nor issued HALT (R221). -/
def State.unstopped (s : State) (u : CoreId) (mask : Nat) : Nat :=
  u.ctxs.foldl (fun m c => if bit mask c.k && (s.ctx c).live && (s.ctx c).st != .stopped && !(s.ctx c).halting then m + 2 ^ c.k else m) 0
/-- Acknowledgements of a core that may leave now (R465): every named context has done what was asked. A context that has once stopped
or ended counts for good (R221, R289). -/
def State.settle (s : State) (u : CoreId) : State :=
  let s : State := { s with acks := s.acks.map fun a => if a.core = u ∧ a.kind = 0 then { a with mask := s.unstopped u a.mask } else a }
  let okFor (a : Ack) : Bool := a.core == u && (match a.kind with
     | 0 => a.mask == 0
     | 1 => true
     | _ => s.gone a.ids)
  let out := s.acks.filter okFor
  if out.isEmpty then s else
    out.foldl (fun s a =>
      s.after (stopWay a.issuer.core u) .stopAckArrival { ctx := a.issuer, ns := [a.kind, a.waitNo] })
      { s with acks := s.acks.filter fun a => !okFor a }

/-- The context leaves its steal group, with the message to its home (R116, R284). -/
def State.leaveGroup (s : State) (c : CtxId) : State :=
  let g := (s.ctx c).tgrp.toNat
  if bit g 0 then
    let h := bits g 17 9
    (s.setCtx c { s.ctx c with tgrp := 0 }).after (latHome c.core h / 2) .tleaveArrival { ctx := c, ns := [h, bits g 8 3] }
  else s

/-- A context that halts no longer counts at the barriers of its launch (R91), nor does its core with its last context (R461). -/
def State.unarrive (s : State) (c : CtxId) : State :=
  match s.launchOf c.core with
  | none => s
  | some l =>
    let gone := c.core.ctxs.all fun o => !(s.ctx o).live
    let drop (b : Barrier) : Barrier :=
      let cores := if gone then b.cores.filter (·.1 != c.core) else b.cores
      { b with ctxs := b.ctxs.filter (·.1 != c), late := b.late.filter (·.1 != c), cores := cores
               first := if cores.isEmpty then none else b.first }
    s.setLaunch { l with barriers := l.barriers.map fun e => (e.1, drop e.2) }

/-- HALT (R284): QUEUE 5 with a task, PACKET 3 with an open packet; context 0 awaits the helpers, the stores are performed, and then
the context is free. -/
def execHalt (s : State) : Host.Outcome State Fault Refusal :=
  word {} s fun _ t => do
    let c := t.cur
    let x := t.ctx c
    match x.grant with
    | some g => trap 53 5 (g.queue + g.home * 64)
    | none => pure ()
    if x.pkt.isSome then trap 50 3 0
    if c.k = 0 ∧ (c.core.ctxs.any fun o => o != c && (t.ctx o).live) then
      if x.timed.isSome then throw (.retry .halt)
      pure (.left ((t.sleep c .halt).settle c.core))
    else if !t.storesDone c then
      if x.timed.isSome then throw (.retry .stores)
      pure (.left (((t.boundary c).sleep c .stores).settle c.core))
    else
      let t := t.leaveGroup c
      let k := c.core.cluster
      let t := t.setCluster k { t.cluster k with watchOrder := (t.cluster k).watchOrder.filter (·.1 != c) }
      let t := (((t.setCtx c (t.ctx c).freed).unarrive c).settle c.core).tryArrive c.core
      pure (.left (match t.launchOf c.core with
        | some l => if t.launchEnded l then t.after 0 .launchCompletion { ns := [l.id] } else t
        | none => t))

/-- YIELD (R285). -/
def execYield (s : State) : Host.Outcome State Fault Refusal :=
  word {} s fun _ t =>
    let c := t.cur
    let others := (c.core.ctxs.filter fun o => o != c && t.canIssue o).map (·.k)
    if (t.ctx c).timed.isSome ∨ others.isEmpty then .ok (.done t)
    else
      let t := t.sleep c .yield
      let t := t.setCtx c { t.ctx c with yieldTo := others }
      .ok (.left (t.after 11 .yieldEnd { ctx := c, ns := [(t.ctx c).waitNo] }))

/-- Is a context still in the wait that a step ends? -/
def State.inWait (s : State) (c : CtxId) (no : Nat) : Bool := (s.ctx c).waitNo == no && (s.ctx c).st == .waiting
/-- A step that completes a wait is held while the context is stopped (R222). -/
def State.heldIf (s : State) (c : CtxId) (i : Instr) (k : State → State) : State :=
  if (s.ctx c).st = .stopped then s.setCtx c { s.ctx c with held := (s.ctx c).held ++ [(i, s.arg)] } else k s

/-- DELAY_EXPIRY (R256). -/
def execDelayExpiry (s : State) : Host.Outcome State Fault Refusal :=
  done (s.heldIf s.arg.ctx .delayExpiry fun s => if s.inWait s.arg.ctx (s.n 0) then
    let x := s.ctx s.arg.ctx
    s.setCtx s.arg.ctx { x with st := .ready, wait := .none, pc := x.pc + 4, since := s.cyc, resumeAt := 0 } else s)
/-- YIELD_END (R285). -/
def execYieldEnd (s : State) : Host.Outcome State Fault Refusal :=
  done (s.heldIf s.arg.ctx .yieldEnd fun s => if s.inWait s.arg.ctx (s.n 0) then
    (s.wake s.arg.ctx).setCtx s.arg.ctx { (s.wake s.arg.ctx).ctx s.arg.ctx with yieldTo := [] } else s)

/-! ### Traps on purpose (R287, R410 to R414) -/

/-- The 10-bit code of TRAP, SCALL and BRK in bits 15:6 (R250 table). -/
def codeOf (w : BitVec 32) : Nat := bits w.toNat 15 6
/-- TRAP (R287). -/
def execTrap (s : State) : Host.Outcome State Fault Refusal :=
  word {} s fun _ t => .ok (.call t { cause := 61, code := codeOf t.ir })
/-- SCALL (R287, R410). -/
def execScall (s : State) : Host.Outcome State Fault Refusal :=
  word {} s fun _ t => .ok (.call t { cause := 62, code := codeOf t.ir })
/-- BRK (R287). -/
def execBrk (s : State) : Host.Outcome State Fault Refusal :=
  word {} s fun _ t => .ok (.call t { cause := 63, code := codeOf t.ir })

/-- ERET (R414): PRIV at U; ILLEGAL out of a handler or with a level above; requests withdrawn by the trap re-enter (R421). -/
def execEret (s : State) : Host.Outcome State Fault Refusal :=
  word { level := .s } s fun _ t => do
    let x := t.ctx t.cur
    let r := if x.level = .h then x.trapH else x.trapS
    let plv := bits r.cause.toNat 23 22
    if !r.inh || decide (plv > x.level.code) || plv == 3 then trap 1 0 t.ir.toNat
    let y := x.leave t.cyc
    pure (.left ((t.setCtx t.cur y).sfuReenter t.cur fun lv => lv == some y.level))

/-- ASYNC_TRAP_TAKE (R411, R418, R424): the pending cause of lowest code is taken; the context leaves its wait. -/
def execAsyncTrapTake (s : State) : Host.Outcome State Fault Refusal :=
  let c := s.arg.ctx
  let x := s.ctx c
  let can := x.st = .ready ∨ (x.st = .waiting ∧ (x.wait.breaks ∨ (s.stalls c ∧ s.wakes c)))
  if ¬ can then done s else
  match x.async with
  | [] => done s
  | t :: ts =>
    let low := ts.foldl (fun m u => if u.cause < m.cause then u else m) t
    let k := c.core.cluster
    let cl := s.cluster k
    let s := s.setCluster k { cl with evWait := cl.evWait.filter (·.2 != c) }
    let s := s.setCtx c { x with async := x.async.erase low }
    done (s.takeTrap c low x.resume 0)

/-! ### Page-table walks (R422, R427) -/

/-- TLB_WALK_END (R158, R422, R425, R427): the entry goes to the TLBs with A and D set, or the cause waits for the word,
which is issued again. A walk that meets a home that is off has no end (R233). -/
def execTlbWalkEnd (s : State) : Host.Outcome State Fault Refusal :=
  let c := s.arg.ctx
  done (s.heldIf c .tlbWalkEnd fun s =>
    if !s.inWait c (s.n 3) then s else
    let va := s.n 0
    let wr := s.n 1 == 1
    let x := s.ctx c
    let back : Ctx := { x with st := .ready, wait := .none, since := s.cyc }
    match s.walk (s.spaceOf c) va wr (s.n 2 == 1) (x.level == .h) with
    | .ok (e, key) => ((s.setAD key wr).tlbFill c.core e).setCtx c back
    | .error (0, _) => s
    | .error (cause, detail) => s.setCtx c { back with walked := some { cause := cause, detail := detail, val := va } })

/-- A word waits until accesses of its context are performed. -/
def awaitIds (ids : List Nat) : Chk Unit := if ids.isEmpty then .ok () else .error (.retry (.accesses ids))
/-- TLBINV removes entries from every TLB of the module (R292). -/
def State.tlbDrop (s : State) (p : Tlb → Bool) : State :=
  { s with clusters := s.clusters.map fun k => (k.1, { k.2 with tlb := k.2.tlb.filter fun e => !p e })
           pylons := s.pylons.map fun k => (k.1, { k.2 with tlb := k.2.tlb.filter fun e => !p e }) }
/-- TLBINV.ASID (R292). Release order: it waits until the context's earlier eager stores and atomics are performed. -/
def execTlbinvAsid (b : Nat) (s : State) : Host.Outcome State Fault Refusal :=
  word { b := rd .x b, db := true, scope := true, level := .s } s fun o t => do
    awaitIds (o.releases t t.cur)
    pure (.done (t.tlbDrop fun e => e.asid % 65536 == o.b % 65536))
/-- TLBINV.PAGE (R292). -/
def execTlbinvPage (a b : Nat) (s : State) : Host.Outcome State Fault Refusal :=
  word { a := rd .x a, b := rd .x b, da := true, db := true, scope := true, level := .s } s fun o t => do
    awaitIds (o.releases t t.cur)
    pure (.done (t.tlbDrop fun e => e.maps (o.b % 65536) (bits o.a 47 0)))
/-- TLBINV.ALL (R292). -/
def execTlbinvAll (s : State) : Host.Outcome State Fault Refusal :=
  word { scope := true, level := .s } s fun o t => do
    awaitIds (o.releases t t.cur)
    pure (.done (t.tlbDrop fun _ => true))

/-! ### Notices (R286) -/

/-- The cause mask of WFI (R286). -/
def State.wfiMask (s : State) (c : CtxId) (tmo : Bool) : Nat :=
  let x := s.ctx c
  (if (s.core c.core).rx.isEmpty then 0 else 1) + (if x.wfiMsg && c.core.kind == .service then 2 else 0) +
  (if x.wfiCst then 4 else 0) + (if tmo || x.wfiTmo then 8 else 0) + (if x.spurious then 16 else 0)
/-- WFI's counts begin again (R286). -/
def Ctx.wfiClear (x : Ctx) : Ctx := { x with wfiCst := false, wfiMsg := false, wfiTmo := false, spurious := false }
/-- WFI (R286). -/
def execWfi (d a : Nat) (s : State) : Host.Outcome State Fault Refusal :=
  word { rr d a with level := .s } s fun o t => do
    let c := t.cur
    let m := t.wfiMask c false
    if m ≠ 0 then retX (t.setCtx c (t.ctx c).wfiClear) c o d m
    else if (t.ctx c).timed.isSome then throw (.retry .wfi)
    else if (t.ctx c).st = .waiting then throw (.retry .wfi)
    else
      let t := t.sleep c .wfi
      pure (.left (if o.a = 0 then t else t.after o.a .wfiTimeout { ctx := c, ns := [(t.ctx c).waitNo, d] }))
/-- WFI_TIMEOUT (R286). -/
def execWfiTimeout (s : State) : Host.Outcome State Fault Refusal :=
  let c := s.arg.ctx
  done (s.heldIf c .wfiTimeout fun s => if s.inWait c (s.n 0) then
    let m := s.wfiMask c true
    if ((s.ctx c).chainMod.elim 0 fun p => (Mod.ofPayload p).dst) ≠ 0 then s.setCtx c { s.ctx c with wfiTmo := true }
    else ((s.setCtx c (s.ctx c).wfiClear).wx c (s.n 1) m).wake c else s)

/-! ### Stops (R221 to R225, R289, R290, R465) -/

/-- The disabled clusters of a pylon, 16 at most (R18). -/
def disabled (p : Nat) : List Nat := (Config.fuseHoles p).take 16
/-- CLEN of R20: is a cluster enabled? -/
def enabled (p cy cx : Nat) : Bool := !(disabled p).contains (16 * cy + cx)
/-- The partition of a context: its launch's, else that whose system space it runs in (R229, R412). -/
def State.partOf (s : State) (c : CtxId) : Option Nat :=
  match s.launchOf c.core with
  | some l => some l.part
  | none => (upFrom 0 8).find? fun p => s.sysRoot p != 0 && s.sysAsid p % 65536 == (s.ctx c).asid.toNat
/-- Does a pylon belong to the issuer's partition? A context of no partition is the hypervisor's and reaches every pylon. -/
def State.mayReach (s : State) (c : CtxId) (pyl : Nat) : Bool :=
  match s.partOf c with
  | none => true
  | some p => s.partition pyl == some p

/-- The core and mask of CSTOP, CRESUME and FENCE.X; FIELD 3 or 4 of ILLEGAL otherwise (R289, R418). -/
def State.target (s : State) (c : CtxId) (a b : Nat) (fence : Bool) : Chk CoreId := do
  let u := coreOfWord a
  let inside := if fence then (s.launchOf c.core).any (·.has u) else s.mayReach c u.pyl
  if u.kind = .service ∨ !inside ∨ !enabled u.pyl (u.y / 2) (u.x / 2) ∨ (u.kind = .deck ∧ (u.x % 2 = 1 ∨ u.y % 2 = 1)) then
    trap 1 0 a 3
  if b / 2 ^ u.kind.contexts ≠ 0 then trap 1 0 b 4
  pure u

/-- Send a stop, resume or fence request to its target (R465, R407), behind the accesses that its release order covers. -/
def State.request (s : State) (c : CtxId) (kind : Nat) (u : CoreId) (mask : Nat) (ids : List Nat) : State :=
  let s := s.sleep c .ack
  s.after (stopWay c.core u) .cstopRequestArrival
    { ctx := c, ns := [kind, (⟨u, 0⟩ : CtxId).place, mask, (s.ctx c).waitNo] ++ ids }

/-- CSTOP (R289, R221). -/
def execCstop (a b : Nat) (s : State) : Host.Outcome State Fault Refusal :=
  word { a := rd .x a, b := rd .x b, da := true, db := true, scope := true, level := .s } s fun o t => do
    let u ← t.target t.cur o.a o.b false
    if (t.ctx t.cur).timed.isSome then throw (.retry .ack)
    pure (.left (t.request t.cur 0 u o.b (o.releases t t.cur)))
/-- CRESUME (R289, R224). -/
def execCresume (a b : Nat) (s : State) : Host.Outcome State Fault Refusal :=
  word { a := rd .x a, b := rd .x b, da := true, db := true, scope := true, level := .s } s fun o t => do
    let u ← t.target t.cur o.a o.b false
    if (t.ctx t.cur).timed.isSome then throw (.retry .ack)
    pure (.left (t.request t.cur 1 u o.b (o.releases t t.cur)))
/-- FENCE.X (R355, R170). -/
def execFenceX (a b : Nat) (s : State) : Host.Outcome State Fault Refusal :=
  word { a := rd .x a, b := rd .x b, da := true, db := true } s fun o t => do
    let u ← t.target t.cur o.a o.b true
    if (t.ctx t.cur).timed.isSome then throw (.retry .ack)
    pure (.left (t.request t.cur 2 u o.b []))

/-- Remaining timeout of a watch entry as the control block holds it (R225). -/
def Watch.left (w : Watch) (cyc : Nat) : Nat := if w.deadline = 0 then 0 else w.deadline - cyc
/-- WOP and WFN of a word that waits in the sense of R77 (R225): bits 31:16 of the block's second doubleword. -/
def State.waitCode (s : State) (c : CtxId) : Nat :=
  let x := s.ctx c
  if x.st = .waiting ∧ !s.stalls c then bits x.waitIr.toNat 31 26 * 65536 + x.waitIr.toNat % 64 * 16777216 else 0
/-- Doublewords written one after another by the module itself, as any write counts (R181, R429). -/
def State.wrWords (s : State) (key : Nat) : List Nat → State
  | [] => s
  | w :: ws => (s.wrBytes key 8 w 255 none).wrWords (key + 8) ws

/-- Write a context's control block at window offset 0x600 (R225). -/
def State.blockPut (s : State) (c : CtxId) (kbd : Nat) (mcmd : Option MCmd) (pkw : Option Nat) : State :=
  let x := s.ctx c
  let w1 := s.waitCode c + kbd % 256 * 256 + (if mcmd.isSome then 128 else 0) + match pkw with
    | some n => 64 + (n - 1)
    | none => 0
  let wt (w : Watch) : List Nat := [w.va, w.left s.cyc % 9223372036854775808 + if w.armed then 9223372036854775808 else 0]
  let b := s.win c + 1536
  let s := s.wrWords b [x.pc.toNat, w1, x.fcsr.toNat, x.iflag.toNat, x.vstale.toNat, x.tsk.toNat, x.tgrp.toNat]
  let s := s.wrWords (b + 64) (wt x.watch0 ++ wt x.watch1 ++ wt x.watch2 ++ wt x.watch3)
  s.wrWords (b + 128) [(mcmd.elim 0 (·.word)), x.cpId.toNat, x.cpDue.toNat]

/-- The matrix command that a stopping context's block names (R223, R408): a product halted between K-blocks, or one held at the
head of the queue before its start. A command that ran when the request came has ended, or runs to its end, and the block names none. -/
def State.stopCmd (s : State) (c : CtxId) : Option MCmd :=
  let q := (s.core c.core).mq
  let mine (m : MCmd) : Bool := m.src == some c || (m.src == none && c.k == 0)
  (q.find? fun m => m.halted && mine m).orElse fun _ =>
    if (s.ctx c).cmdRan then none else (q.take 1).find? fun m => !m.started && mine m
/-- CONTEXT_STOP (R221, R223, R225, R388, R408, R453): the block is written, the request withdrawn; an open packet is cancelled under
PFB, or when the stop has waited long enough for its end. -/
def execContextStop (s : State) : Host.Outcome State Fault Refusal :=
  let c := s.arg.ctx
  let x := s.ctx c
  if x.stops.isEmpty ∨ x.st = .free ∨ x.st = .stopped ∨ !s.atStop c then done s else
  let cmd := s.stopCmd c
  let cut := if bit x.ctlmode.toNat 0 || x.pktCut then x.pkt else none
  let s := s.blockPut c (cmd.elim 0 (·.kb)) cmd (cut.map (·.words.length))
  let y := { x with st := .stopped, wasWaiting := x.st = .waiting, stops := [], ahead := [], pktCut := false, cmdRan := false,
                    resend := if cut.isSome then cut else x.resend, pkt := if cut.isSome then none else x.pkt }
  let s := s.setCtx c y
  let s : State := { s with flight := s.flight.map fun f => if f.ctx = c then f.unread else f }
  done ((s.sfuWithdraw c none).settle c.core)

/-- PACKET_STOP_LIMIT (R453): a stop that still waits waits for no packet's end from now on, as if PFB were 1. -/
def execPacketStopLimit (s : State) : Host.Outcome State Fault Refusal :=
  let c := s.arg.ctx
  let x := s.ctx c
  done (if x.stops.contains (s.n 0) then s.setCtx c { x with pktCut := true } else s)

/-- The waits that a spurious cause ends (R182, R286). -/
def Wait.sleeps : Wait → Bool
  | .mwait => true
  | .wfi => true
  | _ => false
/-- A routed word sets off for its destination (R100, R216): a gated cluster wakes for it. -/
def State.route (s : State) (c : CtxId) (u : CoreId) (w : Nat) (first last : Bool) : State :=
  (s.wakeCluster u.cluster).after (latPool c.core u / 2) .routedWordArrival
    { ctx := c, ns := [(⟨u, 0⟩ : CtxId).place, w, if first then 1 else 0, if last then 1 else 0] }
/-- A cancelled packet is resent whole, its first word with the first bit (R222). -/
def State.resendPkt (s : State) (c : CtxId) : State :=
  match (s.ctx c).resend with
  | none => s
  | some p =>
    let s := s.setCtx c { s.ctx c with pkt := some p, resend := none }
    (p.words.zip (upFrom 0 p.words.length)).foldl (fun s e => s.route c p.dst e.1 (e.2 == 0) false) s
/-- The location of the address that a control block holds for a watch entry; none for one that MON could not arm (R181, R225). -/
def State.watchKey (s : State) (c : CtxId) (va : Nat) : Option Nat :=
  if va % 8 ≠ 0 then none else match s.engKey c (s.spaceOf c) va false [0, 4, 5, 12] with
  | .ok (_, k) => some k
  | .error _ => none
/-- The halted command goes on as the control block has it: word and K-blocks done, under MTX = 1 (R223, R225). -/
def State.blockCmd (s : State) (c : CtxId) (w1 mcmd : Nat) : State :=
  let k := s.core c.core
  let mine (m : MCmd) : Bool := m.halted && (m.src == some c || (m.src == none && c.k == 0))
  let go (m : MCmd) : MCmd :=
    if mine m then { m with word := mcmd % 4294967296, kb := if bits w1 15 8 = m.kb % 256 then m.kb else bits w1 15 8 } else m
  if bit w1 7 && k.mq.any mine then s.setCore c.core { k with mq := k.mq.map go } else s
/-- The status registers as a control block has them: each takes its assigned fields alone (R7, R131, R132, R225). -/
def Ctx.fromBlock (x : Ctx) (k : CoreKind) (fcsr iflag vstale tsk tgrp : Nat) : Ctx :=
  { ((x.csrPut k 256 fcsr).csrPut k 257 iflag).csrPut k 258 vstale with
    tsk := Word.ofN (tsk % 262144), tgrp := Word.ofN (tgrp % 262144 - tgrp / 2 % 2 * 2) }
/-- A context leaves Stopped (R222, R224, R225), as its control block has it: it re-enters the wait whose word the block still names, or
is ready at the block's pc; what the block does not hold stays with the context. -/
def State.resumeCtx (s : State) (c : CtxId) : State :=
  let x := s.ctx c
  let b := s.win c + 1536
  let rd (o : Nat) := Word.ofN (Mem.read s.mem (b + o) 8)
  let wt (w : Watch) (o : Nat) : Watch :=
    let va := Mem.read s.mem (b + o) 8
    let hi := Mem.read s.mem (b + o + 8) 8
    let key := if va = w.va then some w.key else s.watchKey c va
    { w with deadline := if hi % 9223372036854775808 = 0 then 0 else s.cyc + hi % 9223372036854775808, va := va, key := key.getD w.key
             armed := bit hi 63 && !w.fired && !w.evicted && key.isSome }
  let w1 := (rd 8).toNat
  let code := ({ s with ctxs := Tab.set s.ctxs c { x with st := .waiting } } : State).waitCode c
  let again := x.wasWaiting && decide (bits w1 31 16 * 65536 = code)
  let y := { x.fromBlock c.core.kind (rd 16).toNat (rd 24).toNat (rd 32).toNat (rd 40).toNat (rd 48).toNat with
    st := if again then .waiting else .ready
    wait := if again then x.wait else .none
    resend := if bit w1 6 then x.resend.map fun p => { p with words := p.words.take (w1 % 64 + 1) } else none
    pc := rd 0
    watch0 := wt x.watch0 64, watch1 := wt x.watch1 80, watch2 := wt x.watch2 96, watch3 := wt x.watch3 112
    cpId := BitVec.ofNat 16 (rd 136).toNat, cpDue := rd 144, spurious := again && x.wait.sleeps, held := [], since := s.cyc
    notBefore := max x.notBefore (s.cyc + 1) }
  let s := ((s.setCtx c y).blockCmd c w1 (rd 128).toNat).resendPkt c
  let s := x.held.foldl (fun s e => s.after 0 e.1 e.2) s
  let s := (upFrom 0 4).foldl (fun s n =>
    let w := y.watchAt n
    if w.armed && w.deadline != 0 then s.at_ w.deadline .mwaitTimeout { ctx := c, ns := [n, w.deadline] } else s) s
  let bar := match x.wait with
    | .barrier _ _ => true
    | _ => false
  let s := if again && x.raised && bar then s.wake c else s
  let s := if again ∧ x.wait.breaks ∧ !x.async.isEmpty then s.after 0 .asyncTrapTake { ctx := c } else s
  let s := if (s.core c.core).mq.isEmpty then s else s.after 0 .matrixCommandRun { ctx := c, ns := [0] }
  s.sfuReenter c fun lv => lv == none

/-- CSTOP_REQUEST_ARRIVAL (R465, R290, R355): a stop is noted at each named live context, a stopped one returns, or the
stores are performed; the acknowledgement leaves when the last has done so. -/
def execCstopRequestArrival (s : State) : Host.Outcome State Fault Refusal :=
  let a := s.arg
  if s.flight.any fun f => (a.ns.drop 4).contains f.id && !f.performed then done (s.after 1 .cstopRequestArrival a) else
  let kind := s.n 0
  let u := coreOfWord (s.n 1)
  let mask := s.n 2
  let named := u.ctxs.filter fun c => bit mask c.k
  let s := named.foldl (fun s c =>
    match kind with
    | 0 => if c = a.ctx then s else s.askStop c
    | 1 => if (s.ctx c).st = .stopped then s.resumeCtx c else s
    | _ => if (s.ctx c).live then s.boundary c else s) s
  let ack : Ack := { issuer := a.ctx, waitNo := s.n 3, kind := kind, core := u
                     mask := if kind = 0 ∧ a.ctx.core = u ∧ bit mask a.ctx.k then mask - 2 ^ a.ctx.k else mask
                     ids := if kind = 2 then named.flatMap s.storeIds else [] }
  done (({ s with acks := s.acks ++ [ack] } : State).settle u)

/-- STOP_ACK_ARRIVAL (R465): the issuer's word completes; a FENCE.X passes a snapshot boundary (R153). -/
def execStopAckArrival (s : State) : Host.Outcome State Fault Refusal :=
  let c := s.arg.ctx
  done (s.heldIf c .stopAckArrival fun s => if s.inWait c (s.n 1) then
    (if s.n 0 = 2 then s.snapBoundary c else s).wake c else s)

/-! ### Debug halts -/

/-- DEBUG_HALT_BEGIN (R421): the context issues nothing, and its special-function request is withdrawn. -/
def execDebugHaltBegin (s : State) : Host.Outcome State Fault Refusal :=
  let c := s.arg.ctx
  done ((s.setCtx c { s.ctx c with halted := true }).sfuWithdraw c none)
/-- DEBUG_HALT_END (R182, R286, R421): a spurious cause for MWAIT and WFI; the request re-enters. -/
def execDebugHaltEnd (s : State) : Host.Outcome State Fault Refusal :=
  let c := s.arg.ctx
  done ((s.setCtx c { s.ctx c with halted := false, spurious := (s.ctx c).st == .waiting && (s.ctx c).wait.sleeps }).sfuReenter c fun lv => lv == none)

/-! ### Gating (R216 to R218, R288, R457) -/

/-- Is a cluster quiescent (R217)? -/
def State.quiescent (s : State) (k : Nat) : Bool :=
  let u : CoreId := ⟨.deck, k / 512, k % 512 / 16 * 2, k % 16 * 2⟩
  let cores := u :: (upFrom 0 4).map u.spanOf
  let cl := s.cluster k
  cores.all (fun v => v.ctxs.all (fun c => !(s.ctx c).live) && (s.core v).mq.isEmpty && (s.core v).rxWait.isEmpty &&
    (s.core v).down.isEmpty) && cl.copies.isEmpty && cl.gq.isEmpty
/-- PGATE (R288): the cluster must be enabled and of the issuer's partition; x[D] has its state before. -/
def execPgate (d a : Nat) (s : State) : Host.Outcome State Fault Refusal :=
  word { rr d a with level := .s } s fun o t => do
    let p := bits o.a 11 9
    let k := clusterNo p (bits o.a 8 4) (bits o.a 3 0)
    if o.a / 4096 ≠ 0 ∨ !enabled p (bits o.a 8 4) (bits o.a 3 0) ∨ !t.mayReach t.cur p then trap 1 0 o.a 3
    let cl := t.cluster k
    let prior := if cl.power = .gated then 2 else if cl.gateReq then 1 else 0
    let t := if prior = 0 then (t.setCluster k { cl with gateReq := true }).after 1 .clusterGate { ns := [k] } else t
    retX t t.cur o d prior
/-- A cluster is gated; the pylon is, when all its clusters are (R218; notes/assumptions/76). -/
def State.gate (s : State) (k : Nat) : State :=
  let p := k / 512
  let s := s.setCluster k { s.cluster k with power := .gated, gateBy := (s.cluster k).gateReq, gateReq := false, gatedAt := s.cyc + 1 }
  let all := (upFrom 0 512).all fun i => !enabled p (i / 16) (i % 16) || (s.cluster (p * 512 + i)).power == .gated
  if all then s.setPylon p { s.pylon p with gated := true, wakeEnd := 0 } else s
/-- CLUSTER_GATE (R217): a pending gate takes effect when the cluster is quiescent; until then it stays pending, and behind an access
of its cycle. -/
def execClusterGate (s : State) : Host.Outcome State Fault Refusal :=
  let k := s.n 0
  let cl := s.cluster k
  if !cl.gateReq then done s
  else if cl.power = .awake ∧ s.quiescent k ∧ cl.wakeAsk ≠ s.cyc + 1 then done (s.gate k)
  else done (s.after 1 .clusterGate s.arg)
/-- PACK_IDLE_GATE (R218): a cluster that has stayed free for 65,536 cycles is gated, once it is quiescent. -/
def execPackIdleGate (s : State) : Host.Outcome State Fault Refusal :=
  let k := s.n 0
  let cl := s.cluster k
  if cl.power = .awake ∧ cl.freeSince = s.n 1 ∧ (s.launches.all fun l => l.cores.all fun u => u.cluster != k) then
    done (if s.quiescent k then s.gate k else s.after 1 .packIdleGate s.arg)
  else done s
/-- Words waiting in the mesh enter a receive queue of 16 entries that has room (R101). -/
def Core.drain (k : Core) : Core :=
  let n := 16 - k.rx.length
  { k with rx := k.rx ++ k.rxWait.take n, rxWait := k.rxWait.drop n }
/-- A word for a cluster that failed to wake is lost (R457): POOL_HOLE for its sender. The manual gives such a trap's address no value, which is
free. -/
def State.wordLost (s : State) (c : CtxId) : State :=
  { s with free := s.free + 1 }.pendAsync c { cause := 18, detail := 6, val := Config.outcome s.free % 18446744073709551616 }
/-- Words that wait at a cluster's cores as it wakes (R216) enter the receive queues. -/
def State.drainCluster (s : State) (us : List CoreId) : State := us.foldl (fun s u => s.setCore u (s.core u).drain) s
/-- Words that wait at a cluster's cores as its wake fails are lost (R457). -/
def State.dropCluster (s : State) (us : List CoreId) : State :=
  us.foldl (fun s u => (s.core u).rxWait.foldl (fun s e => s.wordLost e.src) (s.setCore u { s.core u with rxWait := [] })) s
/-- CLUSTER_WAKE_DONE (R216, R457): the retained state is there again; accesses and words that waited go on. -/
def execClusterWakeDone (s : State) : Host.Outcome State Fault Refusal :=
  let k := s.n 0
  match (s.cluster k).power with
  | .waking _ =>
    let s := (s.setCluster k { s.cluster k with power := .awake }).drainCluster (clusterCores k ++ [clusterDeck k])
    let y := s.pylon (k / 512)
    done (if y.gated ∧ y.wakeEnd ≤ s.cyc then s.setPylon (k / 512) { y with gated := false, wakeEnd := 0 } else s)
  | _ => done s
/-- WAKE_FAILURE (R457): the cluster is never free again; the fault log has it, and waiting accesses and routed words end in POOL_HOLE 6. -/
def execWakeFailure (s : State) : Host.Outcome State Fault Refusal :=
  let k := s.n 0
  if (s.cluster k).power = .waking (s.n 1) then
    let u := clusterDeck k
    let s := (s.setCluster k { s.cluster k with power := .failed }).dropCluster (clusterCores k ++ [clusterDeck k])
    let inK (f : Access) : Bool := !f.performed && (upFrom 0 4).any fun n =>
      let b := poolKey (u.spanOf n) 0
      let e := crownKey (u.spanOf n) 0
      (decide (b ≤ f.key) && decide (f.key < b + 262144)) || (decide (e ≤ f.key) && decide (f.key < e + 262144)) ||
      (decide (deckKey u 0 ≤ f.key) && decide (f.key < deckKey u 0 + 65536))
    let hit := s.flight.filter inK
    let s : State := { s with flight := s.flight.filter fun f => !inK f }
    let s := hit.foldl (fun s f => s.pendAsync f.ctx { cause := 18, detail := 6, val := f.va }) s
    done (s.faultLog (k / 512) 18 6 false (⟨u, 0⟩ : CtxId).place 0 0)
  else done s

end Sys2Proof.Machine
end

