-- ==== Sys2Proof/Machine/Flags.lean ====
section
/-! DEFINITION. Numbers (02_formats R25 to R50): exact values, the format slots, decoding, rounding with its flags, and the
arithmetic of R45 and R48. Flags are the low five bits of `fcsr`: NV 16, DZ 8, OF 4, UF 2, NX 1 (R46). -/

namespace Sys2Proof.Machine

/-- Rounding modes (R46). -/
inductive Rm where
  | rne | rtz | rdn | rup | rna
  deriving DecidableEq, Repr

/-- RM of `fcsr` (R46). -/
def Rm.ofCode (n : Nat) : Rm :=
  match n with
  | 0 => .rne | 1 => .rtz | 2 => .rdn | 3 => .rup | _ => .rna
/-- The mode of a word: the override of HINT.MOD (R47), else RM. -/
def Rm.of (fcsr rnd : Nat) : Rm := if rnd = 0 then .ofCode (bits fcsr 7 5) else .ofCode (rnd - 1)

/-- A value: a NaN with sign and payload (the 51 bits below the quiet bit, from the left), an infinity, or
(−1)^neg × m × 2^e exactly. -/
inductive Val where
  | nan (sig neg : Bool) (pay : Nat)
  | inf (neg : Bool)
  | fin (neg : Bool) (m : Nat) (e : Int)
  deriving DecidableEq, Repr

/-- The default quiet NaN (R48). -/
def Val.qnan : Val := .nan false false 0
/-- The integer n. -/
def Val.ofInt (n : Int) : Val := .fin (decide (n < 0)) n.natAbs 0
def Val.isNan : Val → Bool
  | .nan .. => true
  | _ => false
def Val.isSig : Val → Bool
  | .nan s .. => s
  | _ => false
def Val.isZero : Val → Bool
  | .fin _ m _ => m == 0
  | _ => false
def Val.neg : Val → Bool
  | .nan _ n _ => n
  | .inf n => n
  | .fin n _ _ => n
/-- The value with the other sign. -/
def Val.flip : Val → Val
  | .nan s n p => .nan s (!n) p
  | .inf n => .inf (!n)
  | .fin n m e => .fin (!n) m e
/-- The value without its sign. -/
def Val.abs : Val → Val
  | .nan s _ p => .nan s false p
  | .inf _ => .inf false
  | .fin _ m e => .fin false m e
/-- The value times 2^k. -/
def Val.scale : Val → Int → Val
  | .fin n m e, k => .fin n m (e + k)
  | v, _ => v

/-- A magnitude m × 2^e as an integer in units of 2^k, for k ≤ e. -/
def unitsAt (m : Nat) (e k : Int) : Nat := m * 2 ^ (e - k).toNat
/-- m × 2^e with its sign, in units of 2^k. -/
def signedAt (neg : Bool) (m : Nat) (e k : Int) : Int := if neg then -(unitsAt m e k : Int) else (unitsAt m e k : Int)
/-- x < y for values that are no NaN; −0 equals +0. -/
def Val.lt : Val → Val → Bool
  | .nan .., _ => false
  | _, .nan .. => false
  | .inf true, y => y != .inf true
  | .inf false, _ => false
  | _, .inf n => !n
  | .fin a m e, .fin b n f => decide (signedAt a m e (min e f) < signedAt b n f (min e f))
/-- x = y for values that are no NaN; −0 equals +0. -/
def Val.same (x y : Val) : Bool := !x.isNan && !y.isNan && !x.lt y && !y.lt x
/-- floor(log2 |x|) of a finite nonzero value. -/
def Val.log2 : Val → Int
  | .fin _ m e => (Nat.log2 m : Int) + e
  | _ => 0

/-! ### Rounding -/

/-- m / 2^sh rounded to an integer, and whether it was inexact. An rne tie goes to the even quotient, which for a format without
mantissa bits (M = 0) is the larger magnitude (notes/assumptions/65). -/
def roundShift (r : Rm) (neg : Bool) (m sh : Nat) : Nat × Bool :=
  let q := m / 2 ^ sh
  let rem := m % 2 ^ sh
  if rem = 0 then (q, false)
  else
    let up : Bool := match r with
      | .rtz => false
      | .rdn => neg
      | .rup => !neg
      | .rna => decide (2 ^ sh ≤ 2 * rem)
      | .rne => decide (2 ^ sh < 2 * rem) || (decide (2 ^ sh = 2 * rem) && q % 2 == 1)
    (if up then q + 1 else q, true)
/-- m × 2^e rounded to a multiple of 2^k: the multiple, and whether it was inexact. -/
def roundAt (r : Rm) (neg : Bool) (m : Nat) (e k : Int) : Nat × Bool :=
  if k ≤ e then (unitsAt m e k, false) else roundShift r neg m (k - e).toNat

/-! ### Formats -/

/-- A narrow format (R26, R31). -/
structure Fmt where
  e : Nat
  m : Nat
  s : Bool
  bias : Int
  spec : Nat
  sub : Bool
  ovf : Nat := 0
  deriving DecidableEq, Repr

/-- A format slot: narrow, binary with p significand bits and eb exponent bits, integer of w bits, or raw (R31). -/
inductive Slot where
  | narrow (f : Fmt)
  | bin (p eb : Nat)
  | int (w : Nat) (sg : Bool)
  | raw
  deriving DecidableEq, Repr

/-- The format that a descriptor word defines (R26). -/
def Fmt.ofWord (d : Nat) : Fmt :=
  { e := bits d 2 0, m := bits d 5 3, s := bit d 6, bias := sext (bits d 14 7) 8, spec := bits d 16 15, sub := bit d 17,
    ovf := bits d 19 18 }
/-- Width of a code. -/
def Fmt.w (f : Fmt) : Nat := (if f.s then 1 else 0) + f.e + f.m
/-- Is a descriptor word valid (R27)? -/
def descValid (d : Nat) : Bool :=
  let f := Fmt.ofWord d
  d / 1048576 == 0 && f.ovf != 3 && decide (2 ≤ f.w) && decide (f.w ≤ 8) &&
  (f.e != 0 || (f.spec == 0 && !f.sub && f.ovf == 0)) && (f.spec != 1 || (decide (2 ≤ f.e) && decide (1 ≤ f.m))) &&
  (f.spec != 3 || f.s)
/-- The fixed slots 16 to 22 (R31). -/
def fixedFmt (k : Nat) : Fmt :=
  match k with
  | 16 => { e := 0, m := 7, s := true, bias := 0, spec := 0, sub := false }
  | 17 => { e := 0, m := 8, s := false, bias := 0, spec := 0, sub := false }
  | 18 => { e := 4, m := 3, s := true, bias := 7, spec := 2, sub := true }
  | 19 => { e := 5, m := 2, s := true, bias := 15, spec := 1, sub := true }
  | 20 => { e := 2, m := 1, s := true, bias := 1, spec := 0, sub := true }
  | 21 => { e := 3, m := 2, s := true, bias := 3, spec := 0, sub := true }
  | _ => { e := 2, m := 3, s := true, bias := 1, spec := 0, sub := true }
/-- Slot k under the descriptors fd (R25, R31). -/
def slotOf (fd : Nat → Nat) (k : Nat) : Slot :=
  if k < 16 then .narrow (.ofWord (fd k))
  else if k < 23 then .narrow (fixedFmt k)
  else match k with
    | 24 => .bin 8 8
    | 25 => .bin 11 5
    | 26 => .bin 24 8
    | 27 => .bin 53 11
    | 28 => .int 32 true
    | 29 => .int 16 true
    | 30 => .int 32 false
    | _ => .raw
/-- Bits of a lane of a slot in a vector register (R36). -/
def laneBits (k : Nat) : Nat :=
  if k ≤ 23 then 8 else match k with
    | 24 | 25 | 29 => 16
    | 26 | 28 | 30 => 32
    | 27 => 64
    | _ => 8
/-- Lanes of a slot (R36, R294); slot 31 counts as 128 byte lanes. -/
def lanesOf (k : Nat) : Nat := 1024 / laneBits k

/-- All exponent bits of a narrow format set. -/
def Fmt.top (f : Fmt) : Nat := 2 ^ f.e - 1
/-- The exponent of the smallest normal value. -/
def Fmt.emin (f : Fmt) : Int := 1 - f.bias
/-- Magnitude code of the largest finite value (R26). -/
def Fmt.maxMag (f : Fmt) : Nat :=
  if f.spec = 1 then f.top * 2 ^ f.m - 1 else if f.spec = 2 then 2 ^ (f.e + f.m) - 2 else 2 ^ (f.e + f.m) - 1
/-- The value of a magnitude code of a floating narrow format, specials apart (R29). -/
def Fmt.magVal (f : Fmt) (mag : Nat) : Nat × Int :=
  let e := mag / 2 ^ f.m
  if e = 0 then (if f.sub then mag else 0, f.emin - f.m)
  else (2 ^ f.m + mag % 2 ^ f.m, (e : Int) - f.bias - f.m)
/-- Decode a code (R29). -/
def Fmt.decode (f : Fmt) (code : Nat) : Val :=
  let c := code % 2 ^ f.w
  if f.e = 0 then
    let v : Int := if f.s then sext c f.w else (c : Int)
    .fin (decide (v < 0)) v.natAbs (-f.bias)
  else
    let s := f.s && bit c (f.w - 1)
    let mag := c % 2 ^ (f.e + f.m)
    let e := mag / 2 ^ f.m
    let m := mag % 2 ^ f.m
    if f.spec = 1 ∧ e = f.top then (if m = 0 then .inf s else .qnan)
    else if f.spec = 2 ∧ e = f.top ∧ m = 2 ^ f.m - 1 then .qnan
    else if f.spec = 3 ∧ s ∧ mag = 0 then .qnan
    else if e = 0 ∧ !f.sub then .fin (s && f.spec != 3) 0 0
    else .fin s (f.magVal mag).1 (f.magVal mag).2

/-- Decode a code of a binary format: sign, exponent, fraction (R31). -/
def decodeBin (p eb code : Nat) : Val :=
  let s := bit code (p + eb - 1)
  let e := code / 2 ^ (p - 1) % 2 ^ eb
  let m := code % 2 ^ (p - 1)
  let bias : Int := 2 ^ (eb - 1) - 1
  if e = 2 ^ eb - 1 then
    (if m = 0 then .inf s else .nan (!bit m (p - 2)) s (m % 2 ^ (p - 2) * 2 ^ (53 - p)))
  else if e = 0 then .fin s m (2 - bias - p)
  else .fin s (2 ^ (p - 1) + m) ((e : Int) - bias - p + 1)
/-- The value of a lane of a slot (R29, R31, R315). -/
def Slot.decode (k : Slot) (code : Nat) : Val :=
  match k with
  | .narrow f => f.decode code
  | .bin p eb => decodeBin p eb code
  | .int w sg => .ofInt (if sg then sext (code % 2 ^ w) w else ((code % 2 ^ w : Nat) : Int))
  | .raw => .ofInt (code : Int)

/-- The sign bit of a code. -/
def signBit (neg : Bool) (pos : Nat) : Nat := if neg then 2 ^ pos else 0
/-- Code of a NaN in a binary format: quiet, with the high payload bits it can hold (R48). -/
def nanBin (p eb : Nat) (neg : Bool) (pay : Nat) : Nat :=
  signBit neg (p + eb - 1) + (2 ^ eb - 1) * 2 ^ (p - 1) + 2 ^ (p - 2) + pay / 2 ^ (53 - p) % 2 ^ (p - 2)
/-- Round an exact value to a binary format, with its flags (R34, R45). -/
def roundBin (p eb : Nat) (r : Rm) (v : Val) : Nat × Nat :=
  let top := (2 ^ eb - 1) * 2 ^ (p - 1)
  match v with
  | .nan sg n pay => (nanBin p eb n pay, if sg then 16 else 0)
  | .inf n => (signBit n (p + eb - 1) + top, 0)
  | .fin n m e =>
    if m = 0 then (signBit n (p + eb - 1), 0)
    else
      let bias : Int := 2 ^ (eb - 1) - 1
      let qmin : Int := 2 - bias - p
      let k0 : Int := (Nat.log2 m : Int) + e - p + 1
      let k := max k0 qmin
      let (q, nx) := roundAt r n m e k
      let code := (k - qmin).toNat * 2 ^ (p - 1) + q
      let s := signBit n (p + eb - 1)
      if code ≥ top then
        let infinite : Bool := match r with
          | .rne => true | .rna => true | .rtz => false | .rdn => n | .rup => !n
        (s + if infinite then top else top - 1, 5)
      else
        let q0 := (roundAt r n m e k0).1
        let tiny := decide (k0 < qmin) && decide (unitsAt q0 k0 (min k0 qmin) < unitsAt (2 ^ (p - 1)) qmin (min k0 qmin))
        (s + code, (if nx then 1 else 0) + if nx && tiny then 2 else 0)

/-- The NaN codes of a narrow format, of which a conversion writes one; none when it has no NaN (R26). -/
def Fmt.nanCode (f : Fmt) (n : Bool) (pay : Nat) : Option Nat :=
  let par := f.e + 8 * f.m + 64 * f.spec + (if f.s then 256 else 0)
  let key := pay * 2 + if n then 1 else 0
  match f.spec with
  | 0 => none
  | 1 =>
    let j := Config.nanPick par key
    some (f.top * 2 ^ f.m + 1 + j % (2 ^ f.m - 1) + signBit (f.s && bit (j / (2 ^ f.m - 1)) 0) (f.w - 1))
  | 2 => some (2 ^ (f.e + f.m) - 1 + signBit (f.s && bit (Config.nanPick par key) 0) (f.w - 1))
  | _ => some (2 ^ (f.w - 1))
/-- The result of an overflow (R26, R33 step 4). -/
def Fmt.overflow (f : Fmt) (n : Bool) : Nat :=
  if f.ovf = 1 ∧ f.spec = 1 then f.top * 2 ^ f.m + signBit (f.s && n) (f.w - 1)
  else if f.ovf = 2 then (f.nanCode n 0).getD (f.maxMag + signBit (f.s && n) (f.w - 1))
  else f.maxMag + signBit (f.s && n) (f.w - 1)
/-- A magnitude with its sign as a code, R33 step 5: no sign, no negative zero. -/
def Fmt.signed (f : Fmt) (n : Bool) (mag fl : Nat) : Nat × Nat :=
  if !n then (mag, fl)
  else if !f.s then (0, if mag = 0 then fl else fl ||| 1)
  else if mag = 0 ∧ f.spec = 3 then (0, fl)
  else (mag + 2 ^ (f.w - 1), fl)
/-- Round a finite value onto a fixed-point format (R33). The magnitude of −2^M exceeds the largest finite value 2^M − 1 (R30), so
step 4 saturates it to the smallest value, itself, with OF and NX (notes/assumptions/14). -/
def Fmt.roundFixed (f : Fmt) (r : Rm) (n : Bool) (m : Nat) (e : Int) : Nat × Nat :=
  let (q, nx) := roundAt r n m e (-f.bias)
  let fl := if nx then 1 else 0
  if !n then (if q > 2 ^ f.m - 1 then (2 ^ f.m - 1, 5) else (q, fl))
  else if !f.s then (if q > 2 ^ f.m - 1 then (0, 5) else (0, if q = 0 then fl else 1))
  else if q > 2 ^ f.m - 1 then (2 ^ f.m, 5)
  else ((2 ^ f.w - q) % 2 ^ f.w, fl)
/-- The result of an overflow with the OF and NX of step 4 and, after it, step 5 (R33): a negative result that is no NaN becomes +0
in a format without a sign. -/
def Fmt.overflowed (f : Fmt) (n : Bool) : Nat × Nat :=
  if n && !f.s && !(f.ovf == 2 && f.spec != 0) then (0, 5) else (f.overflow n, 5)
/-- round(x, mode, k) for a narrow slot (R33). A NaN without a code in the target sets NV, a narrow NaN too (step 1, which R29 does
not name: notes/assumptions/65). -/
def Fmt.round (f : Fmt) (r : Rm) (v : Val) : Nat × Nat :=
  match v with
  | .nan sg n pay => match f.nanCode n pay with
    | some c => (c, if sg then 16 else 0)
    | none => (0, 16)
  | .inf n =>
    if f.spec = 1 then (if n && !f.s then (0, 1) else (f.top * 2 ^ f.m + signBit n (f.w - 1), 0))
    else if f.e = 0 then (if n then (if f.s then 2 ^ f.m else 0, 5) else (2 ^ f.m - 1, 5))
    else f.overflowed n
  | .fin n m e =>
    if m = 0 then (if f.e = 0 then (0, 0) else f.signed n 0 0)
    else if f.e = 0 then f.roundFixed r n m e
    else
      let qmin : Int := f.emin - f.m
      let small := decide ((Nat.log2 m : Int) + e < f.emin)
      let (mag, nx) : Nat × Bool :=
        if small && !f.sub then
          let (q, _) := roundAt r n m e f.emin
          (if q = 0 then 0 else 2 ^ f.m, true)
        else
          let k := max ((Nat.log2 m : Int) + e - f.m) qmin
          let (q, nx) := roundAt r n m e k
          ((k - qmin).toNat * 2 ^ f.m + q, nx)
      if mag > f.maxMag then
        f.overflowed n
      else
        let nx := nx || (n && !f.s && mag != 0)
        f.signed n mag ((if nx then 1 else 0) + if small && nx then 2 else 0)
/-- Round to an integer of w bits (R34). -/
def roundInt (w : Nat) (sg : Bool) (r : Rm) (v : Val) : Nat × Nat :=
  let hi : Nat := if sg then 2 ^ (w - 1) - 1 else 2 ^ w - 1
  let lo : Nat := if sg then 2 ^ (w - 1) else 0
  let negative (q : Nat) : Nat := (2 ^ w - q) % 2 ^ w
  match v with
  | .nan .. => (0, 16)
  | .inf n => (if n then negative lo else hi, 16)
  | .fin n m e =>
    let (q, nx) := roundAt r n m e 0
    if n then (if q > lo then (negative lo, 16) else (negative q, if nx then 1 else 0))
    else if q > hi then (hi, 16) else (q, if nx then 1 else 0)
/-- round(x, mode, slot) of R33 and R34: the code and the flags. -/
def Slot.round (k : Slot) (r : Rm) (v : Val) : Nat × Nat :=
  match k with
  | .narrow f => f.round r v
  | .bin p eb => roundBin p eb r v
  | .int w sg => roundInt w sg r v
  | .raw => (0, 0)

/-- emax of a narrow slot (R30). -/
def Fmt.emax (f : Fmt) : Int :=
  if f.e = 0 then (f.m : Int) - 1 - f.bias
  else
    let (m, e) := f.magVal f.maxMag
    if m = 0 then (Config.emaxNone (f.e + 8 * f.m) : Int) else (Nat.log2 m : Int) + e

/-! ### Arithmetic (R45, R48) -/

/-- The first NaN among operands made quiet, with NV for a signalling one (R48). -/
def nanOf (vs : List Val) : Option (Val × Nat) :=
  match vs.find? (·.isNan) with
  | some (.nan _ n p) => some (.nan false n p, if vs.any (·.isSig) then 16 else 0)
  | _ => none
/-- The invalid operation (R48). -/
def invalid : Val × Nat := (.qnan, 16)
/-- An exact sum of values that are no NaN; an exact zero sum is −0 only in rdn or when both terms are −0. -/
def sumExact (r : Rm) (x y : Val) : Val × Nat :=
  match x, y with
  | .inf a, .inf b => if a = b then (.inf a, 0) else invalid
  | .inf a, _ => (.inf a, 0)
  | _, .inf b => (.inf b, 0)
  | .fin a m e, .fin b n f =>
    let k := min e f
    let t := signedAt a m e k + signedAt b n f k
    if t = 0 then (.fin (if m = 0 ∧ n = 0 ∧ a = b then a else decide (r = .rdn)) 0 0, 0)
    else (.fin (decide (t < 0)) t.natAbs k, 0)
  | v, _ => (v, 0)
/-- An exact product of values that are no NaN. -/
def mulExact (x y : Val) : Val × Nat :=
  match x, y with
  | .inf a, y => if y.isZero then invalid else (.inf (a != y.neg), 0)
  | x, .inf b => if x.isZero then invalid else (.inf (x.neg != b), 0)
  | .fin a m e, .fin b n f => (.fin (a != b) (m * n) (e + f), 0)
  | v, _ => (v, 0)
/-- a + b before rounding, with NV (R45, R48). -/
def addVal (r : Rm) (a b : Val) : Val × Nat := (nanOf [a, b]).getD (sumExact r a b)
/-- a × b before rounding. -/
def mulVal (a b : Val) : Val × Nat := (nanOf [a, b]).getD (mulExact a b)
/-- a × b + c before its one rounding. -/
def fmaVal (r : Rm) (a b c : Val) : Val × Nat :=
  (nanOf [a, b, c]).getD (
    let (p, fl) := mulExact a b
    if fl ≠ 0 then invalid else sumExact r p c)
/-- m/n × 2^e as a significand of at least 70 bits that carries a last bit for the rest: rounding takes it as it takes the
quotient. -/
def quotient (neg : Bool) (m : Nat) (e : Int) (n : Nat) (f : Int) : Val :=
  let sh := 72 + Nat.log2 n
  let q := m * 2 ^ sh / n
  .fin neg (2 * q + if m * 2 ^ sh % n = 0 then 0 else 1) (e - f - sh - 1)
/-- a / b before rounding (R45): NV for 0/0 and Inf/Inf, DZ for a finite nonzero a over 0. -/
def divVal (a b : Val) : Val × Nat :=
  (nanOf [a, b]).getD (match a, b with
    | .inf _, .inf _ => invalid
    | .inf s, y => (.inf (s != y.neg), 0)
    | .fin s _ _, .inf t => (.fin (s != t) 0 0, 0)
    | .fin s m e, .fin t n f =>
      if n = 0 then (if m = 0 then invalid else (.inf (s != t), 8))
      else if m = 0 then (.fin (s != t) 0 0, 0)
      else (quotient (s != t) m e n f, 0)
    | v, _ => (v, 0))
/-- Largest r with r × r ≤ n, by bits from 2^k down. -/
def isqrtFrom (n : Nat) : Nat → Nat → Nat
  | 0, r => if (r + 1) * (r + 1) ≤ n then r + 1 else r
  | k + 1, r => isqrtFrom n k (if (r + 2 ^ (k + 1)) * (r + 2 ^ (k + 1)) ≤ n then r + 2 ^ (k + 1) else r)
/-- The square root of n, rounded down. -/
def sqrtNat (n : Nat) : Nat := isqrtFrom n (Nat.log2 n / 2 + 1) 0
/-- √(m × 2^e), with a last bit for the rest. -/
def rootOf (m : Nat) (e : Int) : Val :=
  let odd : Nat := (e % 2).toNat
  let n := m * 2 ^ odd * 2 ^ 160
  let q := sqrtNat n
  .fin false (2 * q + if q * q = n then 0 else 1) ((e - odd) / 2 - 81)
/-- √a before rounding. -/
def sqrtVal (a : Val) : Val × Nat :=
  (nanOf [a]).getD (match a with
    | .inf true => invalid
    | .fin true m e => if m = 0 then (.fin true 0 e, 0) else invalid
    | .fin false m e => if m = 0 then (.fin false 0 e, 0) else (rootOf m e, 0)
    | v => (v, 0))
/-- Round an operation's result and join the flags. -/
def Slot.out (k : Slot) (r : Rm) (x : Val × Nat) : Nat × Nat :=
  let (c, fl) := k.round r x.1
  (c, fl ||| x.2)

/-- FP32 (slot 26). -/
def fp32 : Slot := .bin 24 8
/-- FP64 (slot 27). -/
def fp64 : Slot := .bin 53 11

/-- −0 below +0 (R49): x ≤ y of numbers. -/
def Val.minFirst (x y : Val) : Bool := x.lt y || (x.same y && (x.neg || !y.neg))
/-- VMIN and VMAX (R49). -/
def minmax (big : Bool) (a b : Val) : Val × Nat :=
  if a.isSig || b.isSig then invalid
  else match a.isNan, b.isNan with
    | true, true => (.qnan, 0)
    | true, false => (b, 0)
    | false, true => (a, 0)
    | false, false => ((if a.minFirst b == big then b else a), 0)
/-- VMINP and VMAXP (R49). -/
def minmaxP (big : Bool) (a b : Val) : Val × Nat := (nanOf [a, b]).getD ((if a.minFirst b == big then b else a), 0)

/-! ### Lanes -/

/-- Lane k of w bits. -/
def lane (v w k : Nat) : Nat := v / 2 ^ (w * k) % 2 ^ w
/-- Lanes of w bits put together, the first lowest. -/
def ofLanes (w : Nat) : List Nat → Nat
  | [] => 0
  | x :: xs => x % 2 ^ w + 2 ^ w * ofLanes w xs
/-- The n lanes of w bits. -/
def lanes (v w : Nat) : Nat → List Nat
  | 0 => []
  | n + 1 => v % 2 ^ w :: lanes (v / 2 ^ w) w n

/-! ### Block scales (R41 to R43) -/

/-- The block scale of values for a format, as a code (R41). -/
def scaleCode (f : Fmt) (xs : List Val) : Nat :=
  let finite (v : Val) : Bool := match v with
    | .fin _ m _ => m != 0
    | _ => false
  let big := (xs.filter finite).foldl (fun b v => match b with
    | none => some v
    | some b => some (if b.abs.lt v.abs then v else b)) none
  match big with
  | none => 0
  | some b => (max (-127) (min 127 (b.log2 - f.emax)) + 127).toNat
/-- Quantise one value under a scale code (R42): always rne. -/
def quantise (f : Fmt) (code : Nat) (v : Val) : Nat × Nat := f.round .rne (v.scale (127 - (code : Int)))
/-- value(q) × 2^scale (R43); scale code 255 makes a NaN. -/
def dequantise (f : Fmt) (code q : Nat) : Val := if code = 255 then .qnan else (f.decode q).scale ((code : Int) - 127)

end Sys2Proof.Machine
end

