-- ==== Sys2Proof/Machine/Special.lean ====
section
/-! DEFINITION. Exponentials, logarithms and their kin as enclosures, and the values that the bounds of the manual admit
(12_isa_vector R321, R322; 03_intervals R63; 05_anchored_tasks R136). Where a bound admits several values, a free value
of Config picks one among all of them. -/

namespace Sys2Proof.Machine

/-- lo × 2^e ≤ y ≤ (lo + w) × 2^e. -/
structure Encl where
  lo : Int
  w : Nat
  e : Int
  deriving DecidableEq, Repr

/-- ±m × 2^e in units of 2^k, rounded down. -/
def floorAt (neg : Bool) (m : Nat) (e k : Int) : Int :=
  if k ≤ e then signedAt neg m e k else (if neg then -(m : Int) else (m : Int)) / 2 ^ (k - e).toNat

/-- ln 2 in units of 2^−192. -/
def ln2Fix : Nat := 4350955369971217654477563090224794165364344896676135745069
/-- log2 e in units of 2^−192. -/
def log2eFix : Nat := 9055943544797870567083544809312461607371518589544137143473
/-- 2^192. -/
def oneFix : Nat := 6277101735386680763835789423207666416102355444464034512896

/-- n terms of the exponential series of z, from term t on, in units of 2^−192. -/
def expTerms (z : Nat) : Nat → Nat → Nat → Nat
  | 0, _, _ => 0
  | n + 1, k, t => t + expTerms z n (k + 1) (t * z / oneFix / k)
/-- 2^f for a fraction f, in units of 2^−192; at most 1024 units low. -/
def exp2Frac (f : Nat) : Nat := expTerms (f * ln2Fix / oneFix) 56 1 oneFix
/-- A finite value in units of 2^−192, beyond ±2^n held there. -/
def toFix (neg : Bool) (m : Nat) (e : Int) (n : Nat) : Int :=
  if m ≠ 0 ∧ (Nat.log2 m : Int) + e ≥ n then (if neg then -(2 ^ (192 + n) : Int) else (2 ^ (192 + n) : Int))
  else floorAt neg m e (-192)

/-- 2^t for t in units of 2^−192: below the next power of two. -/
def exp2Fix (t : Int) : Encl :=
  let lo := exp2Frac (t % oneFix).toNat
  ⟨lo, min 2048 (2 * oneFix - lo), t / oneFix - 192⟩

/-- n bits of log2 x after the point, for x from 1 to 2 in units of 2^−400. -/
def log2Bits : Nat → Nat → Nat
  | 0, _ => 0
  | n + 1, x => let y := x * x / 2 ^ 400
    if y ≥ 2 ^ 401 then 2 ^ n + log2Bits n (y / 2) else log2Bits n y
/-- log2 (m × 2^e). -/
def log2Encl (m : Nat) (e : Int) : Encl :=
  let k := Nat.log2 m
  ⟨((k : Int) + e) * 2 ^ 200 + log2Bits 200 (m * 2 ^ 400 / 2 ^ k), 2, -200⟩

/-- 1 / (m × 2^e). -/
def rcpEncl (m : Nat) (e : Int) : Encl :=
  let s := 200 + Nat.log2 m
  ⟨(2 ^ s / m : Nat), 1, -e - s⟩
/-- 1 / √(m × 2^e). -/
def rsqrtEncl (m : Nat) (e : Int) : Encl :=
  let odd : Nat := (e % 2).toNat
  let n := m * 2 ^ odd
  let h := 200 + Nat.log2 n
  ⟨sqrtNat (2 ^ (2 * h) / n), 2, -(e - odd) / 2 - h⟩

/-- e^−a for a = m × 2^e, as whole and fraction of its power of two: between lo and lo + w times 2^e. -/
def expNeg (m : Nat) (e : Int) (twice : Bool) : Encl :=
  let a := (toFix false m e 12).toNat * (if twice then 2 else 1)
  let y := exp2Fix (-((a * log2eFix / oneFix : Nat) : Int))
  ⟨y.lo - 65536, 262144, y.e⟩
/-- An enclosure of a positive value in units of 2^−192: lower and upper end. -/
def Encl.fix (y : Encl) : Nat × Nat :=
  ((floorAt false y.lo.toNat y.e (-192)).toNat, (floorAt false (y.lo.toNat + y.w) y.e (-192)).toNat + 1)

/-- tanh of m × 2^e. -/
def tanhEncl (m : Nat) (e : Int) : Encl :=
  if (Nat.log2 m : Int) + e < -20 then
    let k := (Nat.log2 m : Int) + e - 200
    let a := floorAt false (3 * m) e k
    let b := floorAt false (m * m * m) (3 * e) k
    let c := floorAt false (2 * m * m * m * m * m) (5 * e) k
    ⟨(a - b) / 3 - 2, (c / 15).toNat + 5, k⟩
  else
    let (l, h) := (expNeg m e true).fix
    let lo := (oneFix - h) * oneFix / (oneFix + h)
    let hi := (oneFix - l) * oneFix / (oneFix + l) + 1
    ⟨lo, hi - lo, -192⟩
/-- 1 / (1 + e^−x) of x = ±m × 2^e. -/
def sigmEncl (neg : Bool) (m : Nat) (e : Int) : Encl :=
  let y := expNeg m e false
  let (l, h) := y.fix
  if neg then
    let lo := y.lo.toNat * oneFix / (oneFix + h)
    let hi := (y.lo.toNat + y.w) * oneFix / (oneFix + l) + 1
    ⟨lo, hi - lo, y.e⟩
  else
    let lo := oneFix * oneFix / (oneFix + h)
    let hi := oneFix * oneFix / (oneFix + l) + 1
    ⟨lo, hi - lo, -192⟩

/-- The magnitude that a magnitude code of a binary format stands for, the exponent range going on. -/
def codeMag (p eb j : Nat) : Nat × Int :=
  let qmin : Int := 3 - 2 ^ (eb - 1) - p
  if j < 2 ^ (p - 1) then (j, qmin)
  else (2 ^ (p - 1) + j % 2 ^ (p - 1), qmin + ((j / 2 ^ (p - 1) : Nat) : Int) - 1)

/-- Is the magnitude v within b ulp of some value of the enclosure? -/
def Encl.near (y : Encl) (v : Nat × Int) (b : Nat) (k : Int) : Bool :=
  let u := min (min v.2 y.e) k
  decide (unitsAt y.lo.toNat y.e u ≤ unitsAt v.1 v.2 u + b * unitsAt 1 k u) &&
  decide (unitsAt v.1 v.2 u ≤ unitsAt (y.lo.toNat + y.w) y.e u + b * unitsAt 1 k u)

/-- A positive result within b ulp of its exact value (R321): the free pick when the bound admits it, else the nearest.
NX is set, OF with an overflow, UF with a tiny result. -/
def boundedMag (p eb : Nat) (y : Encl) (b pick : Nat) : Nat × Nat :=
  let top := (2 ^ eb - 1) * 2 ^ (p - 1)
  let bias : Int := 2 ^ (eb - 1) - 1
  let l := (Nat.log2 y.lo.toNat : Int) + y.e
  if l > bias then (top, 5)
  else
    let k := max (l - p + 1) (2 - bias - p)
    let j := pick % (top + 1)
    let c := if y.near (codeMag p eb j) b k then j else (roundBin p eb .rne (.fin false y.lo.toNat y.e)).1
    (c, 1 + (if c ≥ top then 4 else 0) + if c < 2 ^ (p - 1) then 2 else 0)
/-- The same for an enclosure of either sign. -/
def bounded (p eb : Nat) (y : Encl) (b pick : Nat) : Nat × Nat :=
  if y.lo < 0 then
    let (c, fl) := boundedMag p eb ⟨-(y.lo + y.w), y.w, y.e⟩ b pick
    (c + 2 ^ (p + eb - 1), fl)
  else boundedMag p eb y b pick
/-- A result with the sign of its operand. -/
def withSign (p eb : Nat) (neg : Bool) (r : Nat × Nat) : Nat × Nat := (r.1 + signBit neg (p + eb - 1), r.2)

/-- The exponent of a power of two. -/
def powerOf (m : Nat) (e : Int) : Option Int := if m = 2 ^ Nat.log2 m then some ((Nat.log2 m : Int) + e) else none
/-- The integer that a finite value is, when it is one of at most 16 bits. -/
def smallInt (neg : Bool) (m : Nat) (e : Int) : Option Int :=
  if m = 0 then some 0
  else if (Nat.log2 m : Int) + e ≥ 16 then none
  else if 0 ≤ e then some (signedAt neg m e 0)
  else if m % 2 ^ (-e).toNat = 0 then some (if neg then -((m / 2 ^ (-e).toNat : Nat) : Int) else ((m / 2 ^ (-e).toNat : Nat) : Int))
  else none
/-- 2^n when the format holds it. -/
def exactPow (p eb : Nat) (n : Int) : Option Nat :=
  let (c, fl) := roundBin p eb .rne (.fin false 1 n)
  if fl = 0 then some c else none

/-- 2^(s × a − b) (R322). -/
def sfExp2 (p eb : Nat) (a b s : Val) (pick : Nat) : Nat × Nat :=
  match nanOf [a, b, s] with
  | some (v, fl) => ((roundBin p eb .rne v).1, fl)
  | none =>
    let (q, f1) := mulExact s a
    let (t, f2) := if f1 = 0 then sumExact .rne q b.flip else (q, f1)
    if f2 ≠ 0 then ((roundBin p eb .rne .qnan).1, 16)
    else match t with
      | .inf n => if n then (0, 0) else ((roundBin p eb .rne t).1, 0)
      | .fin n m e =>
        match (smallInt n m e).bind (exactPow p eb) with
        | some c => (c, 0)
        | none => bounded p eb (exp2Fix (toFix n m e 14)) 1 pick
      | _ => (0, 0)
/-- log2, reciprocal, reciprocal square root, tanh and the logistic function (R321), by function code. -/
def sfUnary (fn p eb : Nat) (a : Val) (pick : Nat) : Nat × Nat :=
  match nanOf [a] with
  | some (v, fl) => ((roundBin p eb .rne v).1, fl)
  | none =>
    let code (v : Val) (fl : Nat) : Nat × Nat := ((roundBin p eb .rne v).1, fl)
    match fn, a with
    | 1, .inf n => if n then code .qnan 16 else code (.inf false) 0
    | 1, .fin n m e =>
      if m = 0 then code (.inf true) 8
      else if n then code .qnan 16
      else match powerOf m e with
        | some k => code (.ofInt k) 0
        | none => bounded p eb (log2Encl m e) 1 pick
    | 2, .inf n => code (.fin n 0 0) 0
    | 2, .fin n m e =>
      if m = 0 then code (.inf n) 8
      else match (powerOf m e).bind fun k => exactPow p eb (-k) with
        | some c => withSign p eb n (c, 0)
        | none => withSign p eb n (bounded p eb (rcpEncl m e) 1 pick)
    | 3, .inf n => if n then code .qnan 16 else (0, 0)
    | 3, .fin n m e =>
      if m = 0 then code (.inf n) 8
      else if n then code .qnan 16
      else match powerOf m e with
        | some k => if k % 2 = 0 then code (.fin false 1 (-k / 2)) 0 else bounded p eb (rsqrtEncl m e) 1 pick
        | none => bounded p eb (rsqrtEncl m e) 1 pick
    | 6, .inf n => code (.fin n 1 0) 0
    | 6, .fin n m e => if m = 0 then code a 0 else withSign p eb n (bounded p eb (tanhEncl m e) 2 pick)
    | _, .inf n => if n then (0, 0) else code (.fin false 1 0) 0
    | _, .fin n m e => if m = 0 then code (.fin false 1 (-1)) 0 else bounded p eb (sigmEncl n m e) 2 pick
    | _, _ => (0, 0)

/-- One lane of a special function of slot 24 to 27, by its function code (R321): BF16 and FP16 are computed as FP32 and
then rounded to their format in the mode. `s` is the scale of VEXP2; the free pick is named by the operands. -/
def sfLane (fn slot : Nat) (r : Rm) (ca cb cs : Nat) : Nat × Nat :=
  let own : Slot := match slot with
    | 24 => .bin 8 8
    | 25 => .bin 11 5
    | 26 => fp32
    | _ => fp64
  let (p, eb) := if slot = 27 then (53, 11) else (24, 8)
  let a := own.decode ca
  let b := own.decode cb
  let pick := Config.sfuPick (fn * 4 + slot % 4) (ca + cb * 2 ^ 64 + cs * 2 ^ 128)
  let (c, fl) := match fn with
    | 0 => sfExp2 p eb a b (decodeBin p eb cs) pick
    | 4 => (Slot.bin p eb).out r (sqrtVal a)
    | 5 => (Slot.bin p eb).out r (divVal a b)
    | _ => sfUnary fn p eb a pick
  if slot = 26 ∨ slot = 27 then (c, fl)
  else
    let (c', fl') := own.round r (decodeBin p eb c)
    (c', fl ||| fl')

end Sys2Proof.Machine
end

