-- ==== Sys2Proof/Machine/Vector.lean ====
section
/-! DEFINITION. Vector arithmetic, compares, rearranging, conversion, special functions, reductions and lane moves
(12_isa_vector R293 to R326): tags, predicates, flags. -/

namespace Sys2Proof.Machine

/-! ### Tags (R294, R295, R417) -/

/-- Class F. -/
def isF (k : Nat) : Bool := decide (24 ≤ k) && decide (k ≤ 27)
/-- Class I. -/
def isI (k : Nat) : Bool := k == 16 || k == 17 || k == 28 || k == 29 || k == 30
/-- Class N. -/
def isN (k : Nat) : Bool := decide (k ≤ 22)
/-- Every slot. -/
def isAny (_ : Nat) : Bool := true
/-- The slots of class I that are signed (R308, R326). -/
def slotSigned (k : Nat) : Bool := k == 16 || k == 28 || k == 29
/-- The tag of a typed value of a slot (R295). -/
def tagOf (slot : Nat) : Nat := 16384 + slot

/-- What an operand accepts. -/
structure Accept where
  ok : Nat → Bool
  /-- SC = 1 is accepted. -/
  sc : Bool := false
  /-- V = 0 is accepted. -/
  v0 : Bool := false

/-- The tags that a word's operands are known to have. -/
structure Tags where
  a : Option Nat := none
  b : Option Nat := none
  c : Option Nat := none
  d : Option Nat := none
  deriving DecidableEq, Repr

/-- Are tags of two sources of unequal SLOT or IW (R417)? -/
def tagsDiffer (t : Nat) (other : Option Nat) : Bool := other.any fun f => f % 32 != t % 32 || bit f 15 != bit t 15
/-- TAG_MISMATCH of one operand, the lowest DETAIL that it meets (R417); `same` is the tag of the first source, or for the first source
`mates` are those of the others. -/
def tagCheck (field reg : Nat) (t : Option Nat) (k : Accept) (same : Option Nat := none) (mates : List (Option Nat) := []) : Chk Unit :=
  match t with
  | none => .ok ()
  | some t =>
    let slot := t % 32
    let bad (n : Nat) : Chk Unit := trap 6 n (t + reg * 65536) field
    if !k.v0 && !bit t 14 then bad 1
    else if !k.ok slot then bad 2
    else if !k.sc && bit t 5 then bad 3
    else if tagsDiffer t same then bad 4
    else if bit t 15 || (bit t 5 && decide (slot > 23)) then bad (if mates.any (tagsDiffer t) then 4 else 5)
    else .ok ()

/-- FORMAT_INVALID: a slot used as a value format whose descriptor fails R27 (R417). -/
def State.fmtCheck (s : State) (u : CoreId) (slot : Nat) : Chk Unit :=
  if slot < 16 ∧ !descValid (s.fdOf u slot) then trap 7 0 (s.fdOf u slot + slot * 4294967296) else .ok ()

/-- The tag that a source will have, as far as it is known before it is taken: a register's, a waiting link value's, or the
slot of a bound vector stream. -/
def State.peekTag (s : State) (c : CtxId) (o : Option Opr) (code : Nat) : Option Nat :=
  match o with
  | none => none
  | some o =>
    if o.role = .write ∨ (o.cls ≠ .v ∧ o.cls ≠ .i) then none
    else if code = 0 then some (if o.cls = .v then s.vtag c o.reg else s.itag c o.reg)
    else if code < 8 then (match s.peekLink c code with
      | .ok v => some v.tag.toNat
      | .error _ => none)
    else
      let w := s.streamWord c (code - 8)
      if bit w 15 && bits w 10 8 == 7 then some (tagOf (bits w 4 0)) else none
/-- The tags of a word's sources before they are taken. -/
def State.peekTags (s : State) (g : Sig) : Tags :=
  let c := s.cur
  let m := match (s.ctx c).chainMod with
    | some p => Mod.ofPayload p
    | none => {}
  { a := s.peekTag c g.a m.srca, b := s.peekTag c g.b m.srcb, c := s.peekTag c g.c 0, d := s.peekTag c g.d m.dst }

/-- A word whose operands carry tags: the tag causes come before those of links, streams and memory (R418). -/
def vword (g : Sig) (s : State) (rule : Tags → State → Chk Unit) (body : Opnds → State → Chk Out) :
    Host.Outcome State Fault Refusal :=
  wordWith g s (rule (s.peekTags g) s) (fun o => rule { a := some o.ta, b := some o.tb, c := some o.tc, d := some o.td } s) body

/-- A HINT.MOD field that the target cannot take with this operand (R297, R416 DETAIL 5). -/
def hintBad (s : State) : Chk Unit := trap 4 5 (4232052736 + ((s.ctx s.cur).chainMod.getD 0)) 7
/-- The payload's fields. -/
def State.mod (s : State) : Mod := match (s.ctx s.cur).chainMod with
  | some p => Mod.ofPayload p
  | none => {}
/-- RND is taken by class F only (R297). -/
def rndCheck (s : State) (t : Option Nat) : Chk Unit :=
  match t with
  | some t => if isI (t % 32) && s.mod.rnd != 0 then hintBad s else .ok ()
  | none => .ok ()

/-! ### Lanes and flags (R296, R297, R420) -/

/-- The slot's format on a core. -/
def State.slot (s : State) (c : CtxId) (k : Nat) : Slot := slotOf (s.fdOf c.core) k
/-- The bits that the inactive lanes of a vector result keep: the register's, or none at a link or stream. -/
def State.oldV (s : State) (c : CtxId) (o : Opnds) (d n : Nat) : Chk Nat :=
  if o.pred % 2 ^ n + 1 = 2 ^ n ∨ o.m.dst ≠ 0 then .ok 0
  else do
    let (v, _) ← s.readReg c ⟨.v, .read, d⟩
    pure v
/-- n lanes of w bits with their flags: active ones by f, the others as they were. -/
def laneMap (n w act old : Nat) (f : Nat → Nat × Nat) : List (Nat × Nat) :=
  (upFrom 0 n).map fun k => if bit act k then f k else (lane old w k, 0)
/-- The union of flags. -/
def flagsOf (r : List (Nat × Nat)) : Nat := r.foldl (fun m e => m ||| e.2) 0
/-- FP_ENABLED when a flag raised is enabled: DETAIL all flags raised, `tval` the lowest lane (R420). -/
def Ctx.fpCheck (x : Ctx) (r : List (Nat × Nat)) : Chk Unit :=
  let xen := bits x.fcsr.toNat 12 8
  let fl := flagsOf r
  if fl &&& xen = 0 then .ok ()
  else .error (.trap { cause := 8, detail := fl, val := (r.findIdx? fun e => e.2 &&& xen != 0).getD 0, flags := fl })
/-- The same of a word with a vector result, behind the causes of its destination. -/
def State.fpCheck (s : State) (c : CtxId) (o : Opnds) (r : List (Nat × Nat)) : Chk Unit := do
  s.dstCheck c o true
  (s.ctx c).fpCheck r
/-- OR flags into `fcsr`. -/
def State.addFlags (s : State) (c : CtxId) (fl : Nat) : State :=
  if fl = 0 then s else s.setCtx c { s.ctx c with fcsr := (s.ctx c).fcsr ||| Word.ofN fl }
/-- Complete a word with lanes and their flags as a vector of a slot. -/
def retLanes (s : State) (c : CtxId) (o : Opnds) (d slot : Nat) (r : List (Nat × Nat)) : Chk Out := do
  s.fpCheck c o r
  let s := s.addFlags c (flagsOf r)
  retV s c o d (ofLanes (laneBits slot) (r.map (·.1))) (tagOf slot)
/-- The rounding mode of a word. -/
def State.rm (s : State) (c : CtxId) (o : Opnds) : Rm := .of (s.ctx c).fcsr.toNat o.m.rnd

/-! ### Lane arithmetic (R306 to R309) -/

/-- The integer of a lane of class I. -/
def slotInt (slot code : Nat) : Int := if slotSigned slot then sext code (laneBits slot) else (code : Int)
/-- An exact integer as a lane: wrapped, or saturated to the slot's range (R308, R309). -/
def intLane (slot : Nat) (sat : Bool) (x : Int) : Nat :=
  let w := laneBits slot
  let lo : Int := if slotSigned slot then -(2 ^ (w - 1)) else 0
  let hi : Int := if slotSigned slot then 2 ^ (w - 1) - 1 else 2 ^ w - 1
  ((if sat then max lo (min hi x) else x) % 2 ^ w).toNat
/-- With SAT, a finite result beyond the largest finite value becomes ±max finite (R309). -/
def satF (k : Slot) (sat : Bool) (r : Nat × Nat) : Nat × Nat :=
  match k with
  | .bin p eb =>
    if sat && bit r.2 2 && r.1 % 2 ^ (p + eb - 1) == (2 ^ eb - 1) * 2 ^ (p - 1) then (r.1 - 1, r.2) else r
  | _ => r

/-- A VALU function: exact value and flags in class F, exact integer in class I. -/
structure LaneOp where
  f : Rm → Val → Val → Val → Val × Nat
  i : Int → Int → Int → Int
  /-- Classes accepted. -/
  ok : Nat → Bool := fun k => isF k || isI k

/-- Fields of a VALU word. -/
def valuSig (d a : Nat) (b c : Option Nat) : Sig :=
  { d := wr .v d, a := rd .v a, b := b.elim none (rd .v ·), c := c.elim none (rd .v ·), dd := true, da := true,
    db := b.isSome, pred := true, rnd := true, sat := true, deck := false, svc := false }
/-- Every source of one class and slot; RND in class F only. -/
def valuRule (a : Nat) (b c : Option Nat) (ok : Nat → Bool) (t : Tags) (s : State) : Chk Unit := do
  rndCheck s t.a
  tagCheck 3 a t.a { ok := ok } none [t.b, t.c]
  match b with
  | some b => tagCheck 4 b t.b { ok := ok } t.a
  | none => pure ()
  match c with
  | some c => tagCheck 5 c t.c { ok := ok } t.a
  | none => pure ()

/-- A lane-by-lane word over codes: class F by code with its flags, class I by code. -/
def valuCode (d a : Nat) (b c : Option Nat) (ok : Nat → Bool) (f : Slot → Rm → Nat → Nat → Nat → Nat × Nat)
    (i : Nat → Bool → Nat → Nat → Nat → Nat) (s : State) : Host.Outcome State Fault Refusal :=
  vword (valuSig d a b c) s (valuRule a b c ok) fun o t => do
    let u := t.cur
    let slot := o.ta % 32
    let w := laneBits slot
    let n := lanesOf slot
    let old ← t.oldV u o d n
    let k := t.slot u slot
    let r := t.rm u o
    retLanes t u o d slot (laneMap n w o.pred old fun j =>
      let (x, y, z) := (lane o.a w j, lane o.b w j, lane o.c w j)
      if isF slot then satF k o.m.sat (f k r x y z) else (i slot o.m.sat x y z, 0))
/-- A lane-by-lane word over values. -/
def valu (d a : Nat) (b c : Option Nat) (op : LaneOp) (s : State) : Host.Outcome State Fault Refusal :=
  valuCode d a b c op.ok (fun k r x y z => k.out r (op.f r (k.decode x) (k.decode y) (k.decode z)))
    (fun slot sat x y z => intLane slot sat (op.i (slotInt slot x) (slotInt slot y) (slotInt slot z))) s

/-- VADD (R306). -/
def execVadd (d a b : Nat) (s : State) : Host.Outcome State Fault Refusal :=
  valu d a (some b) none { f := fun r x y _ => addVal r x y, i := fun x y _ => x + y } s
/-- VSUB (R306): the second operand's sign is turned unless it is the NaN that is returned. -/
def execVsub (d a b : Nat) (s : State) : Host.Outcome State Fault Refusal :=
  valu d a (some b) none { f := fun r x y _ => (nanOf [x, y]).getD (sumExact r x y.flip), i := fun x y _ => x - y } s
/-- VMUL (R306). -/
def execVmul (d a b : Nat) (s : State) : Host.Outcome State Fault Refusal :=
  valu d a (some b) none { f := fun _ x y _ => mulVal x y, i := fun x y _ => x * y } s
/-- VFMA (R306, R307). -/
def execVfma (d a b c : Nat) (s : State) : Host.Outcome State Fault Refusal :=
  valu d a (some b) (some c) { f := fun r x y z => fmaVal r x y z, i := fun x y z => x * y + z } s
/-- VFMS: a × b − c, rounded once (R307). -/
def execVfms (d a b c : Nat) (s : State) : Host.Outcome State Fault Refusal :=
  valu d a (some b) (some c) { f := fun r x y z => (nanOf [x, y, z]).getD (fmaVal r x y z.flip), i := fun x y z => x * y - z } s
/-- VMIN (R49, R308). -/
def execVmin (d a b : Nat) (s : State) : Host.Outcome State Fault Refusal :=
  valu d a (some b) none { f := fun _ x y _ => minmax false x y, i := fun x y _ => min x y } s
/-- VMAX (R49, R308). -/
def execVmax (d a b : Nat) (s : State) : Host.Outcome State Fault Refusal :=
  valu d a (some b) none { f := fun _ x y _ => minmax true x y, i := fun x y _ => max x y } s
/-- VMINP (R49). -/
def execVminp (d a b : Nat) (s : State) : Host.Outcome State Fault Refusal :=
  valu d a (some b) none { f := fun _ x y _ => minmaxP false x y, i := fun x _ _ => x, ok := isF } s
/-- VMAXP (R49). -/
def execVmaxp (d a b : Nat) (s : State) : Host.Outcome State Fault Refusal :=
  valu d a (some b) none { f := fun _ x y _ => minmaxP true x y, i := fun x _ _ => x, ok := isF } s
/-- The sign bit's weight in a code of class F. -/
def Slot.signW : Slot → Nat
  | .bin p eb => 2 ^ (p + eb - 1)
  | _ => 1
/-- VABS: only the sign bit changes in class F (R307). -/
def execVabs (d a : Nat) (s : State) : Host.Outcome State Fault Refusal :=
  valuCode d a none none (fun k => isF k || isI k) (fun k _ x _ _ => (x % k.signW, 0))
    (fun slot sat x _ _ => intLane slot sat (slotInt slot x).natAbs) s
/-- VNEG: only the sign bit changes in class F (R307). -/
def execVneg (d a : Nat) (s : State) : Host.Outcome State Fault Refusal :=
  valuCode d a none none (fun k => isF k || isI k) (fun k _ x _ _ => (x ^^^ k.signW, 0))
    (fun slot sat x _ _ => intLane slot sat (-slotInt slot x)) s
/-- VSHL by b mod w (R308, R309). -/
def execVshl (d a b : Nat) (s : State) : Host.Outcome State Fault Refusal :=
  valuCode d a (some b) none isI (fun _ _ x _ _ => (x, 0))
    (fun slot sat x y _ => intLane slot sat (slotInt slot x * 2 ^ (y % laneBits slot))) s
/-- VSHR, zeros above (R308). -/
def execVshr (d a b : Nat) (s : State) : Host.Outcome State Fault Refusal :=
  valuCode d a (some b) none isI (fun _ _ x _ _ => (x, 0)) (fun slot _ x y _ => x / 2 ^ (y % laneBits slot)) s
/-- VSRA, copies of bit w − 1 above (R308). -/
def execVsra (d a b : Nat) (s : State) : Host.Outcome State Fault Refusal :=
  valuCode d a (some b) none isI (fun _ _ x _ _ => (x, 0))
    (fun slot _ x y _ => intLane slot false (sext x (laneBits slot) / 2 ^ (y % laneBits slot))) s
/-- VADDS (R308). -/
def execVadds (d a b : Nat) (s : State) : Host.Outcome State Fault Refusal :=
  valuCode d a (some b) none isI (fun _ _ x _ _ => (x, 0)) (fun slot _ x y _ => intLane slot true (slotInt slot x + slotInt slot y)) s
/-- VSUBS (R308). -/
def execVsubs (d a b : Nat) (s : State) : Host.Outcome State Fault Refusal :=
  valuCode d a (some b) none isI (fun _ _ x _ _ => (x, 0)) (fun slot _ x y _ => intLane slot true (slotInt slot x - slotInt slot y)) s

/-- Bitwise words (R306): any slot with SC = 0; the tag of A. -/
def vlogic (d a : Nat) (b : Option Nat) (f : Nat → Nat → Nat) (s : State) : Host.Outcome State Fault Refusal :=
  vword { valuSig d a b none with pred := false, rnd := false } s (fun t _ => do
      tagCheck 3 a t.a { ok := isAny } none [t.b]
      match b with
      | some b => tagCheck 4 b t.b { ok := isAny } t.a
      | none => pure ())
    fun o t => retV t t.cur o d (f o.a o.b) (o.ta % 65536)
/-- All 1024 bits. -/
def ones1024 : Nat := 2 ^ 1024 - 1
/-- VAND (R306). -/
def execVand (d a b : Nat) (s : State) : Host.Outcome State Fault Refusal := vlogic d a (some b) (· &&& ·) s
/-- VOR (R306). -/
def execVor (d a b : Nat) (s : State) : Host.Outcome State Fault Refusal := vlogic d a (some b) (· ||| ·) s
/-- VXOR (R306). -/
def execVxor (d a b : Nat) (s : State) : Host.Outcome State Fault Refusal := vlogic d a (some b) (· ^^^ ·) s
/-- VNOT (R306). -/
def execVnot (d a : Nat) (s : State) : Host.Outcome State Fault Refusal := vlogic d a none (fun x _ => ones1024 - x) s

/-- VMOV (R310, R293): bits and tag as they are; PRED only with V = 1 and SC = 0. A span core moves no command record (R417). -/
def execVmov (d a : Nat) (s : State) : Host.Outcome State Fault Refusal :=
  let g : Sig := { d := wr .v d, a := rd .v a, dd := true, da := true, pred := true, sat := true }
  vword g s (fun t s => do
      match t.a with
      | some t => if s.mod.pred != 0 && (!bit t 14 || bit t 5) then hintBad s
      | none => pure ()
      recordCheck s.cur.core.kind g.a (t.a.getD 0) 3)
    fun o t => do
      let c := t.cur
      let n := lanesOf (o.ta % 32)
      let w := laneBits (o.ta % 32)
      let old ← t.oldV c o d n
      retV t c o d (ofLanes w ((laneMap n w o.pred old fun j => (lane o.a w j, 0)).map (·.1))) (o.ta % 65536)

/-! ### Compare, select, rearrange (R311 to R314) -/

/-- A p register result: bits 0 to n − 1, zeros above; p0 keeps all true (R295, R311). -/
def bitsOf : List Nat → Nat
  | [] => 0
  | b :: bs => b % 2 + 2 * bitsOf bs
/-- A compare (R311): by `eq` and `lt` of the lanes; `quiet` compares set NV for a signalling NaN only. -/
def vcmp (d a b : Nat) (quiet unordered : Bool) (f : Bool → Bool → Bool) (s : State) : Host.Outcome State Fault Refusal :=
  let g : Sig := { d := wr .p d, a := rd .v a, b := rd .v b, da := true, db := true, pred := true, deck := false, svc := false }
  vword g s (fun t _ => do
      tagCheck 3 a t.a { ok := fun k => isF k || isI k } none [t.b]
      tagCheck 4 b t.b { ok := fun k => isF k || isI k } t.a)
    fun o t => do
      let c := t.cur
      let slot := o.ta % 32
      let w := laneBits slot
      let k := t.slot c slot
      let one (j : Nat) : Nat × Nat :=
        let (x, y) := (lane o.a w j, lane o.b w j)
        if isF slot then
          let (x, y) := (k.decode x, k.decode y)
          if x.isNan || y.isNan then
            (if unordered then 1 else 0, if !quiet || x.isSig || y.isSig then 16 else 0)
          else (if f (x.same y) (x.lt y) then 1 else 0, 0)
        else
          let (x, y) := (slotInt slot x, slotInt slot y)
          (if f (decide (x = y)) (decide (x < y)) then 1 else 0, 0)
      let r := laneMap (lanesOf slot) 1 o.pred 0 one
      (t.ctx c).fpCheck r
      pure (.done ((t.addFlags c (flagsOf r)).wp c d (bitsOf (r.map (·.1)))))
/-- VCMPEQ (R311). -/
def execVcmpeq (d a b : Nat) (s : State) : Host.Outcome State Fault Refusal := vcmp d a b true false (fun eq _ => eq) s
/-- VCMPLT (R311). -/
def execVcmplt (d a b : Nat) (s : State) : Host.Outcome State Fault Refusal := vcmp d a b false false (fun _ lt => lt) s
/-- VCMPLE (R311). -/
def execVcmple (d a b : Nat) (s : State) : Host.Outcome State Fault Refusal := vcmp d a b false false (fun eq lt => eq || lt) s
/-- VCMPNE (R311). -/
def execVcmpne (d a b : Nat) (s : State) : Host.Outcome State Fault Refusal := vcmp d a b true true (fun eq _ => !eq) s

/-- Fields of a word outside the groups that take predicates or rounding (R297). -/
def vplain (d a : Nat) (b : Option Nat) : Sig :=
  { d := wr .v d, a := rd .v a, b := b.elim none (rd .v ·), dd := true, da := true, deck := false, svc := false }
/-- The n lanes of a slot that f gives, as a vector with the tag of A. -/
def retMoved (s : State) (c : CtxId) (o : Opnds) (d : Nat) (f : Nat → Nat) : Chk Out :=
  let slot := o.ta % 32
  retV s c o d (ofLanes (laneBits slot) ((upFrom 0 (lanesOf slot)).map f)) (o.ta % 65536)
/-- Two sources of one slot, whatever it is. -/
def pairRule (a b : Nat) (v0 : Bool) (t : Tags) (_ : State) : Chk Unit := do
  tagCheck 3 a t.a { ok := isAny, v0 := v0 } none [t.b]
  tagCheck 4 b t.b { ok := isAny, v0 := v0 } t.a
/-- VSEL (R312): any tag with SC = 0. -/
def execVsel (d a b c : Nat) (s : State) : Host.Outcome State Fault Refusal :=
  vword { vplain d a (some b) with c := rd .p c } s (pairRule a b true) fun o t =>
    let w := laneBits (o.ta % 32)
    retMoved t t.cur o d fun k => lane (if bit o.c k then o.a else o.b) w k
/-- A class I operand with at least n lanes (R313, R319). -/
def indexCheck (reg : Nat) (t : Option Nat) (first : Option Nat) : Chk Unit := do
  tagCheck 4 reg t { ok := isI }
  match t, first with
  | some t, some f => if lanesOf (t % 32) < lanesOf (f % 32) then trap 6 2 (t + reg * 65536) 4
  | _, _ => pure ()
/-- VPERM (R313). -/
def execVperm (d a b : Nat) (s : State) : Host.Outcome State Fault Refusal :=
  vword (vplain d a (some b)) s (fun t _ => do
      tagCheck 3 a t.a { ok := isAny }
      indexCheck b t.b t.a)
    fun o t =>
      let slot := o.ta % 32
      let wb := laneBits (o.tb % 32)
      retMoved t t.cur o d fun k => lane o.a (laneBits slot) (lane o.b wb k % lanesOf slot)
/-- VSLIDE (R313). -/
def execVslide (d a b c : Nat) (s : State) : Host.Outcome State Fault Refusal :=
  vword { vplain d a (some b) with c := rd .x c } s (pairRule a b false) fun o t =>
    let w := laneBits (o.ta % 32)
    let n := lanesOf (o.ta % 32)
    let sh := min o.c n
    retMoved t t.cur o d fun k => if k + sh < n then lane o.a w (k + sh) else lane o.b w (k + sh - n)
/-- VZIP (R313). -/
def execVzip (d a b : Nat) (h : Bool) (s : State) : Host.Outcome State Fault Refusal :=
  vword (vplain d a (some b)) s (pairRule a b false) fun o t =>
    let w := laneBits (o.ta % 32)
    let n := lanesOf (o.ta % 32)
    retMoved t t.cur o d fun k => lane (if k % 2 = 0 then o.a else o.b) w ((if h then n / 2 else 0) + k / 2)
/-- VUNZIP (R313). -/
def execVunzip (d a b : Nat) (h : Bool) (s : State) : Host.Outcome State Fault Refusal :=
  vword (vplain d a (some b)) s (pairRule a b false) fun o t =>
    let w := laneBits (o.ta % 32)
    let n := lanesOf (o.ta % 32)
    let e := if h then 1 else 0
    retMoved t t.cur o d fun k => if k < n / 2 then lane o.a w (2 * k + e) else lane o.b w (2 * (k - n / 2) + e)

/-- PAND (R314). -/
def execPand (d a b : Nat) (s : State) : Host.Outcome State Fault Refusal :=
  word { d := wr .p d, a := rd .p a, b := rd .p b } s fun o t => .ok (.done (t.wp t.cur d (o.a &&& o.b)))
/-- POR (R314). -/
def execPor (d a b : Nat) (s : State) : Host.Outcome State Fault Refusal :=
  word { d := wr .p d, a := rd .p a, b := rd .p b } s fun o t => .ok (.done (t.wp t.cur d (o.a ||| o.b)))
/-- PNOT (R314). -/
def execPnot (d a : Nat) (s : State) : Host.Outcome State Fault Refusal :=
  word { d := wr .p d, a := rd .p a } s fun o t => .ok (.done (t.wp t.cur d (ones128 - o.a)))
/-- How many of the low n bits are 1. -/
def onesIn (v : Nat) : Nat → Nat
  | 0 => 0
  | n + 1 => v % 2 + onesIn (v / 2) n
/-- PCNT (R314). -/
def execPcnt (d a : Nat) (s : State) : Host.Outcome State Fault Refusal :=
  word { d := wr .x d, a := rd .p a, dd := true } s fun o t => retX t t.cur o d (onesIn o.a 128)

/-! ### Conversion (R315 to R320) -/

/-- Fields of VCVT, VDEQ and VSCALE (R297). -/
def cvtSig (d a : Nat) (b : Option Nat) : Sig := { vplain d a b with pred := true, rnd := true }
/-- The part of VCVT and VDEQ is out of range (R315): ILLEGAL, FIELD 4. -/
def partCheck (s : State) (t : Option Nat) (c p : Nat) : Chk Unit :=
  match t with
  | some t =>
    let na := lanesOf (t % 32)
    let nd := lanesOf c
    if p ≥ max na nd / min na nd then trap 1 0 s.ir.toNat 4 else .ok ()
  | none => .ok ()
/-- The lanes of a conversion (R315): those that a source lane goes to, by f of the source code; the others keep their bits. -/
def convLanes (na nd wa p act old wd src : Nat) (f : Nat → Nat × Nat) : List (Nat × Nat) :=
  (upFrom 0 nd).map fun k =>
    if na ≥ nd then (if bit act k then f (lane src wa (p * nd + k)) else (lane old wd k, 0))
    else if p * na ≤ k ∧ k < p * na + na ∧ bit act k then f (lane src wa (k - p * na))
    else (lane old wd k, 0)
/-- The old lanes of a conversion's destination: a part leaves the others as they were. -/
def State.oldPart (s : State) (c : CtxId) (o : Opnds) (d na nd : Nat) : Chk Nat :=
  if o.m.dst ≠ 0 then .ok 0
  else if na ≥ nd then s.oldV c o d nd
  else do
    let (v, _) ← s.readReg c ⟨.v, .read, d⟩
    pure v
/-- VCVT (R315). -/
def execVcvt (d a p c : Nat) (s : State) : Host.Outcome State Fault Refusal :=
  vword (cvtSig d a none) s (fun t s => do
      match t.a with
      | some t => if bit t 14 && (t % 32 == 23 || t % 32 == 31) then trap 1 0 (t % 32) 3
      | none => pure ()
      partCheck s t.a c p
      tagCheck 3 a t.a { ok := fun k => k != 23 && k != 31 }
      match t.a with
      | some t => s.fmtCheck s.cur.core (t % 32)
      | none => pure ()
      s.fmtCheck s.cur.core c)
    fun o t => do
      let u := t.cur
      let slot := o.ta % 32
      let old ← t.oldPart u o d (lanesOf slot) (lanesOf c)
      let k := t.slot u slot
      let r := t.rm u o
      retLanes t u o d c (convLanes (lanesOf slot) (lanesOf c) (laneBits slot) p o.pred old (laneBits c) o.a fun x =>
        (t.slot u c).round r (k.decode x))
/-- The narrow format of a slot. -/
def State.narrow (s : State) (c : CtxId) (k : Nat) : Fmt := if k < 16 then .ofWord (s.fdOf c.core k) else fixedFmt k
/-- VDEQ (R317): a narrow source of either SC, a scale of 0 without one. -/
def execVdeq (d a p c : Nat) (s : State) : Host.Outcome State Fault Refusal :=
  vword (cvtSig d a none) s (fun t s => do
      partCheck s t.a c p
      tagCheck 3 a t.a { ok := isN, sc := true }
      match t.a with
      | some t => s.fmtCheck s.cur.core (t % 32)
      | none => pure ())
    fun o t => do
      let u := t.cur
      let old ← t.oldPart u o d 128 (lanesOf c)
      let f := t.narrow u (o.ta % 32)
      let scale := if bit o.ta 5 then bits o.ta 13 6 else 127
      let r := t.rm u o
      retLanes t u o d c (convLanes 128 (lanesOf c) 8 p o.pred old (laneBits c) o.a fun x =>
        (t.slot u c).round r (dequantise f scale x))
/-- The other registers of a group, with their tags checked (R316). -/
def State.groupV (s : State) (c : CtxId) (slot : Nat) : List Nat → Chk (List Nat)
  | [] => .ok []
  | r :: rs => do
    let (v, t) ← s.readReg c ⟨.v, .read, r⟩
    tagCheck 3 r (some t) { ok := isF } (some slot)
    let vs ← State.groupV s c slot rs
    pure (v :: vs)
/-- VQUANT (R316, R41, R42): one strip from a group of registers, always rne. -/
def execVquant (d a c : Nat) (s : State) : Host.Outcome State Fault Refusal :=
  vword (vplain d a none) s (fun t s => do
      match t.a with
      | some t => if isF (t % 32) && a + 128 / lanesOf (t % 32) > 32 then trap 1 0 s.ir.toNat 3
      | none => pure ()
      tagCheck 3 a t.a { ok := isF } none ((upFrom (a + 1) (128 / lanesOf (t.a.getD 0 % 32) - 1)).map fun r => some (s.vtag s.cur r))
      match t.a with
      | some t =>
        let _ ← s.groupV s.cur (t % 32) (upFrom (a + 1) (128 / lanesOf (t % 32) - 1))
      | none => pure ()
      s.fmtCheck s.cur.core c)
    fun o t => do
      let u := t.cur
      let slot := o.ta % 32
      let w := laneBits slot
      let n := lanesOf slot
      let more ← t.groupV u slot (upFrom (a + 1) (128 / n - 1))
      let k := t.slot u slot
      let xs := (o.a :: more).flatMap fun v => (lanes v w n).map k.decode
      let f := t.narrow u c
      let sc := scaleCode f xs
      let r := xs.map (quantise f sc)
      t.fpCheck u o r
      retV (t.addFlags u (flagsOf r)) u o d (ofLanes 8 (r.map (·.1))) (tagOf c + 32 + sc * 64)

/-- An interval result to register r, or to a link. -/
def State.putI (s : State) (c : CtxId) (o : Opnds) (r v tag : Nat) : Chk State :=
  if o.m.dst = 0 then .ok ((s.cancel c 3 r).wi c r v tag) else s.putLink c o.m.dst v tag
/-- VRETAG (R318): no tag is checked. -/
def execVretag (d a b : Nat) (ireg : Bool) (s : State) : Host.Outcome State Fault Refusal :=
  let g : Sig := if ireg then { d := wr .i d, a := rd .i a, b := rd .x b, dd := true, da := true, deck := false, svc := false }
    else { vplain d a none with b := rd .x b }
  word g s fun o t =>
    if ireg then do
      let t ← t.putI t.cur o d o.a (o.b % 65536)
      pure (.done t)
    else retV t t.cur o d o.a (o.b % 65536)
/-- VTAGR (R318). -/
def execVtagr (d a : Nat) (ireg : Bool) (s : State) : Host.Outcome State Fault Refusal :=
  let g : Sig := { d := wr .x d, a := if ireg then rd .i a else rd .v a, dd := true, da := true, deck := false, svc := false }
  word g s fun o t => retX t t.cur o d (o.ta % 65536)
/-- The integer of lane k of an index or scale operand, unsigned in slots 17 and 30 (R305). -/
def idxLane (v tag k : Nat) : Int := slotInt (tag % 32) (lane v (laneBits (tag % 32)) k)
/-- An exponent beyond which every result of a scaling rounds alike. -/
def capScale (n : Int) : Int := max (-10000) (min 10000 n)
/-- VSCALE (R319). -/
def execVscale (d a b : Nat) (s : State) : Host.Outcome State Fault Refusal :=
  vword (cvtSig d a (some b)) s (fun t _ => do
      tagCheck 3 a t.a { ok := isF }
      indexCheck b t.b t.a)
    fun o t => do
      let u := t.cur
      let slot := o.ta % 32
      let w := laneBits slot
      let n := lanesOf slot
      let old ← t.oldV u o d n
      let k := t.slot u slot
      let r := t.rm u o
      retLanes t u o d slot (laneMap n w o.pred old fun j =>
        let x := k.decode (lane o.a w j)
        k.out r ((nanOf [x]).getD (x.scale (capScale (idxLane o.b o.tb j)), 0)))
/-- VPACK (R320). -/
def execVpack (d a b : Nat) (s : State) : Host.Outcome State Fault Refusal :=
  let ok (s : State) (k : Nat) : Bool := isN k && decide ((s.narrow s.cur k).w ≤ 4)
  vword (vplain d a (some b)) s (fun t s => do
      tagCheck 3 a t.a { ok := ok s } none [t.b]
      tagCheck 4 b t.b { ok := ok s } t.a
      match t.a with
      | some t => s.fmtCheck s.cur.core (t % 32)
      | none => pure ())
    fun o t =>
      let pack (v : Nat) : Nat := pack4 (t.cutCodes t.cur (o.ta % 32) v) 64
      retV t t.cur o d (pack o.a + 2 ^ 512 * pack o.b) (tagOf 31)
/-- VUNPK (R320): whatever the source's tag; a slot wider than 4 bits is ILLEGAL. -/
def execVunpk (d a : Nat) (h : Bool) (c : Nat) (s : State) : Host.Outcome State Fault Refusal :=
  let g := vplain d a none
  vword g s (fun t s => do
      if (s.narrow s.cur c).w > 4 then trap 1 0 s.ir.toNat 5
      recordCheck s.cur.core.kind g.a (t.a.getD 0) 3
      s.fmtCheck s.cur.core c)
    fun o t =>
      let w := (t.narrow t.cur c).w
      let v := widen4 (if h then o.a / 2 ^ 512 else o.a % 2 ^ 512) 64
      retV t t.cur o d (ofLanes 8 ((lanes v 8 128).map (· % 2 ^ w))) (tagOf c)

/-! ### Special functions (R321 to R323, R220) -/

/-- The cycle in which a request issued now is served to its end. -/
def State.sfuDue (s : State) (c : CtxId) (lat : Nat) : Nat :=
  let free := max s.cyc (s.core c.core).sfuFree
  (if (s.ctx c).timed.isSome then min free (s.cyc + 3) else free) + lat
/-- The causes of a result that goes to a link or stream in its completion cycle (R255, R449). -/
def State.sfuAim (s : State) (c : CtxId) (code val due : Nat) (vec : Bool := true) : Chk Unit := do
  if code ≠ 0 then
    if code < 8 then
      if (s.ctx c).timed.isSome then
        let k := s.schedCycle c + (due - s.cyc)
        if !(decide (k < (s.core c.core).schedLen) && bit (Tab.get (s.core c.core).sched (code - 1) 0) k) then
          trap 48 code (s.schedCycle c) 7
      else if code < 5 then trap 48 6 code
    else
      let _ ← s.appendStream c (code - 8) val vec
/-- Hand a request to the unit; a context's second request waits for its first (R323). -/
def State.sfuPut (s : State) (c : CtxId) (q : SfuReq) : Chk Out :=
  if s.sfuBusy c then .error (.retry .sfu)
  else
    let s := q.outs.foldl (fun s o => if o.1 = 5 then s else s.cancel c o.1 o.2.1) s
    .ok (.done (s.fresh.sfuEnter c.core { q with id := s.nextId, ctx := c, word := s.ir.toNat } (s.ctx c).timed.isSome))
/-- The same with one result to a register of a class, or where DST directs it. -/
def State.sfuAsk (s : State) (c : CtxId) (o : Opnds) (cls d val tag : Nat) (q : SfuReq) : Chk Out := do
  if s.sfuBusy c then throw (.retry .sfu)
  s.sfuAim c o.m.dst val (s.sfuDue c q.lat)
  s.sfuPut c { q with outs := [(if o.m.dst = 0 then cls else 5, if o.m.dst = 0 then d else o.m.dst,
                                BitVec.ofNat 1024 val, BitVec.ofNat 16 tag)] }
/-- A VSFU word (R321): function code, sources, and latencies for FP32 and FP64. -/
def vsfu (fn d a : Nat) (b c : Option Nat) (lat32 lat64 : Nat) (s : State) : Host.Outcome State Fault Refusal :=
  let g : Sig := { d := wr .v d, a := rd .v a, b := b.elim none (rd .v ·), c := c.elim none (rd .x ·), dd := true, da := true,
                   db := b.isSome, pred := true, rnd := true, deck := false, svc := false }
  vword g s (fun t _ => do
      tagCheck 3 a t.a { ok := isF } none [t.b]
      match b with
      | some b => tagCheck 4 b t.b { ok := isF } t.a
      | none => pure ())
    fun o t => do
      let u := t.cur
      let slot := o.ta % 32
      let w := laneBits slot
      let n := lanesOf slot
      let old ← t.oldV u o d n
      let r := t.rm u o
      let res := laneMap n w o.pred old fun j =>
        sfLane fn slot r (lane o.a w j) (lane o.b w j) (if slot = 27 then o.c else o.c % 4294967296)
      t.fpCheck u o res
      t.sfuAsk u o 2 d (ofLanes w (res.map (·.1))) (tagOf slot)
        { id := 0, ctx := u, outs := [], flags := flagsOf res, occ := if slot = 27 then 4 else 2,
          lat := if slot = 27 then lat64 else lat32 }
/-- VEXP2 (R322). -/
def execVexp2 (d a b c : Nat) (s : State) : Host.Outcome State Fault Refusal := vsfu 0 d a (some b) (some c) 14 22 s
/-- VLOG2 (R321). -/
def execVlog2 (d a : Nat) (s : State) : Host.Outcome State Fault Refusal := vsfu 1 d a none none 14 22 s
/-- VRCP (R321). -/
def execVrcp (d a : Nat) (s : State) : Host.Outcome State Fault Refusal := vsfu 2 d a none none 10 18 s
/-- VRSQRT (R321). -/
def execVrsqrt (d a : Nat) (s : State) : Host.Outcome State Fault Refusal := vsfu 3 d a none none 10 18 s
/-- VSQRT (R321, R45). -/
def execVsqrt (d a : Nat) (s : State) : Host.Outcome State Fault Refusal := vsfu 4 d a none none 16 28 s
/-- VDIV (R321, R45). -/
def execVdiv (d a b : Nat) (s : State) : Host.Outcome State Fault Refusal := vsfu 5 d a (some b) none 18 32 s
/-- VTANH (R321). -/
def execVtanh (d a : Nat) (s : State) : Host.Outcome State Fault Refusal := vsfu 6 d a none none 16 26 s
/-- VSIGM (R321). -/
def execVsigm (d a : Nat) (s : State) : Host.Outcome State Fault Refusal := vsfu 7 d a none none 16 26 s

/-- Put a value on a link without the checks of its word: none when a vertical FIFO is full (R102). -/
def State.pushLink (s : State) (c : CtxId) (code val tag : Nat) : Option State :=
  let v : LinkVal := { val := BitVec.ofNat 1024 val, tag := BitVec.ofNat 16 tag, at_ := s.cyc + 2 }
  if code < 5 then
    let (u, back) := CoreDir c.core code
    some (s.after 2 .linkValueArrival { ctx := ⟨u, 0⟩, ns := [back, v.val.toNat, v.tag.toNat] })
  else
    let up := c.core.kind = .span
    let u := s.fifoCore c
    let k := (s.core u).noteFifo s.cyc
    let fifo := if up then k.up else k.down
    if fifo.length ≥ 8 then none
    else some ((s.setCore u (if up then { k with up := fifo ++ [v] } else { k with down := fifo ++ [v] })).after 2
      .fifoEntryVisible { ctx := ⟨u, 0⟩, ns := [if up then 1 else 0] })
/-- The cause of a result that reaches a link in its completion cycle, where the schedule's bit is clear by then or the exchange has
ended (R255, R449). -/
def State.lateLink (s : State) (c : CtxId) (code : Nat) : Option Trap :=
  if code = 0 ∨ 8 ≤ code then none
  else if (s.ctx c).timed.isSome then
    (if s.slotOpen c code then none else some { cause := 48, detail := code, val := s.schedCycle c, field := 7 })
  else if code < 5 then some { cause := 48, detail := 6, val := code } else none
/-- A context takes the cause of a word whose result comes too late for its link: at the boundary of that cycle; one that is stopped
keeps it pending (R411; notes/assumptions/83). -/
def State.lateTrap (s : State) (c : CtxId) (t : Trap) (w : Nat) : State :=
  let x := s.ctx c
  if x.st = .free then s
  else if x.st = .stopped then s.pendAsync c { t with insn := some w }
  else s.takeTrap c t x.resume w
/-- A result that finds its FIFO full goes on with the next pop, in the same cycle too (R102); in timed exchange the step comes again
in the next cycle, which finds it too late (R450). -/
def State.linkWait (s : State) (c : CtxId) (i : Instr) (a late : Arg) : State :=
  let u := s.fifoCore c
  let k := s.core u
  let s := s.setCore u (if c.core.kind = .span then { k with upWait := k.upWait ++ [(i, a)] } else { k with downWait := k.downWait ++ [(i, a)] })
  if (s.ctx c).timed.isSome then s.after 1 i late else s
/-- The push of a result that no pop made room for in its cycle (R450). -/
def linkFull : Trap := { cause := 49, detail := 2, val := 5 }
/-- Write the results of a request: register by class, or to a link or stream; none while a FIFO is full. -/
def State.sfuWrite (s : State) (c : CtxId) : List (Nat × Nat × BitVec 1024 × BitVec 16) → Option State
  | [] => some s
  | (cls, r, v, t) :: rest =>
    if cls = 2 then (s.wv c r v.toNat t.toNat).sfuWrite c rest
    else if cls = 3 then (s.wi c r v.toNat t.toNat).sfuWrite c rest
    else if r < 8 then (s.pushLink c r v.toNat t.toNat).bind fun s => s.sfuWrite c rest
    else match s.appendStream c (r - 8) v.toNat true with
      | .ok s => s.sfuWrite c rest
      | .error (.trap w) => (s.pendAsync c w).sfuWrite c rest
      | .error _ => none
/-- SFU_RESULT (R220, R323, R334, R421): the results, flags and progress of a request are written, and it leaves the unit. -/
def execSfuResult (s : State) : Host.Outcome State Fault Refusal :=
  let c := s.arg.ctx
  let k := s.core c.core
  match k.sfu.find? (·.id == s.n 0) with
  | none => done s
  | some q =>
    if q.due ≠ s.n 1 then done s else
    let ends (t : Trap) : State := (s.setCore c.core { k with sfu := k.sfu.filter (·.id != q.id) }).lateTrap c t q.word
    match (q.outs.find? fun o => o.1 == 5 && decide (o.2.1 < 8)).bind fun o => s.lateLink c o.2.1 with
    | some t => done (ends t)
    | none =>
    match s.sfuWrite c q.outs with
    | none => done (if s.n 2 = 1 then ends linkFull else s.linkWait c .sfuResult s.arg { s.arg with ns := [s.n 0, s.n 1, 1] })
    | some s =>
      let s := s.setCore c.core { s.core c.core with sfu := (s.core c.core).sfu.filter (·.id != q.id) }
      let x := s.ctx c
      let fl := x.iflag.toNat ||| q.ior
      let fl := match q.pmask with
        | some p => fl % 65536 + p * 65536
        | none => fl
      done (s.setCtx c { x with fcsr := x.fcsr ||| Word.ofN q.flags, iflag := Word.ofN fl })

/-! ### Reductions and lane moves (R324 to R326) -/

/-- A level of the tree: neighbours joined; an absent child passes the other (R324). -/
def joinPairs (f : Nat → Nat → Nat × Nat) : List (Option Nat) → List (Option Nat) × Nat
  | some x :: some y :: r => let (z, fl) := f x y; let (rest, fs) := joinPairs f r; (some z :: rest, fl ||| fs)
  | some x :: none :: r => let (rest, fs) := joinPairs f r; (some x :: rest, fs)
  | none :: y :: r => let (rest, fs) := joinPairs f r; (y :: rest, fs)
  | l => (l, 0)
/-- The tree over 2^k leaves. -/
def treeSum (f : Nat → Nat → Nat × Nat) : Nat → List (Option Nat) → Option Nat × Nat
  | 0, l => (l.headD none, 0)
  | k + 1, l => let (l, fl) := joinPairs f l; let (r, fs) := treeSum f k l; (r, fl ||| fs)
/-- Fields of a reduction (R297). -/
def redSig (d a : Nat) (sum : Bool) : Sig :=
  { vplain d a none with pred := true, rnd := sum, sat := sum }
/-- RND in class F, SAT in class I only; classes F and I. -/
def redRule (a : Nat) (t : Tags) (s : State) : Chk Unit := do
  rndCheck s t.a
  match t.a with
  | some t => if isF (t % 32) && s.mod.sat then hintBad s
  | none => pure ()
  tagCheck 3 a t.a { ok := fun k => isF k || isI k }
/-- The addition of class F: codes and flags. -/
def Slot.addCode (k : Slot) (r : Rm) (x y : Nat) : Nat × Nat := k.out r (addVal r (k.decode x) (k.decode y))
/-- VRSUM (R324, R53). -/
def execVrsum (d a : Nat) (s : State) : Host.Outcome State Fault Refusal :=
  vword (redSig d a true) s (redRule a) fun o t => do
    let u := t.cur
    let slot := o.ta % 32
    let w := laneBits slot
    let n := lanesOf slot
    let leaf (k : Nat) : Option Nat := if bit o.pred k then some (lane o.a w k) else none
    let k := t.slot u slot
    let (v, fl) := if isF slot then
        let (v, fl) := treeSum (k.addCode (t.rm u o)) (Nat.log2 n) ((upFrom 0 n).map leaf)
        (v.getD 0, fl)
      else (intLane slot o.m.sat (((upFrom 0 n).filterMap leaf).foldl (fun z x => z + slotInt slot x) 0), 0)
    t.fpCheck u o [(v, fl)]
    retV (t.addFlags u fl) u o d v (tagOf slot)
/-- The prefix sums of lanes in ascending order, with flags (R324): `acc` is the sum so far. -/
def prefixSums (act old : Nat) (w : Nat) (first : Nat → Nat × Nat) (f : Nat → Nat → Nat × Nat) :
    Nat → List Nat → Option Nat → List (Nat × Nat)
  | _, [], _ => []
  | k, x :: xs, acc =>
    if bit act k then
      let r := match acc with
        | none => first x
        | some z => f z x
      r :: prefixSums act old w first f (k + 1) xs (some r.1)
    else (lane old w k, 0) :: prefixSums act old w first f (k + 1) xs acc
/-- VRSUMP (R324). -/
def execVrsump (d a : Nat) (s : State) : Host.Outcome State Fault Refusal :=
  vword (redSig d a true) s (redRule a) fun o t => do
    let u := t.cur
    let slot := o.ta % 32
    let w := laneBits slot
    let n := lanesOf slot
    let old ← t.oldV u o d n
    let k := t.slot u slot
    let r := t.rm u o
    let first (x : Nat) : Nat × Nat := match nanOf [k.decode x] with
      | some v => if isF slot && (k.decode x).isSig then k.out r v else (x, 0)
      | none => (x, 0)
    let add (z x : Nat) : Nat × Nat :=
      if isF slot then k.addCode r z x else (intLane slot o.m.sat (slotInt slot z + slotInt slot x), 0)
    retLanes t u o d slot (prefixSums o.pred old w first add 0 (lanes o.a w n) none)
/-- VRMAX and VRMIN (R325). -/
def vrminmax (big : Bool) (d a : Nat) (s : State) : Host.Outcome State Fault Refusal :=
  vword (redSig d a false) s (redRule a) fun o t => do
    let u := t.cur
    let slot := o.ta % 32
    let w := laneBits slot
    let k := t.slot u slot
    let xs := ((upFrom 0 (lanesOf slot)).filter (bit o.pred ·)).map (lane o.a w ·)
    if isF slot then
      let vs := xs.map k.decode
      let best := (vs.filter (!·.isNan)).foldl (fun b v => match b with
        | none => some v
        | some b => some (if b.minFirst v == big then v else b)) none
      retV (t.addFlags u (if vs.any (·.isSig) then 16 else 0)) u o d (k.round .rne (best.getD .qnan)).1 (tagOf slot)
    else
      let best := xs.foldl (fun b x => match b with
        | none => some x
        | some b => some (if (slotInt slot b ≤ slotInt slot x) = big then x else b)) none
      retV t u o d ((best.getD (Config.noLane slot)) % 2 ^ w) (tagOf slot)
/-- VRMAX (R325). -/
def execVrmax (d a : Nat) (s : State) : Host.Outcome State Fault Refusal := vrminmax true d a s
/-- VRMIN (R325). -/
def execVrmin (d a : Nat) (s : State) : Host.Outcome State Fault Refusal := vrminmax false d a s

/-- Bits of a value in a lane of a slot: the lane's, or the format's for a narrow slot (R326, R28). -/
def State.codeBits (s : State) (c : CtxId) (k : Nat) : Nat := if isN k then (s.narrow c k).w else laneBits k
/-- VBCAST (R326). -/
def execVbcast (d a c : Nat) (s : State) : Host.Outcome State Fault Refusal :=
  vword { d := wr .v d, a := rd .x a, dd := true, da := true, deck := false, svc := false } s (fun _ s => s.fmtCheck s.cur.core c)
    fun o t =>
      let w := if c = 31 then 64 else laneBits c
      retV t t.cur o d (ofLanes w (List.replicate (1024 / w) (if c = 31 then o.a else o.a % 2 ^ t.codeBits t.cur c))) (tagOf c)
/-- VMOVX (R326): any tag; slot 31 counts as 16 doublewords. -/
def execVmovx (d a b : Nat) (s : State) : Host.Outcome State Fault Refusal :=
  let g : Sig := { d := wr .x d, a := rd .v a, b := rd .x b, dd := true, da := true, deck := false, svc := false }
  vword g s (fun t s => recordCheck s.cur.core.kind g.a (t.a.getD 0) 3) fun o t =>
    let slot := o.ta % 32
    let w := if slot = 31 then 64 else laneBits slot
    let x := lane o.a w (o.b % (1024 / w))
    retX t t.cur o d (if slotSigned slot then (Word.ofI (sext x w)).toNat else x)
/-- VINS (R326): the low bits of the lane's width go in, also in a narrow lane; a storage form is not taken (R38). -/
def execVins (d a b : Nat) (s : State) : Host.Outcome State Fault Refusal :=
  let g : Sig := { d := rw .v d, a := rd .x a, b := rd .x b, dd := true, da := true, deck := false, svc := false }
  vword g s (fun t s => do
      tagCheck 2 d t.d { ok := isAny }
      match t.d with
      | some t => s.fmtCheck s.cur.core (t % 32)
      | none => pure ())
    fun o t =>
      let slot := o.td % 32
      let w := laneBits slot
      let k := o.b % lanesOf slot
      let x := o.a % 2 ^ w
      retV t t.cur o d (ofLanes w ((upFrom 0 (lanesOf slot)).map fun j => if j = k then x else lane o.d w j)) (o.td % 65536)

end Sys2Proof.Machine
end

