-- ==== Sys2Proof/Machine/VecMem.lean ====
section
/-! DEFINITION. Vector loads and stores, strips with their scales, indexed lanes, and streams (12_isa_vector R299 to R305,
R327 to R329; 02_formats R28, R44; 21_traps R419; 22_faults_memory R428), and what becomes of a loaded value. -/

namespace Sys2Proof.Machine

/-! ### OCP MX strips (R44) -/

/-- The block scales of a scale word (R303). -/
def mxScale (w g : Nat) : Nat := bits w (8 * g + 23) (8 * g + 16)
/-- The format of MX elements of a slot: MXINT8 has an implicit 2^−6. -/
def mxFmt (slot : Nat) : Fmt := if slot = 16 then { fixedFmt 16 with bias := 6 } else fixedFmt slot
/-- The strip scale code of an MX strip (R44). -/
def mxStrip (slot w : Nat) : Nat :=
  let big := (upFrom 0 4).foldl (fun m g => max m (mxScale w g)) 0
  if big = 255 then 255 else if slot = 16 then big - 6 else big
/-- The element codes of a native strip from those of an MX strip. -/
def mxLoad (slot w v : Nat) : Nat :=
  let strip := mxStrip slot w
  let f := fixedFmt slot
  ofLanes 8 ((upFrom 0 128).map fun k =>
    let q := lane v 8 k % 2 ^ f.w
    let g := mxScale w (k / 32)
    let d : Int := (g : Int) - (if slot = 16 then 6 else 0) - strip
    if strip = 255 then Config.mxNan q w % 2 ^ f.w
    else if d = 0 then q else (f.round .rne ((f.decode q).scale d)).1)
/-- Does a value exceed the largest finite magnitude of a format? -/
def Fmt.exceeds (f : Fmt) (v : Val) : Bool :=
  let big : Val := if f.e = 0 then .fin false (2 ^ f.m - 1) (-f.bias) else .fin false (f.magVal f.maxMag).1 (f.magVal f.maxMag).2
  match v with
  | .fin _ m _ => m != 0 && big.lt v.abs
  | _ => false
/-- Raise a candidate scale code until no element of the block exceeds the format, to a limit. -/
def mxRaise (f : Fmt) (xs : List Val) (lim : Nat) : Nat → Nat → Nat
  | 0, c => c
  | n + 1, c => if c < lim && xs.any (fun v => f.exceeds (v.scale (127 - (c : Int)))) then mxRaise f xs lim n (c + 1) else c
/-- Block scales and element codes of an MX strip from a native strip (R44). A block scale stays within the codes 0 to 254 that the
device writes (R32), where an element beyond them saturates; a strip whose scale is NaN has no finite element, so its blocks get
code 0 (R41; notes/assumptions/67). -/
def mxStore (slot strip v : Nat) : List Nat × List Nat :=
  let f := mxFmt slot
  let own := fixedFmt slot
  let blocks := (upFrom 0 4).map fun g =>
    let xs := (upFrom (32 * g) 32).map fun k => dequantise own strip (lane v 8 k)
    let lim := min 254 (if slot = 16 then strip + 6 else strip)
    let c := mxRaise f xs lim 512 (min (scaleCode f xs) lim)
    (c, xs.map fun x => (f.round .rne (x.scale (127 - (c : Int)))).1)
  (blocks.map (·.1), blocks.flatMap (·.2))

/-! ### What becomes of a loaded value -/

/-- The bytes of a register from the bytes loaded (R299, R303): `post` is the mode and four times the width of a code. -/
def Access.value (f : Access) (v : Nat) : Nat :=
  let x := match f.post % 4 with
    | 1 => widen4 v 64
    | 2 => mxLoad (f.tag % 32) f.cmp v
    | 3 => mxLoad (f.tag % 32) f.cmp (widen4 v 64)
    | _ => v
  let w := f.post / 4
  if w = 0 then x else ofLanes 8 ((lanes x 8 128).map (· % 2 ^ w))
/-- A scalar from the n bytes loaded (R349). -/
def Access.scalar (f : Access) (v : Nat) : Nat :=
  if f.post = 1 then (Word.ofI (sext v (8 * f.n))).toNat else v
/-- Is a value read for a stream still the stream's next element that is not read ahead (R329)? The bytes that SBIND reads stand
under 16 and the stream's number. -/
def State.aheadFits (s : State) (f : Access) : Bool :=
  let c := f.ctx
  let w := s.rs c f.dreg 2
  let k := (Tab.get (s.ctx c).ahead f.dreg []).length
  decide (16 ≤ f.dreg) || (f.va == addOff (s.rs c f.dreg 0) ((k : Int) * sext (s.rs c f.dreg 1) 64) && f.n == s.streamBytes c w &&
    f.kind == streamKind w)
/-- The window bytes that the context has stored to since a load issued are put back as they stand (R395). -/
def State.shielded (s : State) (f : Access) (t : State) : State :=
  f.later.foldl (fun t o => { t with mem := Mem.writeMask t.mem o.1 o.2.1 (Mem.read s.mem o.1 o.2.1) o.2.2 }) t
/-- A value reaches the destination of its load: none when a vertical FIFO has no room (R102, R255, R329). -/
def State.deliver (s : State) (f : Access) (v : Nat) : Option State :=
  let c := f.ctx
  let toLink (code val tag : Nat) (vec : Bool) : Option State :=
    if code < 8 then s.pushLink c code val tag
    else match s.appendStream c (code - 8) val vec with
      | .ok t => some t
      | .error (.trap w) => some (s.pendAsync c w)
      | .error _ => none
  match f.dcls with
  | 1 => some (s.shielded f (s.wx c f.dreg (f.scalar v)))
  | 2 => some (s.shielded f (s.wv c f.dreg (mergeBytes (s.rv c f.dreg) (f.value v) f.keep 128) f.tag))
  | 3 => some (s.shielded f (s.wi c f.dreg (mergeBytes (s.ri c f.dreg) v f.keep 128) f.tag))
  | 4 => some (s.shielded f (s.wh c f.dreg v))
  | 5 => toLink f.dreg (mergeBytes 0 (f.value v) f.keep 128) f.tag true
  | 6 => some (if s.aheadFits f then s.setCtx c { s.ctx c with ahead := Tab.set (s.ctx c).ahead f.dreg (Tab.get (s.ctx c).ahead f.dreg [] ++ [v]) } else s)
  | 7 => toLink f.dreg (f.scalar v) 0 false
  | _ => some s

/-! ### Accesses of 64 and 128 bytes (R299 to R301) -/

/-- Bytes of a slot's register in memory, as a core reads the slot. -/
def State.slotLen (s : State) (c : CtxId) (slot : Nat) : Nat := slotBytes slot (s.fdOf c.core)
/-- Width to which codes are cut: of a narrow slot; 0 of every other. -/
def State.cut (s : State) (c : CtxId) (slot : Nat) : Nat := if isN slot then (s.narrow c slot).w else 0
/-- Numbers of the set bits of a mask of n bits, lowest first. -/
def setBits (m n : Nat) : List Nat := (upFrom 0 n).filter (bit m ·)
/-- A mask of n bits from a condition. -/
def maskOf (n : Nat) (p : Nat → Bool) : Nat := bitsOf ((upFrom 0 n).map fun k => if p k then 1 else 0)
/-- Bytes of memory that a predicate leaves active for a slot (R301): in packed formats lane 2j governs byte j. -/
def memMask (slot len act : Nat) : Nat :=
  if len = 64 then maskOf 64 fun j => bit act (2 * j) else maskOf 128 fun j => bit act (j / (128 / lanesOf slot))
/-- Bytes of the register that it leaves active. -/
def regMask (slot len act : Nat) : Nat :=
  if len = 64 then maskOf 128 fun j => bit act (j / 2 * 2) else maskOf 128 fun j => bit act (j / (128 / lanesOf slot))
/-- A place some bytes on. -/
def Place.plus (p : Place) (n : Nat) : Place := { p with key := p.key + n }
/-- First and last active byte as a range. -/
def maskRange (m n : Nat) : Nat × Nat :=
  match setBits m n with
  | [] => (0, 0)
  | x :: xs => (x, xs.getLastD x + 1)
/-- The lowest poisoned unit that meets an active byte (R429). -/
def State.poisonedMask (s : State) (key n mask : Nat) : Option Nat :=
  if s.poison.isEmpty then none
  else (setBits mask n).findSome? fun j => (s.poisoned (key + j) 1).map fun u => max u key

/-- The schedule and stream checks of a load to a place that delivers to a link or stream: in the cycle of its completion (R97, R98,
R255). -/
def State.loadAim (s : State) (c : CtxId) (p : Place) (f : Access) : Chk Unit :=
  if f.dcls = 5 ∨ f.dcls = 7 then s.sfuAim c f.dreg 0 (s.cyc + max 4 p.lat) (f.dcls == 5) else .ok ()
/-- Load a register's bytes: `f` names the destination. A near place is read at once; elsewhere each line is one access,
the lower first, and a line with no active byte is none (R300, R301). A view-checked read is one access (R196, R299). -/
def State.loadV (s : State) (c : CtxId) (kind : AccKind) (va len mask : Nat) (f : Access) : Chk State := do
  let (lo, hi) := maskRange mask len
  let p ← s.aim c va len lo hi kind false false
  let f := { f with ctx := c, act := .load, kind := kind, va := va, n := len, key := p.key, lat := p.lat, ea := va, word := s.ir.toNat }
  s.loadAim c p f
  let s := if f.dcls = 5 then s else s.cancel c f.dcls f.dreg
  if mask = 0 ∧ f.dcls = 5 then pure (s.loadNow f 0 (max 4 p.lat))
  else if mask = 0 then
    match s.deliver f 0 with
    | some t => pure t
    | none => throw (.retry (.link true))
  else if ← s.atOnce p f then
    match s.poisonedMask p.key len mask with
    | some _ => pure (s.pendAsync c (eccTrap va f.dcls f.dreg))
    | none =>
      let s := s.markSeen c p.key len
      let v := s.rdMem p.key len
      if f.dcls = 5 then pure (s.loadNow f v p.lat)
      else match s.deliver f v with
        | some t => pure (t.later c f.dcls f.dreg)
        | none => throw (.retry (.link true))
  else if len = 64 ∨ kind = .v ∨ !(p.home.isSome ∨ p.peer) then
    pure (s.load c p { f with grp := s.nextId, cmp := if f.post % 4 ≥ 2 then f.cmp else mask })
  else
    let g := s.nextId
    let half (s : State) (j : Nat) : State :=
      let m := mask / 2 ^ (64 * j) % 2 ^ 64
      if m = 0 then s
      else s.load c (p.plus (64 * j)) { f with n := 64, va := va + 64 * j, grp := g, pos := 64 * j,
                                               cmp := if f.post % 4 ≥ 2 then f.cmp else m }
    pure (half (half s 0) 1)
/-- Store a register's bytes (R299 to R301). -/
def State.storeV (s : State) (c : CtxId) (kind : AccKind) (va len val mask : Nat) : Chk State := do
  let (lo, hi) := maskRange mask len
  let p ← s.aim c va len lo hi kind true false
  if mask = 0 then pure s
  else if len = 64 ∨ !(p.home.isSome ∨ p.peer) then s.storeAt c p kind va len val mask
  else
    let g := s.nextId
    let half (s : State) (j : Nat) : Chk State :=
      let m := mask / 2 ^ (64 * j) % 2 ^ 64
      if m = 0 then pure s
      else s.storeAt c (p.plus (64 * j)) kind (va + 64 * j) 64 (val / 2 ^ (512 * j) % 2 ^ 512) m va g j
    let s ← half s 0
    half s 1
/-- The memory image of a register under a slot: codes cut to their width, packed when they take four bits or less (R28). -/
def State.image (s : State) (c : CtxId) (slot v : Nat) : Nat :=
  let w := s.cut c slot
  let v := if w = 0 then v else ofLanes 8 ((lanes v 8 128).map (· % 2 ^ w))
  if s.slotLen c slot = 64 then pack4 v 64 else v

/-- Kind .v and .c run on span cores only (R348). -/
def spanKind (k : AccKind) : Bool := k == .v || k == .c
/-- The signature of VLD and VST, ILD and IST. -/
def vmSig (d a : Nat) (cls : Cls) (role : Role) (k : AccKind) : Sig :=
  { d := some ⟨cls, role, d⟩, a := rd .x a, dd := true, imm := true, pred := true, deck := !spanKind k, svc := !spanKind k }
/-- A slot of a memory word's field: FORMAT_INVALID when it is one of the core's descriptors and fails R27. A deck core has no
descriptor registers: a slot from 0 to 15 there holds the word 0, which is not valid (notes/assumptions/69). -/
def slotRule (slot : Nat) (_ : Tags) (s : State) : Chk Unit := s.fmtCheck s.cur.core slot
/-- VLD (R299 to R301). -/
def execVld (d a fs : Nat) (k : AccKind) (off : Nat) (s : State) : Host.Outcome State Fault Refusal :=
  vword (vmSig d a .v .write k) s (slotRule fs) fun o t => do
    let c := t.cur
    let len := t.slotLen c fs
    let n := lanesOf fs
    if o.pred % 2 ^ n + 1 ≠ 2 ^ n ∧ o.m.dst = 0 ∧ t.pending c 2 d then throw (.stall 2 d)
    let f : Access := { id := 0, ctx := c, act := .load, kind := k, key := 0, va := 0, n := len,
                        dcls := if o.m.dst = 0 then 2 else 5, dreg := if o.m.dst = 0 then d else o.m.dst,
                        post := (if len = 64 then 1 else 0) + 4 * t.cut c fs, tag := tagOf fs, keep := regMask fs len o.pred }
    let t ← t.loadV c k (addOff o.a (offVM o off)) len (memMask fs len o.pred) f
    pure (.done t)
/-- VST's tag rule (R299, R293): FS equals the slot, but raw takes any; a register with SC = 1 is accepted. -/
def vstRule (d fs : Nat) (t : Tags) (s : State) : Chk Unit := do
  if s.cur.core.kind == .span then
    if fs = 31 then recordCheck .span (rd .v d) (t.d.getD 0) 2
    else tagCheck 2 d t.d { ok := (· == fs), sc := true }
  s.fmtCheck s.cur.core fs
/-- VST (R299 to R301). -/
def execVst (d a fs : Nat) (k : AccKind) (off : Nat) (s : State) : Host.Outcome State Fault Refusal :=
  vword (vmSig d a .v .read k) s (vstRule d fs) fun o t => do
    let c := t.cur
    let len := t.slotLen c fs
    let t ← t.storeV c k (addOff o.a (offVM o off)) len (t.image c fs o.d) (memMask fs len o.pred)
    pure (.done t)

/-! ### The VMEM group (R302 to R305) -/

/-- The kind of a VMEM access by the space of its address (R302); a reserved space has none and traps. -/
def vmemKind (va : Nat) (wr : Bool) : AccKind :=
  match bits va 63 60 with
  | 0 => .f
  | 6 => .c
  | 7 => .w
  | 8 => .s
  | _ => if wr then .l else .l
/-- The MX types (R303). -/
def isMx (k : Nat) : Bool := k == 16 || (decide (18 ≤ k) && decide (k ≤ 22))
/-- VLDS (R303, R44); the reserved bits of the scale word have no effect. -/
def execVlds (d a b c : Nat) (s : State) : Host.Outcome State Fault Refusal :=
  let legal (o : Opnds) : Chk Unit := do
    if bit o.b 8 && !isMx c then trap 1 0 o.b 4
    s.fmtCheck s.cur.core c
  wordWith { d := wr .v d, a := rd .x a, b := rd .x b, dd := true, da := true, deck := false, svc := false } s (s.fmtCheck s.cur.core c) legal
      fun o t => do
    let u := t.cur
    let mx := bit o.b 8
    let len := t.slotLen u c
    let sc := if mx then mxStrip c o.b else o.b % 256
    let f : Access := { id := 0, ctx := u, act := .load, kind := .f, key := 0, va := 0, n := len, cmp := o.b,
                        dcls := if o.m.dst = 0 then 2 else 5, dreg := if o.m.dst = 0 then d else o.m.dst,
                        post := (if len = 64 then 1 else 0) + (if mx then 2 else 0) + 4 * t.cut u c,
                        tag := tagOf c + 32 + 64 * sc, keep := ones128 }
    let t ← t.loadV u (vmemKind o.a false) o.a len (2 ^ len - 1) f
    pure (.done t)
/-- VSTS (R303, R44). -/
def execVsts (d a b : Nat) (m : Bool) (s : State) : Host.Outcome State Fault Refusal :=
  vword { d := rd .v d, a := rd .x a, b := wr .x b, dd := true, da := true, deck := false, svc := false } s (fun t s => do
      tagCheck 2 d t.d { ok := fun k => if m then isMx k else isN k, sc := true }
      match t.d with
      | some t => s.fmtCheck s.cur.core (t % 32)
      | none => pure ())
    fun o t => do
      let u := t.cur
      let slot := o.td % 32
      let len := t.slotLen u slot
      let strip := if bit o.td 5 then bits o.td 13 6 else 127
      let (scales, codes) := mxStore slot strip o.d
      let v := if m then ofLanes 8 codes else o.d
      let w := if m then 256 + strip + 65536 * ofLanes 8 scales else strip
      let t ← t.storeV u (vmemKind o.a true) o.a len (t.image u slot v) (2 ^ len - 1)
      pure (.done ((t.cancel u 1 b).wx u b w))

/-- Registers j, j + 1, … of a group, one after another (R304, R419): the state, or the register that stops with the state of
those below it and the halt. -/
def groupRun (f : Nat → State → Chk State) : List Nat → State → Except (Nat × State × Halt) State
  | [], s => .ok s
  | j :: js, s => match f j s with
    | .ok t => groupRun f js t
    | .error h => .error (j, s, h)
/-- A group word: a cause at a register above the first leaves those below transferred, on the state before the word took
its operands, with PROG (R419); the word that resumes goes on at that register (R414). -/
def groupWord (n : Nat) (f : Nat → State → Chk State) (before : State) (t : State) : Chk Out :=
  let from_ := (t.ctx t.cur).resumeAt
  match groupRun f (upFrom from_ (n - from_)) t with
  | .ok t => .ok (.done t)
  | .error (j, _, .trap w) =>
    let w := { w with prog := j }
    if j = from_ then .error (.trap w)
    else match groupRun f (upFrom from_ (j - from_)) before with
      | .ok t => .error (.late t w)
      | .error (_, _, h) => .error h
  | .error (_, _, h) => .error h
/-- VLDM (R304). -/
def execVldm (d a b n : Nat) (s : State) : Host.Outcome State Fault Refusal :=
  vword { d := wr .v d, a := rd .x a, dd := true, da := true } s (slotRule b) fun o t => do
    let c := t.cur
    let len := t.slotLen c b
    let one (j : Nat) (s : State) : Chk State :=
      let f : Access := { id := 0, ctx := c, act := .load, kind := .f, key := 0, va := 0, n := len,
                          dcls := if j = 0 ∧ o.m.dst ≠ 0 then 5 else 2, dreg := if j = 0 ∧ o.m.dst ≠ 0 then o.m.dst else d + j,
                          post := (if len = 64 then 1 else 0) + 4 * s.cut c b, tag := tagOf b, keep := ones128 }
      s.loadV c (vmemKind o.a false) (addOff o.a (j * len)) len (2 ^ len - 1) f
    groupWord (n + 1) one s t
/-- VSTM (R304): every register carries the slot, unless it is raw. -/
def execVstm (d a b n : Nat) (s : State) : Host.Outcome State Fault Refusal :=
  vword { d := rd .v d, a := rd .x a, dd := true, da := true } s
      (fun t s => if (s.ctx s.cur).resumeAt = 0 then vstRule d b t s else pure ()) fun o t => do
    let c := t.cur
    let len := t.slotLen c b
    match (upFrom d (n + 1)).find? (t.pending c 2 ·) with
    | some r => throw (.stall 2 r)
    | none => pure ()
    let one (j : Nat) (s : State) : Chk State := do
      let (v, tag) ← if j = 0 ∧ o.m.dst ≠ 0 then pure (o.d, o.td) else s.readReg c ⟨.v, .read, d + j⟩
      vstRule (d + j) b { d := some tag } s
      s.storeV c (vmemKind o.a true) (addOff o.a (j * len)) len (s.image c b v) (2 ^ len - 1)
    groupWord (n + 1) one s t

/-- Addresses of VLDI and VSTI lie in spaces 0x4, 0x5, 0x7 and 0xC (R305): each lane's place, or its cause (R428). -/
def State.lanePlaces (s : State) (c : CtxId) (es : Nat) (wr : Bool) : List Nat → Chk (List (Nat × Place))
  | [] => .ok []
  | va :: vas => do
    let kind : AccKind := if bits va 63 60 = 7 then .w else .l
    let p ← s.aim c va es 0 es kind wr false
    let ps ← State.lanePlaces s c es wr vas
    pure ((va, p) :: ps)
/-- The lane addresses of an indexed word (R305). -/
def idxAddrs (base vb tb slot : Nat) : List Nat :=
  let es := laneBits slot / 8
  (upFrom 0 (min (lanesOf (tb % 32)) (lanesOf slot))).map fun k => addOff base (idxLane vb tb k * es)
/-- VLDI (R305, R428): whole bytes, as R305 moves them; the bits above a narrow code's width are not cut and codes of four bits or
less are not packed (notes/assumptions/66). -/
def execVldi (d a b c : Nat) (s : State) : Host.Outcome State Fault Refusal :=
  vword { d := wr .v d, a := rd .x a, b := rd .v b, dd := true, da := true, deck := false, svc := false } s (fun t s => do
      tagCheck 4 b t.b { ok := isI }
      s.fmtCheck s.cur.core c)
    fun o t => do
      let u := t.cur
      let es := laneBits c / 8
      let ps ← t.lanePlaces u es false (idxAddrs o.a o.b o.tb c)
      let f : Access := { id := 0, ctx := u, act := .load, kind := .l, key := 0, va := 0, n := es, grp := t.nextId,
                          dcls := if o.m.dst = 0 then 2 else 5, dreg := if o.m.dst = 0 then d else o.m.dst, tag := tagOf c,
                          keep := ones128 }
      t.loadAim u { key := 0, lat := ps.foldl (fun m p => max m p.2.lat) 4 } f
      let t := if o.m.dst = 0 then t.cancel u 2 d else t
      let now ← ps.allM fun p => t.atOnce p.2 { f with key := p.2.key }
      if now then
        match ps.find? fun p => (t.poisoned p.2.key es).isSome with
        | some p => pure (.done (t.pendAsync u (eccTrap p.1 2 d)))
        | none =>
          let v := ofLanes (8 * es) (ps.map fun p => t.rdMem p.2.key es)
          let t := ps.foldl (fun t p => t.markSeen u p.2.key es) t
          if o.m.dst ≠ 0 then pure (.done (t.loadNow { f with n := es * ps.length, grp := 0 } v 4))
          else pure (.done ((t.wv u d (f.value v) (tagOf c)).later u 2 d))
      else
        pure (.done ((ps.zip (upFrom 0 ps.length)).foldl (fun t e =>
          t.load u e.1.2 { f with va := e.1.1, ea := e.1.1, word := t.ir.toNat, pos := es * e.2, kind := if bits e.1.1 63 60 = 7 then .w else .l }) t))
/-- VSTI (R305, R428), whole bytes as VLDI: where two lanes name one address, the higher lane's value stays. -/
def execVsti (d a b c : Nat) (s : State) : Host.Outcome State Fault Refusal :=
  vword { d := rd .v d, a := rd .x a, b := rd .v b, dd := true, da := true, deck := false, svc := false } s (fun t s => do
      tagCheck 2 d t.d { ok := (· == c) }
      tagCheck 4 b t.b { ok := isI }
      s.fmtCheck s.cur.core c)
    fun o t => do
      let u := t.cur
      let es := laneBits c / 8
      let ps ← t.lanePlaces u es true (idxAddrs o.a o.b o.tb c)
      let t ← (ps.zip (upFrom 0 ps.length)).foldlM (fun t e =>
        t.storeAt u e.1.2 (if bits e.1.1 63 60 = 7 then .w else .l) e.1.1 es (lane o.d (8 * es) e.2) (2 ^ es - 1)) t
      pure (.done t)

/-! ### Streams (R327 to R329, R151) -/

/-- A stream is freed: its read-ahead is dropped and ACT is clear (R328). -/
def State.streamFree (s : State) (c : CtxId) (n : Nat) : State :=
  let x := s.ctx c
  let s := s.setCtx c { x with ahead := x.ahead.filter (·.1 != n) }
  let s := s.cancel c 6 n
  let w := s.rs c n 2
  if bit w 15 then s.ws c n 2 (w - 32768) else s
/-- Reserved values of a stream's state (R327, R418 STREAM 4). -/
def streamBad (w2 w3 : Nat) : Bool :=
  bits w2 31 16 != 0 || bits w2 7 5 != 0 || bits w2 13 11 == 4 || (decide (4 ≤ bits w2 10 8) && decide (bits w2 10 8 ≤ 6)) ||
  (bits w2 10 8 != 7 && bits w2 4 0 != 0) || bits w3 63 32 != 0
/-- Bind a stream to the 32 bytes of its state (R328). -/
def State.streamBind (s : State) (c : CtxId) (d v : Nat) : Chk State := do
  let q (j : Nat) := v / 2 ^ (64 * j) % 2 ^ 64
  if streamBad (q 2) (q 3) then trap 11 4 d
  let s := s.streamFree c d
  let w := q 2 ||| 32768
  let s := (((s.ws c d 0 (q 0)).ws c d 1 (q 1)).ws c d 2 w).ws c d 3 0
  let kind := streamKind w
  pure (if !bit w 14 && (kind == .l || kind == .g) && bits w 63 32 != 0 then s.after 1 .streamReadAhead { ctx := c, ns := [d] } else s)
/-- SBIND (R328). The state lies in space 0x4, 0x5 or 0x7; another core's pool is read first. -/
def execSbind (d a : Nat) (s : State) : Host.Outcome State Fault Refusal :=
  word { a := rd .x a, da := true, other := 1, deck := false, svc := false } s fun o t => do
    let c := t.cur
    let k : AccKind := if bits o.a 63 60 = 7 ∨ bits o.a 63 60 = 12 then .w else .l
    match Tab.get (t.ctx c).ahead (16 + d) [] with
    | v :: _ =>
      let t := t.setCtx c { t.ctx c with ahead := (t.ctx c).ahead.filter (·.1 != 16 + d) }
      let t ← t.streamBind c d v
      pure (.done t)
    | [] =>
      let p ← t.aim c o.a 32 0 32 k false false
      if ← t.atOnce p (p.access c .load k o.a 32) then
        match t.poisoned p.key 32 with
        | some _ => throw (.trap (streamEcc o.a))
        | none =>
          let t ← (t.markSeen c p.key 32).streamBind c d (t.rdMem p.key 32)
          pure (.done t)
      else if t.pending c 6 (16 + d) then throw (.stall 6 (16 + d))
      else throw (.ask (s.load c p { p.access c .load k o.a 32 with dcls := 6, dreg := 16 + d }))
/-- SFREE (R328). -/
def execSfree (d : Nat) (s : State) : Host.Outcome State Fault Refusal :=
  word { other := 1, deck := false, svc := false } s fun _ t => .ok (.done (t.streamFree t.cur d))
/-- SSTAT (R328). -/
def execSstat (d a : Nat) (s : State) : Host.Outcome State Fault Refusal :=
  word { d := wr .x d, dd := true, other := 2, deck := false, svc := false } s fun o t =>
    let w := t.rs t.cur a 2
    let k := min 16 (Tab.get (t.ctx t.cur).ahead a []).length
    retX t t.cur o d (bits w 63 32 * 4294967296 + k * 65536 + bits w 15 14 * 16384)
/-- STREAM_READ_AHEAD (R151, R329): one element more of a pool or snapshot stream, up to 16, while nothing hinders it; an
address that a pop would trap on is not read ahead. -/
def execStreamReadAhead (s : State) : Host.Outcome State Fault Refusal :=
  let c := s.arg.ctx
  let n := s.n 0
  let w := s.rs c n 2
  let have_ := (Tab.get (s.ctx c).ahead n []).length
  let kind := streamKind w
  if !(bit w 15) || bit w 14 || !(kind == .l || kind == .g) || decide (have_ ≥ 16) || decide (have_ ≥ bits w 63 32) ||
      s.pending c 6 n || (s.ctx c).st == .stopped || (s.ctx c).st == .free then done s
  else
    let b := s.streamBytes c w
    let va := addOff (s.rs c n 0) ((have_ : Int) * sext (s.rs c n 1) 64)
    match s.aim c va b 0 b kind false false with
    | .error _ => done s
    | .ok p =>
      let f : Access := { p.access c .load kind va b with dcls := 6, dreg := n }
      if p.near c && (s.ahead f).isEmpty then
        if (s.poisoned p.key b).isSome then done s
        else done ((((s.markSeen c p.key b).deliver f (s.rdMem p.key b)).getD s).after 1 .streamReadAhead s.arg)
      else done (s.load c p f)

end Sys2Proof.Machine
end

