-- ==== Sys2Proof/Machine/Sync.lean ====
section
/-! DEFINITION. Barriers and reductions, timed exchange, watches, waits for time and events (04_execution R90 to R102;
06_memory R170, R180 to R182; 09_system R236 to R242; 14_isa_memory R354 to R364; 23_faults_system R449 to R455, R461). -/

namespace Sys2Proof.Machine

/-! ### Arriving (R91, R356, R454) -/

/-- The launch and domain that an arrival names, or the BARRIER cause: 1 an undeclared domain, 2 a core that is no member. -/
def State.domainOf (s : State) (c : CtxId) (dom : Nat) : Chk Launch :=
  match s.launchOf c.core with
  | none => trap 51 2 dom
  | some l =>
    if dom ≠ 0 ∧ !bit l.dmask dom then trap 51 1 dom
    else if !bit (s.core c.core).memb.toNat dom then trap 51 2 dom
    else .ok l
/-- The domain of a word: explicit, or the core's current one. -/
def State.domSel (s : State) (c : CtxId) (ex : Bool) (v : Nat) : Nat := if ex then v % 64 else (s.core c.core).bdom
/-- No PARRIVE may be outstanding (BARRIER 4). -/
def State.noParrive (s : State) (c : CtxId) (dom : Nat) : Chk Unit :=
  if (s.ctx c).parrive.isSome then trap 51 4 dom else .ok ()
/-- The barrier that follows a barrier: those that have come to it already, with what they bring. -/
def Barrier.next (b : Barrier) : Barrier :=
  { ctxs := b.late, exps := b.nextExps, contribs := b.nextContribs, timedBy := b.nextTimed }
/-- Has a core arrived? A context of it that comes now arrives at the next barrier. -/
def Barrier.closedFor (b : Barrier) (u : CoreId) : Bool := b.cores.any (·.1 == u)
/-- Is a context of the core in XBEGIN at the barrier that its next arrival is at? -/
def Barrier.timed (b : Barrier) (u : CoreId) : Bool := if b.closedFor u then b.nextTimed.contains u else b.timedBy.contains u
/-- The core's next arrival is an XBEGIN. -/
def Barrier.addTimed (b : Barrier) (u : CoreId) : Barrier :=
  if b.closedFor u then { b with nextTimed := b.nextTimed ++ [u] } else { b with timedBy := b.timedBy ++ [u] }
/-- The core's next arrival contributes. -/
def Barrier.addContrib (b : Barrier) (u : CoreId) (k : Contrib) : Barrier :=
  if b.closedFor u then { b with nextContribs := b.nextContribs ++ [k] } else { b with contribs := b.contribs ++ [k] }
/-- Atomics of a context that release at system scope and are still under way: in a domain that is bound to a system group they come
before the arrival that follows them (R169, R236). -/
def State.sysRelIds (s : State) (c : CtxId) : List Nat :=
  (s.flight.filter fun f => f.ctx == c && !f.performed && f.rel && f.scope == 4).map (·.id)
/-- The context's arrival at the next barrier of a domain: its stores are sent, and its core arrives with its last context. -/
def State.arrive (s : State) (c : CtxId) (l : Launch) (dom : Nat) : State :=
  let s := s.boundary c
  let s := s.setCtx c { s.ctx c with again := none }
  let b := Tab.get l.barriers dom {}
  let e := (c, s.storeIds c ++ if (s.binding c.core.pyl dom).isSome then s.sysRelIds c else [])
  let b := if b.closedFor c.core then { b with late := b.late ++ [e] } else { b with ctxs := b.ctxs ++ [e] }
  (s.setLaunch { l with barriers := Tab.set l.barriers dom b }).tryArrive c.core
/-- Fields of PHASE, PARRIVE and XBEGIN. -/
def phaseSig (b : Nat) (ex : Bool) : Sig := { b := if ex then rd .x b else none, db := ex, svc := false }

/-- PHASE (R356). -/
def execPhase (b : Nat) (ex : Bool) (s : State) : Host.Outcome State Fault Refusal :=
  word (phaseSig b ex) s fun o t => do
    let c := t.cur
    let dom := t.domSel c ex o.b
    let l ← t.domainOf c dom
    t.noParrive c dom
    if (t.ctx c).timed.isSome then throw (.retry (.barrier dom false))
    pure (.left ((t.arrive c l dom).sleep c (.barrier dom false)))
/-- PARRIVE (R356). -/
def execParrive (b : Nat) (ex : Bool) (s : State) : Host.Outcome State Fault Refusal :=
  word (phaseSig b ex) s fun o t => do
    let c := t.cur
    let dom := t.domSel c ex o.b
    let l ← t.domainOf c dom
    t.noParrive c dom
    if (t.ctx c).timed.isSome then throw (.retry (.barrier dom false))
    let t := t.setCtx c { t.ctx c with parrive := some (dom, false) }
    pure (.done (t.arrive c l dom))
/-- PWAIT (R356): at once when the barrier has been released. One whose barrier was withdrawn arrives at the next one (R455). -/
def execPwait (s : State) : Host.Outcome State Fault Refusal :=
  word { svc := false } s fun _ t =>
    let c := t.cur
    match (t.ctx c).parrive with
    | none => match (t.ctx c).again with
      | none => trap 51 4 (t.core c.core).bdom
      | some dom => do
        let l ← t.domainOf c dom
        if (t.ctx c).timed.isSome then throw (.retry .pwait)
        pure (.left (((t.setCtx c { t.ctx c with parrive := some (dom, false) }).arrive c l dom).sleep c .pwait))
    | some (_, true) => .ok (.done (t.setCtx c { t.ctx c with parrive := none }))
    | some (_, false) => .error (.retry .pwait)
/-- BDOM (R357, R93). -/
def execBdom (a : Nat) (s : State) : Host.Outcome State Fault Refusal :=
  word { a := rd .x a, da := true, svc := false } s fun o t => do
    let c := t.cur
    let dom := o.a % 64
    match t.launchOf c.core with
    | some l => if dom ≠ 0 ∧ !bit l.dmask dom then trap 51 1 dom
    | none => pure ()
    pure (.done (t.setCore c.core { t.core c.core with bdom := dom }))
/-- BEXP (R358): posted once the accesses before it that a release covers are performed; BARRIER 8 for a fifth. -/
def execBexp (a b : Nat) (s : State) : Host.Outcome State Fault Refusal :=
  word { a := rd .x a, b := rd .x b, da := true, db := true, scope := true, svc := false } s fun o t => do
    let c := t.cur
    let dom := (t.core c.core).bdom
    let l ← t.domainOf c dom
    let bar := Tab.get l.barriers dom {}
    let closed := bar.due.isSome || bar.sysArrived
    if ((if closed then bar.nextExps else bar.exps).filter (·.core == c.core)).length ≥ 4 then trap 51 8 dom
    let p ← t.aim c o.a 8 0 8 .f false false
    awaitIds (o.releases t c)
    let v := Mem.read t.mem p.key 8
    let e : Expect := { core := c.core, pa := p.key, thr := o.b, met := if o.b ≤ v then some t.cyc else none, at_ := t.cyc }
    let bar := if closed then { bar with nextExps := bar.nextExps ++ [e] } else { bar with exps := bar.exps ++ [e] }
    let t := t.setLaunch { l with barriers := Tab.set l.barriers dom bar }
    let h := homeOf p.key
    pure (.done (t.setHome h { t.home h with regs := (t.home h).regs ++ [{ pa := p.key, home := none, va := o.a, last := v }] }))
/-- XBEGIN (R359, R94): BARRIER 3 on a module domain, and for a second one of the core at one barrier. -/
def execXbegin (b : Nat) (ex : Bool) (s : State) : Host.Outcome State Fault Refusal :=
  word { phaseSig b ex with deck := false } s fun o t => do
    let c := t.cur
    let dom := t.domSel c ex o.b
    let l ← t.domainOf c dom
    let bar := Tab.get l.barriers dom {}
    if !l.pylonDomain dom ∨ bar.timed c.core then trap 51 3 dom
    t.noParrive c dom
    if (t.ctx c).timed.isSome then throw (.retry (.barrier dom true))
    let l := { l with barriers := Tab.set l.barriers dom (bar.addTimed c.core) }
    pure (.left ((t.arrive c l dom).sleep c (.barrier dom true)))
/-- XEND (R359, R99). -/
def execXend (s : State) : Host.Outcome State Fault Refusal :=
  word { deck := false, svc := false } s fun _ t => .ok (.done (t.setCtx t.cur { t.ctx t.cur with timed := none }))

/-- The payload of PREDUCE (R360, R418): 64 bytes of the issuer's own pool, or a deck core's local memory. It comes after the
context's accesses at that port. -/
def State.payloadKey (s : State) (c : CtxId) (va : Nat) : Chk Nat := do
  if bits va 63 60 = 15 then s.noControl c va
  let sp := bits va 63 60
  if sp = 7 then s.windowCheck c va true
  if va % 64 ≠ 0 then trap 5 0 va
  if sp = 4 ∨ sp = 5 ∨ sp = 7 ∨ (sp = 12 ∧ c.core.kind = .deck) then
    let p ← s.localPlace c va true
    if p.owner ≠ some c.core then trap 17 7 va
    awaitIds (s.ahead (p.access c .load .l va 64))
    pure p.key
  else trap 17 7 va
/-- PREDUCE (R360, R237). -/
def execPreduce (a b : Nat) (ex : Bool) (ty op : Nat) (s : State) : Host.Outcome State Fault Refusal :=
  word { phaseSig b ex with a := rd .x a, da := true } s fun o t => do
    let c := t.cur
    let dom := t.domSel c ex o.b
    let l ← t.domainOf c dom
    t.noParrive c dom
    if (t.ctx c).timed.isSome then throw (.retry (.barrier dom false))
    let key ← t.payloadKey c o.a
    let bar := Tab.get l.barriers dom {}
    let con : Contrib := { ctx := c, op := op, ty := ty, key := key, va := o.a }
    let l := { l with barriers := Tab.set l.barriers dom (bar.addContrib c.core con) }
    pure (.left ((t.arrive c l dom).sleep c (.barrier dom false)))

/-- The payloads of an arriving core are read (R360); one that meets poison is ECC_UNCORRECTABLE, and contributes nothing (R429). -/
def State.payloads (s : State) (u : CoreId) (b : Barrier) : State × Barrier :=
  let bad (k : Contrib) : Option Nat := if k.ctx.core = u then s.poisoned k.key 64 else none
  let read (k : Contrib) : Contrib := if k.ctx.core = u then { k with val := s.rdMem k.key 64 } else k
  (b.contribs.foldl (fun s k => match bad k with
    | some p => s.pendAsync k.ctx (eccTrap (k.va + (max p k.key - k.key)) 0 0)
    | none => s) s,
   { b with contribs := (b.contribs.filter fun k => (bad k).isNone).map read })
/-- CORE_ARRIVAL (R91, R360, R455, R461, R463): the core's contexts have come and their stores are performed. -/
def execCoreArrival (s : State) : Host.Outcome State Fault Refusal :=
  let u := s.arg.ctx.core
  let dom := s.n 0
  match s.launchOf u with
  | none => done s
  | some l =>
    if !s.coreReady l u dom then done s else
    let (s, b) := s.payloads u (Tab.get l.barriers dom {})
    let l := { l with barriers := Tab.set l.barriers dom { b with cores := b.cores ++ [(u, s.cyc)], first := some (b.first.getD s.cyc) } }
    let s := s.setLaunch l
    let bto := Mem.read s.mem (ctlBase + 117440520) 4
    let s := if b.first = none ∧ bto ≠ 0 then s.after bto .barrierTimeout { ns := [l.id, dom, s.cyc] } else s
    done (s.tryRelease l dom)

/-! ### The reduction of PREDUCE (R237) -/

/-- Two values of a payload joined: op 0 sum, 1 max, 2 min; type 0 FP32, 1 FP64, 2 INT64. -/
def redPair (op ty x y : Nat) : Nat :=
  if ty = 2 then
    if op = 0 then (x + y) % 18446744073709551616
    else if (decide (sext x 64 ≤ sext y 64)) == (op == 1) then y else x
  else
    let k := if ty = 0 then fp32 else fp64
    let v := if op = 0 then (addVal .rne (k.decode x) (k.decode y)).1 else (minmax (op == 1) (k.decode x) (k.decode y)).1
    (k.round .rne v).1
/-- Join values pair by pair in an order that the free value picks, j pairs having been joined. -/
def redFree (f : Nat → Nat → Nat) (pick : Nat → Nat) : Nat → Nat → List Nat → Nat
  | 0, _, l => l.headD 0
  | n + 1, j, l =>
    match l with
    | [] => 0
    | [x] => x
    | l =>
      let i := pick (2 * j) % l.length
      let m := l.eraseIdx i
      let k := pick (2 * j + 1) % m.length
      redFree f pick n (j + 1) (f (l.getD i 0) (m.getD k 0) :: m.eraseIdx k)
/-- The result over all contributions. -/
def redAll (op ty tag : Nat) (vals : List Nat) : Nat :=
  let w := if ty = 0 then 32 else 64
  ofLanes w ((upFrom 0 (512 / w)).map fun k =>
    redFree (redPair op ty) (fun j => Config.sumOrder tag (k * 65536 + j)) vals.length 0 (vals.map (lane · w k)))
/-- PREDUCE_RESULT (R237): the result over every contributor's 64 bytes; BARRIER 5 where op or type differ. -/
def State.reduceOut (s : State) (dom : Nat) (cs : List Contrib) (remote : List (Nat × Nat × Nat)) : State :=
  match cs with
  | [] => s
  | k :: _ =>
    if cs.any (fun e => e.op != k.op || e.ty != k.ty) || remote.any (fun e => e.1 != k.op || e.2.1 != k.ty) then
      cs.foldl (fun s e => s.pendAsync e.ctx { cause := 51, detail := 5, val := dom }) s
    else
      let v := redAll k.op k.ty s.free (cs.map (·.val) ++ remote.map (·.2.2))
      cs.foldl (fun s e => s.wrMem e.key 64 v (2 ^ 64 - 1) (some e.ctx)) { s with free := s.free + 1 }

/-! ### Release (R92, R93, R167, R236 to R242) -/

/-- The barrier that a context waits for or has arrived at has been released: it goes on (R92, R94, R356). -/
def State.releaseCtx (s : State) (dom : Nat) (c : CtxId) : State :=
  let x := s.ctx c
  match x.parrive with
  | some (_, _) => s.setCtx c { x with parrive := some (dom, true) }
  | none =>
    match x.wait with
    | .barrier _ timed =>
      if x.st = .stopped then s.setCtx c { x with raised := true }
      else if x.st = .waiting then
        let s := s.wake c
        if timed then
          (s.setCtx c { s.ctx c with timed := some (dom, s.cyc + 1) }).at_ (s.cyc + 65537) .scheduleLimit
            { ctx := c, ns := [s.cyc + 1] }
        else s
      else s
    | _ => s
/-- IMBALANCE_RECORD (R240, R461): the four words. -/
def imbWords (cores : List (CoreId × Nat)) : List Nat :=
  let early := cores.foldl (fun m e => min m e.2) ((cores.headD (⟨.span, 0, 0, 0⟩, 0)).2)
  let last := cores.foldl (fun m e => if m.2 ≤ e.2 then e else m) (cores.headD (⟨.span, 0, 0, 0⟩, 0))
  [early, last.2, cores.foldl (fun n e => n + (e.2 - early)) 0,
   cores.length * 4294967296 + (⟨last.1, 0⟩ : CtxId).place % 262144 / 16 * 16]
/-- The stop word that governs a launch (R239). -/
def Launch.stopKey (l : Launch) : Nat := ctlBase + 67108864 + firstPylon l.pyls * 256 + 24
/-- Will the superstep's signature differ from a replay's log, with STOP set (R460)? -/
def State.signStops (s : State) (l : Launch) : Bool :=
  (upFrom 0 8).any fun p => bit l.pyls p && bit (Mem.read s.mem (replayBlock p) 8) 1 && match s.logNext p with
    | some e => e != (logWord 0 10, (BitVec.ofNat 64 (s.pylon p).signAcc).toNat)
    | none => false
/-- Does the release of domain 0 that comes next land a precise stop (R239)? One that a difference of signatures asks for lands at the
release that finds it (R460). -/
def State.stopLands (s : State) (l : Launch) : Bool :=
  let w := Mem.read s.mem l.stopKey 8
  (bit w 63 && !bit w 62 && decide (w % 4294967296 ≤ (s.core ((Tab.get l.doms 0 []).headD ⟨.span, 0, 0, 0⟩)).sstep.toNat + 1)) ||
    s.signStops l
/-- Have engine commands of a core, or at its matrix unit, not ended? -/
def State.engineLeft (s : State) (u : CoreId) : Bool :=
  !(s.core u).mq.isEmpty || (s.core u).down.head?.any (·.tag == 16447) ||
  (s.cluster u.cluster).copies.any (fun r => r.ctx.core == u && r.job.isNone) || (s.cluster u.cluster).gq.any fun g => g.ctx.core == u
/-- Engine commands of the members that have not ended. -/
def State.commandsLeft (s : State) (l : Launch) : Bool := (Tab.get l.doms 0 []).any (s.engineLeft ·)
/-- What the release of domain 0 does beside: the imbalance record, the superstep's signature, a precise stop that lands. -/
def State.releaseZero (s : State) (l : Launch) (b : Barrier) (lands : Bool) : State :=
  let ws := imbWords b.cores
  let last := (b.cores.foldl (fun m e => if m.2 ≤ e.2 then e else m) (b.cores.headD (⟨.span, 0, 0, 0⟩, 0))).1
  let members := Tab.get l.doms 0 []
  let put (e : CtxId × Ctx) : CtxId × Ctx :=
    if members.contains e.1.core && e.2.live then
      (e.1, { e.2 with imb0 := Word.ofN (ws.getD 0 0), imb1 := Word.ofN (ws.getD 1 0), imb2 := Word.ofN (ws.getD 2 0),
                       imb3 := Word.ofN (ws.getD 3 0) })
    else e
  let s : State := { s with ctxs := s.ctxs.map put }
  let n := (s.core (if b.cores.isEmpty then members.headD last else last)).sstep.toNat
  let pyls := (upFrom 0 8).filter (bit l.pyls ·)
  let s := pyls.foldl (fun s p => (upFrom 0 4).foldl (fun s j => s.traceFor (some l) p n (⟨last, 0⟩ : CtxId).place (j + 1) (ws.getD j 0)) s) s
  let s := pyls.foldl (fun s p =>
    let w := Mem.read s.mem (ctlBase + 67112960 + p * 256) 8
    if bit w 2 || bit w 0 then
      let sig := BitVec.ofNat 64 (s.pylon p).signAcc
      (s.setPylon p { s.pylon p with signature := sig, signAcc := 0 }).recordFor (some l) p n 0 10 sig.toNat
    else s) s
  if lands then
    let w := Mem.read s.mem l.stopKey 8
    let s := { s with mem := Mem.write s.mem l.stopKey 8 (w ||| 4611686018427387904) }
    let s := match s.launch l.id with
      | some l => s.setLaunch { l with stopHeld := true }
      | none => s
    s.traceFor (some l) (firstPylon l.pyls) n 0 5 n
  else s
/-- The release of the current barrier of a domain (R92, R93, R167): every member sees it in this cycle. -/
def State.release (s : State) (l : Launch) (dom : Nat) (remote : List (Nat × Nat × Nat)) : State :=
  let b := Tab.get l.barriers dom {}
  let members := Tab.get l.doms dom []
  let lands := dom == 0 && s.stopLands l
  let s := s.setLaunch { l with barriers := Tab.set l.barriers dom b.next }
  let step (e : CoreId × Core) : CoreId × Core :=
    if members.contains e.1 && e.2.bdom == dom then (e.1, { e.2 with sstep := e.2.sstep + 1 }) else e
  let snap (e : CtxId × Ctx) : CtxId × Ctx :=
    if members.contains e.1.core && e.2.live then (e.1, { e.2 with snap := [], ahead := [], snapAt := s.cyc }) else e
  let unread (f : Access) : Access := if members.contains f.ctx.core then f.unread else f
  let s : State := { s with cores := s.cores.map step, ctxs := s.ctxs.map snap, flight := s.flight.map unread }
  let s := b.exps.foldl (fun s e =>
    let h := homeOf e.pa
    s.setHome h { s.home h with regs := (s.home h).regs.filter fun r => r.pa != e.pa || r.home.isSome }) s
  let s := s.reduceOut dom b.contribs remote
  let s := b.ctxs.foldl (fun s e => s.releaseCtx dom e.1) s
  let s := if dom = 0 then s.releaseZero l b lands else s
  b.late.foldl (fun s e => s.tryArrive e.1.core) s

/-- BARRIER_RELEASE (R92): when it is due; a precise stop's waits for the members' commands (R239). -/
def execBarrierRelease (s : State) : Host.Outcome State Fault Refusal :=
  let dom := s.n 1
  match s.launch (s.n 0) with
  | none => done s
  | some l =>
    let b := Tab.get l.barriers dom {}
    match b.due with
    | none => done s
    | some t =>
      if s.cyc < t then done s
      else if dom = 0 ∧ s.stopLands l ∧ s.commandsLeft l then
        done ((s.setLaunch { l with barriers := Tab.set l.barriers dom { b with due := some (s.cyc + 1) } }).after 1 .barrierRelease s.arg)
      else done (s.release l dom [])

/-- Contributions of other modules that a system release brings: op, type and payload (R236, R237). -/
def triples : List Nat → List (Nat × Nat × Nat)
  | a :: b :: c :: r => (a, b, c) :: triples r
  | _ => []
/-- SYSTEM_BARRIER_RELEASE (R236, R154, R239): of a group whose domain has arrived here; remote line caches are invalidated. A precise
stop's waits for the members' commands. -/
def execSystemBarrierRelease (s : State) : Host.Outcome State Fault Refusal :=
  let mine := s.sysArr.filter (·.1 == s.n 0)
  let remote := triples (s.arg.ns.drop 1)
  if mine.any (fun e => e.2.2 == 0 && (s.launch e.2.1).any fun l => s.stopLands l && s.commandsLeft l) then
    done (s.after 1 .systemBarrierRelease s.arg)
  else done (mine.foldl (fun s e => match s.launch e.2.1 with
    | none => s
    | some l =>
      let pyls := (Tab.get l.doms e.2.2 []).map (·.pyl)
      let s : State := { s with pylons := s.pylons.map fun y => if pyls.contains y.1 then (y.1, { y.2 with rlc := [] }) else y }
      s.release l e.2.2 remote) { s with sysArr := s.sysArr.filter (·.1 != s.n 0) })

/-- A barrier is withdrawn (R455): every arrival is void, and its contexts take BARRIER out of their waits. A PWAIT that is issued again
arrives afresh. -/
def State.withdraw (s : State) (l : Launch) (dom detail : Nat) : State :=
  let b := Tab.get l.barriers dom {}
  let s := s.setLaunch { l with barriers := Tab.set l.barriers dom b.next }
  let s : State := { s with sysArr := s.sysArr.filter fun e => !(e.2.1 == l.id && e.2.2 == dom) }
  let s := b.ctxs.foldl (fun s e =>
    let x := s.ctx e.1
    let waits : Bool := match x.wait with
      | .barrier d _ => d == dom
      | .pwait => true
      | _ => false
    let x := { x with parrive := none, again := if x.wait == .pwait then some dom else x.again }
    let x := if waits then
        let pc := x.resume
        { x with st := if x.st = .waiting then .ready else x.st, wait := .none, wasWaiting := false, pc := pc,
                 chainImm := none, chainMod := none, chainPc := none }
      else x
    (s.setCtx e.1 x).pendAsync e.1 { cause := 51, detail := detail, val := dom }) s
  b.late.foldl (fun s e => s.tryArrive e.1.core) s
/-- BARRIER_TIMEOUT (R455): a barrier that is not released BTO cycles after its first arrival. -/
def execBarrierTimeout (s : State) : Host.Outcome State Fault Refusal :=
  match s.launch (s.n 0) with
  | none => done s
  | some l => if (Tab.get l.barriers (s.n 1) {}).first = some (s.n 2) then done (s.withdraw l (s.n 1) 6) else done s

/-- SCHEDULE_LIMIT (R449): SLOT 7 at schedule cycle 65,536. -/
def execScheduleLimit (s : State) : Host.Outcome State Fault Refusal :=
  let c := s.arg.ctx
  match (s.ctx c).timed with
  | some (_, t) => if t = s.n 0 then done (s.takeTrap c { cause := 48, detail := 7, val := 65536 } (s.ctx c).resume 0) else done s
  | none => done s

/-! ### Links and FIFOs (R96, R102) -/

/-- LINK_VALUE_ARRIVAL (R96): the value appears in the link register, over whatever stood there unread. -/
def execLinkValueArrival (s : State) : Host.Outcome State Fault Refusal :=
  let u := s.arg.ctx.core
  let v : LinkVal := { val := BitVec.ofNat 1024 (s.n 1), tag := BitVec.ofNat 16 (s.n 2) }
  done (s.setCore u { s.core u with links := Tab.set (s.core u).links (s.n 0) v })
/-! ### Order, watches, time, events -/

/-- FENCE.O (R354, R170): marks the accesses that every later one follows. -/
def execFenceO (s : State) : Host.Outcome State Fault Refusal :=
  word {} s fun _ t =>
    let mark (f : Access) : Access := if f.ctx = t.cur ∧ f.fenced then { f with fence := true } else f
    .ok (.done { t with flight := t.flight.map mark })
/-- SNAPINV (R364, R153). -/
def execSnapinv (s : State) : Host.Outcome State Fault Refusal := word {} s fun _ t => .ok (.done (t.snapBoundary t.cur))

/-- Arm a watch entry (R181, R182): the entry armed least recently makes room for a 33rd of the cluster (WATCH_EVICT). -/
def State.armWatch (s : State) (c : CtxId) (n key va deadline : Nat) : State :=
  let w : Watch := { armed := decide (deadline = 0 ∨ s.cyc < deadline), key := key, va := va, deadline := deadline,
                     expired := decide (deadline ≠ 0 ∧ deadline ≤ s.cyc) }
  let s := s.setCtx c ((s.ctx c).setWatch n w)
  let k := c.core.cluster
  let cl := s.cluster k
  let order := (cl.watchOrder.filter fun e => e != (c, n) && ((s.ctx e.1).watchAt e.2).armed) ++ [(c, n)]
  let (s, order) := if order.length > 32 then
      match order with
      | e :: rest => (s.setCtx e.1 ((s.ctx e.1).setWatch e.2 { (s.ctx e.1).watchAt e.2 with armed := false, evicted := true }), rest)
      | [] => (s, [])
    else (s, order)
  s.setCluster k { cl with watchOrder := order }
/-- MON (R361, R181): the doubleword is read and the entry armed in one access. -/
def execMon (d a b n : Nat) (s : State) : Host.Outcome State Fault Refusal :=
  word { d := wr .x d, a := rd .x a, b := rd .x b, dd := true, da := true, db := true } s fun o t => do
    let c := t.cur
    let sp := bits o.a 63 60
    let kind : AccKind := if sp = 4 ∨ sp = 5 ∨ sp = 12 then .l else .f
    let p ← t.aim c o.a 8 0 8 kind false false
    let dst := o.m.dst
    let f : Access := { p.access c .load kind o.a 8 with dcls := if dst ≠ 0 then 7 else if d = 0 then 0 else 1, dreg := if dst = 0 then d else dst,
                                                          asid := t.spaceOf c }
    t.loadAim c p f
    let deadline := if o.b = 0 then 0 else t.cyc + o.b
    let t := if o.b = 0 then t else t.at_ deadline .mwaitTimeout { ctx := c, ns := [n, deadline] }
    let f : Access := { f with act := .mon n deadline }
    let t := if dst = 0 then t.cancel c 1 d else t
    if ← t.atOnce p f then
      let t := (t.markSeen c p.key 8).armWatch c n p.key o.a deadline
      if (t.poisoned p.key 8).isSome then pure (.done (t.pendAsync c (eccTrap o.a f.dcls f.dreg)))
      else if dst ≠ 0 then pure (.done (t.loadNow f (t.rdMem p.key 8) 4))
      else pure (.done ((t.wx c d (t.rdMem p.key 8)).later c 1 d))
    else
      let t := match p.owner with
        | some u => if u = c.core then t else t.wakeCluster u.cluster
        | none => t
      pure (.done (t.send f))
/-- MWAIT_TIMEOUT (R182): the entry's timeout expires. -/
def execMwaitTimeout (s : State) : Host.Outcome State Fault Refusal :=
  let c := s.arg.ctx
  let w := (s.ctx c).watchAt (s.n 0)
  if w.armed && decide (w.deadline = s.n 1) && (s.ctx c).st != .stopped then
    done (s.setCtx c ((s.ctx c).setWatch (s.n 0) { w with armed := false, expired := true }))
  else done s
/-- MWAIT (R182, R361): the mask, and the entries named in it are disarmed. A wake-up on a copy's stamp passes a snapshot boundary
(R177, R398). -/
def execMwait (d : Nat) (s : State) : Host.Outcome State Fault Refusal :=
  word { d := wr .x d, dd := true } s fun o t =>
    let c := t.cur
    let x := t.ctx c
    if t.mwaitDone c then
      let clr (w : Watch) : Watch := { w with fired := false, expired := false, evicted := false, mark := false }
      let y := { x with watch0 := clr x.watch0, watch1 := clr x.watch1, watch2 := clr x.watch2, watch3 := clr x.watch3, spurious := false }
      let t := t.setCtx c y
      retX (if (upFrom 0 4).any fun n => (x.watchAt n).fired && (x.watchAt n).mark then t.snapBoundary c else t) c o d x.watchMask
    else .error (.retry .mwait)
/-- WAITT (R362). -/
def execWaitt (a : Nat) (s : State) : Host.Outcome State Fault Refusal :=
  word { a := rd .x a, da := true } s fun o t =>
    let c := t.cur
    if o.a ≤ t.cyc then .ok (.done t)
    else if (t.ctx c).timed.isSome then .error (.retry (.waitt o.a))
    else
      let t := t.sleep c (.waitt o.a)
      .ok (.left (t.at_ o.a .waittExpiry { ctx := c, ns := [(t.ctx c).waitNo] }))
/-- WAITT_EXPIRY (R362). -/
def execWaittExpiry (s : State) : Host.Outcome State Fault Refusal :=
  done (s.heldIf s.arg.ctx .waittExpiry fun s => if s.inWait s.arg.ctx (s.n 0) then s.wake s.arg.ctx else s)
/-- EWAIT (R363, R180): a count of the line, or the raise that completed this waiter. -/
def execEwait (a : Nat) (s : State) : Host.Outcome State Fault Refusal :=
  word { other := 2, svc := false } s fun _ t =>
    let c := t.cur
    let k := c.core.cluster
    let cl := t.cluster k
    let n := Tab.get cl.ev a 0
    if (t.ctx c).raised then .ok (.done t)
    else if n ≠ 0 then .ok (.done (t.setCluster k { cl with ev := Tab.set cl.ev a (n - 1) }))
    else if (t.ctx c).timed.isSome then .error (.retry (.ewait a))
    else .ok (.left ((t.setCluster k { cl with evWait := cl.evWait ++ [(a, c)] }).sleep c (.ewait a)))

end Sys2Proof.Machine
end

