-- ==== Sys2Proof/Machine/Control.lean ====
section
/-! DEFINITION. Control space: what its words read as and what a write of one sets going (R6, R7, R20, R135, R143, R229 to
R239, R386, R387, R412, R430, R431, R446, R448, R455, R458, R460), and core saves (R226, R456). -/

namespace Sys2Proof.Machine

/-! ### Fields -/

/-- Bits hi to lo of a doubleword as a mask. -/
def bitMask (hi lo : Nat) : Nat := 2 ^ (hi + 1) - 2 ^ lo
/-- The bits that a write replaces in a control word without a behaviour of its own (R6, R7). -/
def ctlWritable (o : Nat) : Nat :=
  if 4096 ≤ o ∧ o < 4160 then bitMask 8 0
  else if (4352 ≤ o ∧ o < 4416) ∨ o = 4544 then bitMask 63 8 + 1
  else if 4608 ≤ o ∧ o < 5120 then (if o % 16 = 0 then bitMask 63 63 + bitMask 39 16 else bitMask 39 16)
  else if 16777216 ≤ o ∧ o < 50331648 ∧ o % 65536 < 512 then bitMask 8 0
  else if 50331648 ≤ o ∧ o < 50333696 then (if o % 32 = 24 then bitMask 35 0 else bitMask 47 16)
  else if o = 50335744 then bitMask 7 0
  else if o = 50343936 ∨ o = 117440512 ∨ o = 117440520 then bitMask 31 0
  else if 50352128 ≤ o ∧ o < 50352256 then bitMask 63 63 + bitMask 8 0
  else if 50356224 ≤ o ∧ o < 50360320 then bitMask 63 63 + bitMask 3 0
  else bitMask 63 0
/-! ### Reads -/

/-- Row word and summary word of the capability map (R20). -/
def capRow (p cy : Nat) : Nat := maskOf 16 fun cx => enabled p cy cx
def capSummary (p : Nat) : Nat :=
  ((upFrom 0 512).filter fun k => enabled p (k / 16) (k % 16)).length + Config.fuseStack p % 4 * 65536
/-- The quiesce word of a home (R135). -/
def State.quiesceWord (s : State) (h : Nat) : Nat :=
  s.ctl (homeBlock h + 2048) % 2 + if (s.home h).job.isNone then 2 else 0
/-- The row repair word of a home (R448). -/
def State.repairWord (s : State) (h : Nat) : Nat :=
  let m := s.home h
  (if m.repairBusy then 2 ^ 62 else 0) + (if m.repairFail then 2 ^ 61 else 0) + m.spare * 2 ^ 54
/-- What a read of a control word returns (R20, R135, R387, R415, R448). -/
def State.ctlRead (s : State) (o : Nat) : Nat :=
  if 65536 ≤ o ∧ o < 67584 then capRow ((o - 65536) / 256) (o % 256 / 8)
  else if 67584 ≤ o ∧ o < 67648 then capSummary ((o - 67584) / 8)
  else if 83886080 ≤ o ∧ o < 83886592 then 0
  else if 16777216 ≤ o ∧ o < 50331648 then
    let h := (o - 16777216) / 65536
    if o % 65536 = 2048 then s.quiesceWord h else if o % 65536 = 2080 then s.repairWord h else s.ctl o
  else s.ctl o

/-! ### Words whose write has an effect of its own -/

/-- PRECISE_STOP_ARM and PRECISE_STOP_LIFT (R239): ARM and TARGET of pylon p's stop word are written; ARM = 0 lifts a stop that
has landed, and the members issue again from the next cycle. -/
def State.stopWrite (s : State) (p v : Nat) : State :=
  let o := 67108864 + p * 256 + 24
  let held := bit (s.ctl o) 62
  let arm := bit v 63
  let s := s.setCtl o (v % 4294967296 + (if arm then 2 ^ 63 else 0) + if held && arm then 2 ^ 62 else 0)
  if held && !arm then
    match s.launches.find? fun l => l.stopHeld && firstPylon l.pyls == p with
    | none => s
    | some l =>
      let us := Tab.get l.doms 0 []
      let go (e : CtxId × Ctx) : CtxId × Ctx :=
        if us.contains e.1.core then (e.1, { e.2 with notBefore := max e.2.notBefore (s.cyc + 1) }) else e
      (({ s with ctxs := s.ctxs.map go } : State).setLaunch { l with stopHeld := false }).traceFor (some l) p
        ((s.core (us.headD ⟨.span, 0, 0, 0⟩)).sstep.toNat) 0 6 (s.cyc + 1)
  else s
/-- REPLAY_CONTROL_WRITE (R460): RECORD and REPLAY both set leave both as they are; a replay imposes outcomes afresh. -/
def State.replayWrite (s : State) (p v : Nat) : State :=
  let o := 67112960 + p * 256
  let old := s.ctl o
  let keep := if bit v 0 && bit v 2 then old &&& 5 else v &&& 5
  let s := s.setCtl o (keep + (v &&& 2) + (old &&& 8))
  if bit keep 0 && !bit old 0 then s.setPylon p { s.pylon p with diverged := false } else s
/-- CAPABILITY_EPOCH_ADVANCE (R387). -/
def State.epochWrite (s : State) (p v : Nat) : State := s.setCtl (83886592 + p * 8) (v % 4096)
/-- PIER_QUIESCE_WRITE (R135): with QUIESCE clear, an idle pier takes what waits. -/
def State.quiesceWrite (s : State) (h v : Nat) : State :=
  let s := s.setCtl (homeBlock h + 2048) (v % 2)
  if v % 2 = 0 then s.after 0 .pierJobEnd { ns := [h, 0] } else s
/-- ROW_REPAIR (R448): GO begins a repair; FAIL when no spare is left or the row is repaired already. DEDUCED: a request
while one is in progress has no effect, and a row is 2 KB as a result row is (R140). -/
def State.repairWrite (s : State) (h v : Nat) : State :=
  let m := s.home h
  let row := bits v 39 0 / 2048
  if !bit v 63 || m.repairBusy then s
  else if m.spare = 0 ∨ m.repaired.contains row then s.setHome h { m with repairFail := true }
  else (s.setHome h { m with repairBusy := true, repairFail := false, repairPa := row }).after 1 .rowRepairDone { ns := [h] }
/-- START_GOOD_WRITE (R232): FSC clears and STARTED is set. -/
def State.startGood (s : State) (v : Nat) : State :=
  let s := s.setCtl 4224 v
  if v = 1 then
    { s with fsc := 0, mem := Mem.write s.mem (hostBase + 64) 8 (Mem.read s.mem (hostBase + 64) 8 ||| 1) }
  else s
/-- A doubleword of a partition's capability key (R387), which no read returns. -/
def State.keyWrite (s : State) (p j v : Nat) : State :=
  let k := Tab.get s.capKeys p (List.replicate 64 0)
  let b := (upFrom 0 8).map fun i => v / 256 ^ i % 256
  { s with capKeys := Tab.set s.capKeys p (k.take (8 * j) ++ b ++ k.drop (8 * j + 8)) }
/-- A word without a behaviour of its own (R6, R7) takes its writable fields. VSH takes 1 to 64 (R143). -/
def State.plainWrite (s : State) (o v : Nat) : State :=
  if o = 117440528 then (if 1 ≤ v % 128 ∧ v % 128 ≤ 64 then s.setCtl o (v % 128) else s)
  else s.setCtl o (v &&& ctlWritable o)

/-! ### Core saves (R226, R456) -/

/-- The footprint of a launch in a pool (R213): ranges of physical offsets, from partition word, FP, SLIM and unit. -/
def footprintOf (pw fp slim u : Nat) : List (Nat × Nat) :=
  let win := pw % 16 * 8192
  let low := fp * 65536 - pw / 16 % 4 * 65536
  let lim := if slim = 0 then low else min (slim * 1024) low
  [(0, win), (win, max win lim), (low - 2048, low), (low, fp * 65536)].map fun r => (r.1 + u * 65536, r.2 + u * 65536)
/-- The footprint of a core's launch; a core of no launch has none. -/
def State.footOf (s : State) (k : Core) : List (Nat × Nat) :=
  if k.lid = 0 then [] else footprintOf k.pw k.fp ((s.launch k.lid).elim 0 (·.slim)) k.unit
/-- The footprint of the launch on a core. -/
def State.coreFoot (s : State) (u : CoreId) : List (Nat × Nat) := s.footOf (s.core u)
/-- Do two footprints meet? -/
def footMeet (a b : List (Nat × Nat)) : Bool := a.any fun r => b.any fun q => decide (max r.1 q.1 < min r.2 q.2)
/-- First offset of a cluster's save word. -/
def saveWord (k : Nat) : Nat := 134217728 + k / 512 * 131072 + k % 512 * 256
/-- A save or restore begins (R226): the contexts of the four span cores are stopped first. DEDUCED: a command while one is
busy has no effect, nor has one for a disabled cluster (R17). -/
def State.saveBegin (s : State) (k cmd : Nat) : State :=
  if (s.cluster k).saving.isSome ∨ !enabled (k / 512) (k % 512 / 16) (k % 16) then s else
    let s := (s.setCluster k { s.cluster k with saving := some s.cyc }).setCtl (saveWord k + 16) 1
    let s := if cmd = 1 then (clusterCores k).foldl (fun s u => u.ctxs.foldl State.askStop s) s else s
    s.after 64 .coreSaveDone { ns := [k, cmd] }
/-- CORE_SAVE (R226). -/
def execCoreSave (s : State) : Host.Outcome State Fault Refusal := done (s.saveBegin (s.n 0) 1)
/-- CORE_RESTORE (R226). -/
def execCoreRestore (s : State) : Host.Outcome State Fault Refusal := done (s.saveBegin (s.n 0) 2)
/-! ### Writes -/

/-- A doubleword written to control space: the word's own behaviour, or its writable fields (R6, R20, R226 to R239, R387,
R430, R448, R458, R460). Words that are read only ignore it. -/
def State.ctlWrite (s : State) (o v : Nat) : State :=
  if 65536 ≤ o ∧ o < 67648 then s
  else if o = 4224 then s.startGood v
  else if 16777216 ≤ o ∧ o < 50331648 then
    let h := (o - 16777216) / 65536
    let r := o % 65536
    if r = 2048 then s.quiesceWrite h v
    else if r = 2064 then s.setCtl o (s.ctl o &&& (2 ^ 64 - 1 - v))
    else if r = 2072 then s
    else if r = 2080 then s.repairWrite h v
    else s.plainWrite o v
  else if 50348032 ≤ o ∧ o < 50348176 then s.setCtl o (s.ctl o &&& (2 ^ 64 - 1 - v % 2 ^ 48))
  else if 67108864 ≤ o ∧ o < 67110912 ∧ o % 256 = 24 then s.stopWrite ((o - 67108864) / 256) v
  else if 67112960 ≤ o ∧ o < 67115008 ∧ o % 256 = 0 then s.replayWrite ((o - 67112960) / 256) v
  else if 83886080 ≤ o ∧ o < 83886592 then s.keyWrite ((o - 83886080) / 64) (o % 64 / 8) v
  else if 83886592 ≤ o ∧ o < 83886656 then s.epochWrite ((o - 83886592) / 8) v
  else if 134217728 ≤ o ∧ o < 135266304 then
    let k := (o - 134217728) / 131072 * 512 + o % 131072 / 256
    if o % 256 = 0 then
      let s := s.setCtl o v
      if v = 1 ∨ v = 2 then s.saveBegin k v else s
    else if o % 256 = 8 then s.setCtl o v
    else s
  else s.plainWrite o v

/-- PRECISE_STOP_ARM (R239): pylon and superstep. -/
def execPreciseStopArm (s : State) : Host.Outcome State Fault Refusal :=
  done (s.stopWrite (s.n 0) (2 ^ 63 + s.n 1 % 4294967296))
/-- PRECISE_STOP_LIFT (R239): pylon and the TARGET that the write leaves. -/
def execPreciseStopLift (s : State) : Host.Outcome State Fault Refusal := done (s.stopWrite (s.n 0) (s.n 1 % 4294967296))
/-- REPLAY_CONTROL_WRITE (R460): pylon and value. -/
def execReplayControlWrite (s : State) : Host.Outcome State Fault Refusal := done (s.replayWrite (s.n 0) (s.n 1))
/-- CAPABILITY_EPOCH_ADVANCE (R387): the partition's epoch goes on by one. -/
def execCapabilityEpochAdvance (s : State) : Host.Outcome State Fault Refusal :=
  done (s.epochWrite (s.n 0) (s.ctl (83886592 + s.n 0 * 8) + 1))
/-- PIER_QUIESCE_WRITE (R135): home and value. -/
def execPierQuiesceWrite (s : State) : Host.Outcome State Fault Refusal := done (s.quiesceWrite (s.n 0) (s.n 1))
/-- ROW_REPAIR (R448): home and value. -/
def execRowRepair (s : State) : Host.Outcome State Fault Refusal := done (s.repairWrite (s.n 0) (s.n 1))
/-- ROW_REPAIR_DONE (R448): the map is switched; contents and poison of the row stand, addresses do not change. -/
def execRowRepairDone (s : State) : Host.Outcome State Fault Refusal :=
  let h := s.n 0
  let m := s.home h
  if m.repairBusy then
    done (s.setHome h { m with repairBusy := false, spare := m.spare - 1, repaired := m.repaired ++ [m.repairPa] })
  else done s
/-- START_GOOD_WRITE (R232): the value written. -/
def execStartGoodWrite (s : State) : Host.Outcome State Fault Refusal := done (s.startGood (s.n 0))
/-- CONTROL_WORD_WRITE (R6, R7): offset and value of a control word. -/
def execControlWordWrite (s : State) : Host.Outcome State Fault Refusal :=
  done (if ctlAssigned (s.n 0) then s.ctlWrite (s.n 0) (s.n 1) else s)

/-- The bytes of a doubleword, the lowest first. -/
def bytesLittle (w : Nat) : List Nat := (upFrom 0 8).map fun i => w / 256 ^ i % 256
/-- The control store of a pier as bytes: the entry table, then the micro-words (R135, R231; notes/assumptions/29). -/
def State.controlStore (s : State) (h : Nat) : List Nat :=
  (upFrom 0 64).flatMap (fun j => bytesLittle (s.ctl (homeBlock h + 8 * j))) ++
  (upFrom 0 512).flatMap fun j => bytesLittle (s.ctl (homeBlock h + 4096 + 8 * j))
/-- The first 512 bytes of an attestation report (R231). -/
def State.attestBody (s : State) (part : Nat) (nonce : List Nat) : List Nat :=
  let le := bytesLittle
  le 6076006053455218769 ++ le (1 + part * 4294967296) ++ (upFrom 0 64).map (fun i => nonce.getD i 0 % 256) ++
  sha512 s.bootImg ++ sha512 ((Config.partitionImage s.free part).map (· % 256)) ++ sha512 ((upFrom 0 512).flatMap s.controlStore) ++ (upFrom 0 8).flatMap (fun p => le (capSummary p)) ++ List.replicate 176 0
/-- ATTESTATION_SIGN (R231): partition, the location that the request names for the report, and the nonce's bytes. -/
def execAttestationSign (s : State) : Host.Outcome State Fault Refusal :=
  let body := s.attestBody (s.n 0 % 8) (s.arg.ns.drop 2)
  let all := body ++ (upFrom 0 512).map fun i => Config.signature body i % 256
  done ((all.zip (upFrom 0 1024)).foldl (fun s e => s.wrMem (s.arg.ns.getD 1 0 + e.2) 1 e.1 1 none) { s with free := s.free + 1 })

end Sys2Proof.Machine
end

