-- ==== Sys2Proof/Machine/ViewPlace.lean ====
section
/-! DEFINITION. The view blocks that bytes lie in, their tags, and view-checked reads (07_views R195 to R200; 22_faults_memory R438,
R441). -/

namespace Sys2Proof.Machine

/-! ### The view block that a byte lies in (R441) -/

/-- What a byte of a view's memory belongs to: block row and column, and 0 elements, 1 scales, 2 a tag. -/
structure ViewHit where
  pyl : Nat
  mid : Nat
  view : Nat
  bi : Nat
  bj : Nat
  part : Nat
  deriving DecidableEq, Repr

/-- Bytes of a shard's elements: every local block of it. -/
def View.shardBlocks (w : View) (m : Master) (n : Nat) : Nat :=
  let ns := w.shards.length
  if w.lay = 2 then (w.nbr m * w.nbc m + ns - 1 - n) / ns else (w.nbr m + ns - 1 - n) / ns * w.nbc m
/-- The part of shard n that an address lies in. -/
def View.hitIn (w : View) (m : Master) (p n va : Nat) : List ViewHit :=
  let sh := w.shards.getD n ⟨0, 0, 0⟩
  let k := w.shardBlocks m n
  let mk (q part : Nat) : ViewHit :=
    let (bi, bj) := w.blockOf m n q
    { pyl := p, mid := m.mid, view := w.num, bi := bi, bj := bj, part := part }
  let eb := w.bytes 16384
  let e := if sh.ebase ≤ va ∧ va < sh.ebase + k * eb then
      let o := va - sh.ebase
      if w.lay = 2 then [mk (o / eb) 0]
      else
        let row := w.bytes (w.nbc m * 128)
        [mk (o / row / 128 * w.nbc m + o % row / w.bytes 128) 0]
    else []
  let sc := if w.scaled ∧ sh.sbase ≤ va ∧ va < sh.sbase + k * w.scaleBytes then [mk ((va - sh.sbase) / w.scaleBytes) 1] else []
  let tg := if sh.tbase ≤ va ∧ va < sh.tbase + k * 8 then [mk ((va - sh.tbase) / 8) 2] else []
  e ++ sc ++ tg
/-- Every part of every view of the module that a byte of device memory lies in. -/
def State.viewHits (s : State) (pa : Nat) : List ViewHit :=
  s.pylons.flatMap fun y => y.2.masters.flatMap fun m => (m.views.filter (·.live)).flatMap fun w =>
    match w.pages.find? (·.2 == pa / 65536) with
    | none => []
    | some pg => (upFrom 0 w.shards.length).flatMap fun n => w.hitIn m y.1 n (pg.1 * 65536 + pa % 65536)
/-- The view block of n bytes, or DETAIL 11 or 12 (R441). -/
def State.viewOf (s : State) (pa n : Nat) : Except Nat ViewHit :=
  let hits := (upFrom pa n).map (s.viewHits ·)
  match hits with
  | (h :: _) :: _ =>
    if hits.any (·.isEmpty) then .error 11
    else if h.part = 2 ∨ hits.any fun l => l.any (· != h) then .error 12
    else .ok h
  | _ => .error 11
/-- `tval` of a view cause (R438): identifier word and block index. -/
def viewVal (mid view block : Nat) : Nat := 1048576 + view * 65536 + mid + block * 4294967296

/-! ### Tags (R195) -/

/-- A view block tag. -/
def tagWord (stamp : Nat) (busy faulted valid : Bool) (pol view mid : Nat) : Nat :=
  stamp % 4294967296 * 4294967296 + (if busy then 16777216 else 0) + (if faulted then 8388608 else 0) +
  (if valid then 4194304 else 0) + pol * 1048576 + view * 65536 + mid
/-- Stamp of a master block at its stamp home. -/
def Master.stamp (m : Master) (b : Nat) : Nat := (Tab.get m.stamps b 0).toNat
/-- What a view-checked read of a block finds (R196, R438). -/
inductive ViewSees where
  | current | stale | wait
  | fault (cause detail : Nat)
  deriving DecidableEq, Repr
/-- The decision of R196 on a tag and a stamp, with the handle's override or 0. -/
def viewSees (t stamp polo : Nat) : ViewSees :=
  let pol := if polo = 0 then bits t 21 20 else polo - 1
  if bit t 24 then .wait
  else if bit t 22 && !bit t 23 && bits t 63 32 == stamp then .current
  else if bit t 23 then .fault 38 9
  else if pol = 2 then .fault 37 0
  else if pol = 1 ∧ bit t 22 then .stale
  else .wait
/-- `vstale` counts a stale delivery (R196, R199). -/
def State.countStale (s : State) (c : CtxId) : State :=
  let x := s.ctx c
  s.setCtx c { x with vstale := Word.ofN (min (x.vstale.toNat + 1) 4294967295) }
/-- View-checked reads waiting on a tag are retried when a tag is written (R196). -/
def State.viewWake (s : State) : State :=
  (s.flight.filter fun f => f.kind == .v && f.parked && !f.performed).foldl (fun s f =>
    s.after 0 .accessAtOrderingPoint { ctx := f.ctx, ns := [f.id] }) s

end Sys2Proof.Machine
end

