-- ==== Sys2Proof/Machine/Memory.lean ====
section
/-! DEFINITION. Scalar loads, stores and atomics (14_isa_memory R349 to R353), the steps of an access at its ordering point and
on its way back (R147, R153, R160, R196, R398, R423, R463), empty rows (R140, R431), the Lommer link (R234, R235, R432, R458)
and soft errors (R429, R430). -/

namespace Sys2Proof.Machine

/-! ### Atomic functions (R351) -/

/-- One FP32 lane of AFADD. -/
def afaddLane (old b : Nat) : Nat := (fp32.round .rne (addVal .rne (fp32.decode old) (fp32.decode b)).1).1
/-- The new doubleword, or none when nothing is written: function, old value, operand, comparand. -/
def amoNew (f old b d : Nat) : Option Nat :=
  match f with
  | 0 => some ((old + b) % 18446744073709551616)
  | 1 => some (old &&& b)
  | 2 => some (old ||| b)
  | 3 => some (old ^^^ b)
  | 4 => some (if sext b 64 < sext old 64 then b else old)
  | 5 => some (if sext old 64 < sext b 64 then b else old)
  | 6 => some (min old b)
  | 7 => some (max old b)
  | 8 => some b
  | 9 => if old = d then some b else none
  | 10 => some ((old + 1) % 18446744073709551616)
  | _ => some (afaddLane (old % 4294967296) (b % 4294967296) + afaddLane (old / 4294967296) (b / 4294967296) * 4294967296)

/-! ### Soft errors and row waits -/

/-- The accesses of a word that are under way: this one, and the other lines or lanes of its word. -/
def State.parts (s : State) (f : Access) : List Access :=
  if f.grp = 0 then [f] else s.flight.filter fun g => g.grp == f.grp && g.ctx == f.ctx
/-- A word of whose accesses one has failed ends once all are back: the cause of the lowest that failed is raised, once, and its
destination stays unwritten (R423, R428). -/
def State.endFailed (s : State) (f : Access) : State :=
  let ps := s.parts f
  if ps.any (!·.returned) then s
  else match (ps.filterMap fun g => g.fault.map (g.pos, ·)).foldl (fun (m : Option (Nat × Trap)) e => match m with
      | some x => if e.1 < x.1 then some e else m
      | none => some e) none with
    | none => s
    | some (_, t) =>
      let ids := ps.map (·.id)
      ({ s with flight := s.flight.filter fun g => !ids.contains g.id } : State).pendAsync f.ctx t
/-- An access ends in an asynchronous cause (R423). -/
def State.failAccess (s : State) (f : Access) (t : Trap) : State :=
  let f := { f with fault := some t, performed := true, returned := true }
  (s.setAccess f).endFailed f
/-- DETAIL of an asynchronous cause (R423): class and register of the destination. -/
def Access.dest (f : Access) : Nat := if 1 ≤ f.dcls ∧ f.dcls ≤ 3 then f.dcls * 64 + f.dreg else 0

/-! ### At the ordering point -/

/-- Is a pier's end of a job due at a home in this cycle, or the acceptance of a call for a row (R141, R399)? -/
def State.fillSoon (s : State) (h : Nat) : Bool := s.agenda.any fun e => decide (e.1 ≤ s.cyc) && match e.2.1 with
  | .pierJobEnd => e.2.2.ns.headD 0 == h
  | _ => false
def State.rowSoon (s : State) (row : Nat) : Bool := s.agenda.any fun e => decide (e.1 ≤ s.cyc) && match e.2.1 with
  | .pcallAccept => e.2.2.ns.getD 1 0 == row
  | _ => false
/-- Cycles that a miss of the home's cache adds to what a load or atomic brings back (R147), but to a wait for a row (R140). -/
def Access.missLat (f : Access) : Nat :=
  if f.act ≠ .store ∧ !f.onRow then lineMiss f.key f.n f.id else 0
/-- An access has been performed: its value sets off for its issuer, or its acknowledgement does. -/
def State.performed (s : State) (f : Access) (got : Nat) : State :=
  let s := s.setAccess { f with performed := true, at_ := s.cyc, got := got }
  let back := if f.parked ∧ f.kind = .v ∧ !f.onRow then f.lat else f.lat - f.lat / 2
  s.after (back + f.missLat) (if f.act = .store then .storeAck else .loadValueReturn) { ctx := f.ctx, ns := [f.id] }
/-- A load parks on an empty row (R140), or on a view tag (R196): its timeout is FETO on a row (R431). -/
def State.park (s : State) (f : Access) (row : Bool) : State :=
  let s := s.setAccess { f with parked := true, onRow := row }
  let feto := s.ctl 117440512 % 4294967296
  if row ∧ ¬ f.onRow ∧ feto ≠ 0 then s.after feto .feTimeout { ctx := f.ctx, ns := [f.id, f.id] } else s
/-- Poison met by an access at its ordering point; under a predicate, in its active bytes alone. -/
def State.hitsPoison (s : State) (f : Access) : Option Nat :=
  if s.poison.isEmpty then none
  else if f.act = .load ∧ f.dcls ≠ 1 ∧ f.post % 4 < 2 ∧ f.cmp ≠ 0 then s.poisonedMask f.key f.n f.cmp else s.poisoned f.key f.n

/-- A load or MON performed (R140, R153, R162, R181, R398, R429). -/
def State.doLoad (s : State) (f : Access) : State :=
  if s.emptyRow f.key then s.park f true
  else match s.hitsPoison f with
    | some u => (s.countPoison u).failAccess f { cause := 20, detail := f.dest, val := f.ea }
    | none =>
      let (s, v) := (s.snapFill f).taken f s.marks (s.rdMem f.key f.n)
      match f.act with
      | .mon n deadline => (s.armWatch f.ctx n f.key f.va deadline).performed f v
      | _ => s.performed f v
/-- A view-checked read performed (R196, R429, R438, R441): a stale delivery counts once its bytes are delivered (R199). -/
def State.doViewLoad (s : State) (f : Access) : State :=
  match s.viewOf f.key f.n with
  | .error d => s.failAccess f { cause := 38, detail := d, val := f.ea }
  | .ok h =>
    match (s.master h.mid).bind fun m => (m.view h.view).bind fun w => (w.paOf (w.tagAt m h.bi h.bj)).map fun t => (m, w, t) with
    | none => s.failAccess f { cause := 38, detail := 11, val := f.ea }
    | some (m, w, t) =>
      if (s.poisoned t 8).isSome then (s.countPoison t).failAccess f { cause := 20, detail := f.dest, val := f.ea } else
      let b := w.master m h.bi h.bj
      let blk := h.bi * w.nbc m + h.bj
      match viewSees (s.rdMem t 8) (m.stamp b) 0 with
      | .current => s.doLoad f
      | .stale => if s.emptyRow f.key ∨ (s.hitsPoison f).isSome then s.doLoad f else (s.countStale f.ctx).doLoad f
      | .wait => s.park f false
      | .fault c d => s.failAccess f { cause := c, detail := if d = 0 then f.dest else d, val := viewVal h.mid h.view blk }
/-- An atomic performed (R122, R351, R353, R429): a failed ACAS is a read. In SNAP mode it works on the loan's buffer. -/
def State.doAtomic (s : State) (f : Access) (fn : Nat) : State :=
  match s.poisoned f.key 8 with
  | some u => (s.countPoison u).failAccess f { cause := 20, detail := f.dest, val := f.ea }
  | none =>
    let x := s.ctx f.ctx
    match f.kind, x.grant with
    | .a, some gr =>
      if gr.snap then
        let (hv, hm) := heldOver (gr.buf.map (·.kept)) f.key 8
        let old := mergeBytes (s.rdMem f.key 8) hv hm 8
        (match amoNew fn old f.val f.cmp with
          | some new => s.setCtx f.ctx { x with grant := some { gr with buf := heldPut gr.buf f.key f.va 8 new 255 } }
          | none => s).performed f old
      else
        let old := s.rdMem f.key 8
        let s := s.markSeen f.ctx f.key 8
        (match amoNew fn old f.val f.cmp with
          | some v => (s.wrMem f.key 8 v 255 (some f.ctx)).unsnap f.ctx f.key 8 255
          | none => s).performed f old
    | _, _ =>
      let old := s.rdMem f.key 8
      let s := s.markSeen f.ctx f.key 8
      (match amoNew fn old f.val f.cmp with
        | some v => (s.wrMem f.key 8 v 255 (some f.ctx)).unsnap f.ctx f.key 8 255
        | none => s).performed f old

/-- ACCESS_AT_ORDERING_POINT (R160): the access is performed once those that come before it are; one to a part that is off finds no
answer (R233). -/
def execAccessAtOrderingPoint (s : State) : Host.Outcome State Fault Refusal :=
  match s.access (s.n 0) with
  | none => done s
  | some f =>
    if f.performed then done s
    else if s.waitsFor f.ctx.core f.after then done (s.after 1 .accessAtOrderingPoint s.arg)
    else if (f.act ≠ .store ∧ s.rowSoon (f.key / 2048 * 2048)) ∨ s.yields f.ctx f.key (some f.ctx) then
      done (s.after 0 .accessAtOrderingPoint s.arg)
    else if (keyPylon f.key).any s.off then done s
    else
      let pw := match placeCluster f.key with
        | some k => (s.cluster k).power
        | none => .awake
      match pw with
      | .failed => done (s.failAccess f { cause := 18, detail := 6, val := f.ea })
      | .gated => done (((placeCluster f.key).elim s s.wakeCluster).after 1 .accessAtOrderingPoint s.arg)
      | .waking _ => done (s.after 1 .accessAtOrderingPoint s.arg)
      | .awake => match if f.isLoad then none else s.holdOf f.key f.n with
      | some mid => done (s.holdWrite mid .accessAtOrderingPoint)
      | none =>
        let s := s.arbitrate f.ctx f.key (some f.ctx)
        match f.act with
        | .store =>
          if ctlBase ≤ f.key then done ((s.ctlWrite (f.key - ctlBase) f.val).performed f 0)
          else
            let mask := if f.mask = 0 then 2 ^ f.n - 1 else f.mask
            done ((((s.signStore f.ctx f.val).wrMem f.key f.n f.val mask (some f.ctx)).unsnap f.ctx f.key f.n mask).performed f 0)
        | .atomic fn => done (s.doAtomic f fn)
        | _ =>
          if ctlBase ≤ f.key then done (s.performed f (s.ctlRead (f.key - ctlBase)))
          else if f.kind = .v then done (s.doViewLoad f)
          else done (s.doLoad f)

/-- FE_TIMEOUT (R431): the load is released and the row stays empty; a fill in the same cycle comes first. -/
def execFeTimeout (s : State) : Host.Outcome State Fault Refusal :=
  match s.access (s.n 0) with
  | some f =>
    if s.fillSoon (homeOf f.key) then done (s.after 0 .feTimeout s.arg)
    else if f.parked ∧ f.onRow ∧ ¬ f.performed then done (s.failAccess f { cause := 19, detail := f.dest, val := f.ea })
    else done s
  | none => done s

/-! ### Coming back -/

/-- The doublewords of the line of a peer access that its answer says carry a copy's mark (R398). -/
def Access.markedLine (f : Access) (m : Nat) : List Nat := ((upFrom 0 8).filter (bit m ·)).map fun j => f.va / 64 * 64 + 8 * j
/-- The line that a snapshot load of a peer brings enters its pylon's remote line cache of 65,536 lines (R154), with the marks of a
copy that it carries (R398). -/
def State.rlcFill (s : State) (f : Access) (line marks : Nat) : State :=
  if f.kind = .g ∧ f.act = .load ∧ !f.uncached then
    let y := s.pylon f.ctx.core.pyl
    let b := f.va / 64 * 64
    let l : SnapLine := { key := b, bytes := BitVec.ofNat 512 line, at_ := s.cyc, marks := f.markedLine marks }
    s.setPylon f.ctx.core.pyl { y with rlc := (l :: y.rlc.filter (·.key != b)).take 65536 }
  else s
/-- The failure of a peer access (R432): its reason stands in bits 59:56 of the address. -/
def peerTrap (f : Access) (reason : Nat) : Trap :=
  { cause := 21, detail := f.dest, val := f.ea + reason % 16 * 72057594037927936 }
/-- An arrival or a HALT that waits for stores goes on when the last is acknowledged (R91, R284, R355). -/
def State.acked (s : State) (c : CtxId) : State := (s.settle c.core).tryArrive c.core
/-- The parts of a word's load put together, lowest first. -/
def assemble (fs : List Access) : Nat := fs.foldl (fun v f => v + f.got * 256 ^ f.pos) 0

/-- What an atomic at a peer has written there stands in its pylon's remote line cache (R154, R161). -/
def State.peerWrote (s : State) (f : Access) (old : Nat) : State :=
  match f.act with
  | .atomic fn => match amoNew fn old f.val f.cmp with
    | some v => s.rlcPut f.ctx.core.pyl f.va 8 v 255
    | none => s
  | _ => s
/-- LOAD_VALUE_RETURN (R147, R395, R398, R432): for a peer the value, the reason of a failure, and the marks of a copy that came with
it; a snapshot load's answer is the line of 64 bytes, with a bit for each marked doubleword (R154). The destination is written when
every part of the word's load is back. A peer's answer comes while a port carries it (R234), and after the accesses that come
before. -/
def execLoadValueReturn (s : State) : Host.Outcome State Fault Refusal :=
  match s.access (s.n 0) with
  | none => done s
  | some f =>
    let peer := !f.performed && decide (f.key / 1152921504606846976 = 8) && f.act != .store
    if peer && !s.carried (peerOf f.va) then done s
    else if peer && s.waitsFor f.ctx.core f.after then done (s.after 1 .loadValueReturn s.arg)
    else if peer && s.n 2 != 0 then done (s.failAccess f (peerTrap f (s.n 2)))
    else if !f.performed && !peer then done s
    else
      let line := f.kind == .g
      let v := if line then s.n 1 / 256 ^ (f.va % 64) % 256 ^ f.n else s.n 1
      let mark := if line then marked (f.markedLine (s.n 3)) f.va f.n f.mask else s.n 3 != 0
      let f := if peer then { f with performed := true, got := mergeBytes v f.val f.mask f.n } else f
      let s := if peer then ((if mark then s.snapBoundary f.ctx else s).rlcFill f (s.n 1) (s.n 3)).peerWrote f v else s
      let f := { f with returned := true }
      let s := s.setAccess f
      let parts := s.parts f
      if parts.any fun g => !g.returned then done s
      else if parts.any (·.fault.isSome) then done (s.endFailed f)
      else
        let whole : Access := if f.grp = 0 then f else
          { f with n := parts.foldl (fun n g => n + g.n) 0
                   cmp := if f.post % 4 < 2 then 0 else f.cmp }
        let drop (t : State) : State := { t with flight := t.flight.filter fun g => !(parts.map (·.id)).contains g.id }
        match if f.dcls = 5 ∨ f.dcls = 7 then s.lateLink f.ctx f.dreg else none with
        | some t => done ((drop s).lateTrap f.ctx t f.word)
        | none =>
        match s.deliver whole (assemble parts) with
        | none =>
          done (if s.n 6 = 1 then (drop s).lateTrap f.ctx linkFull f.word
                else s.linkWait f.ctx .loadValueReturn { s.arg with ns := [f.id] } { s.arg with ns := [f.id, 0, 0, 0, 0, 0, 1] })
        | some t =>
          let t := drop t
          done (if f.dcls = 6 ∧ f.dreg < 8 then t.after 1 .streamReadAhead { ctx := f.ctx, ns := [f.dreg] } else t)

/-- STORE_ACK (R463, R432, R234): the acknowledgement, or the failure of a peer store, which is not performed. -/
def execStoreAck (s : State) : Host.Outcome State Fault Refusal :=
  match s.access (s.n 0) with
  | none => done s
  | some f =>
    if f.act ≠ .store ∨ (f.kind = .s ∧ !s.carried (peerOf f.va)) then done s
    else if f.kind = .s ∧ s.waitsFor f.ctx.core f.after then done (s.after 1 .storeAck s.arg)
    else if f.kind = .s ∧ s.n 1 ≠ 0 then done ((s.failAccess f (peerTrap f (s.n 1))).acked f.ctx)
    else if f.kind = .s ∨ f.performed then
      let s := if f.kind = .s then s.rlcPut f.ctx.core.pyl f.va f.n f.val (if f.mask = 0 then 2 ^ f.n - 1 else f.mask) else s
      let t := s.dropAccess f.id
      done (((if f.grp = 0 then none else (t.parts f).head?).elim t t.endFailed).acked f.ctx)
    else done s

/-! ### Issue: LD, ST and atomics -/

/-- Class and number of a scalar load's destination: a link or stream, none for x0, or a register. -/
def ldDest (o : Opnds) (d : Nat) : Nat × Nat :=
  if o.m.dst ≠ 0 then (7, o.m.dst) else if d = 0 then (0, 0) else (1, d)

/-- LD (R349, R350). -/
def execLd (d a : Nat) (k : AccKind) (sz : Nat) (sg : Bool) (off : Nat) (s : State) : Host.Outcome State Fault Refusal :=
  word { d := wr .x d, a := rd .x a, dd := true, imm := true, deck := !spanKind k, svc := !spanKind k } s fun o t => do
    let c := t.cur
    let n := 2 ^ sz
    let ea := addOff o.a (offM o off sz)
    let p ← t.aim c ea n 0 n k false (sz == 3)
    let (cls, reg) := ldDest o d
    let f : Access := { p.access c .load k ea n with dcls := cls, dreg := reg, post := if sg then 1 else 0, word := t.ir.toNat }
    t.loadAim c p f
    let t := if cls = 1 then t.cancel c 1 d else t
    if ← t.atOnce p f then
      if (t.poisoned p.key n).isSome then pure (.done (t.pendAsync c (eccTrap ea cls reg)))
      else if cls = 7 then pure (.done ((t.markSeen c p.key n).loadNow f (t.rdMem p.key n) 4))
      else
        let t := (t.markSeen c p.key n).wx c d (f.scalar (t.rdMem p.key n))
        pure (.done (if d = 0 then t else t.later c 1 d))
    else pure (.done (t.load c p f))
/-- ST (R349, R350). -/
def execSt (d a : Nat) (k : AccKind) (sz off : Nat) (s : State) : Host.Outcome State Fault Refusal :=
  word { d := rd .x d, a := rd .x a, dd := true, imm := true, deck := !spanKind k, svc := !spanKind k } s fun o t => do
    let c := t.cur
    let n := 2 ^ sz
    let ea := addOff o.a (offM o off sz)
    let p ← t.aim c ea n 0 n k true (sz == 3)
    let t ← t.storeAt c p k ea n (o.d % 2 ^ (8 * n)) (2 ^ n - 1)
    pure (.done t)

/-- The kind of an atomic by the space of its address (R352). -/
def amoKind (va : Nat) (anch svc : Bool) : AccKind :=
  if anch then .a
  else match bits va 63 60 with
    | 8 => .s
    | 4 | 5 | 6 | 12 => .l
    | 7 => if svc then .w else .f
    | _ => .f
/-- An atomic (R351 to R353, R169, R122, R442): `f` its function, `b` its operand register unless it has none. -/
def amo (f d a : Nat) (b : Option Nat) (ord scope : Nat) (anch : Bool) (s : State) : Host.Outcome State Fault Refusal :=
  word { d := if f = 9 then rw .x d else wr .x d, a := rd .x a, b := b.bind fun r => rd .x r, scope := true } s fun o t => do
    let c := t.cur
    let scope := if o.m.scope = 0 then scope else o.m.scope - 1
    let kind := amoKind o.a anch (c.core.kind == .service)
    let p ← t.aim c o.a 8 0 8 kind true false
    let rel := ord % 2 = 1
    let acq := 2 ≤ ord
    let ids := if rel then t.releaseIds c (scope == 4) else []
    let fn := f
    let f : Access := { p.access c (.atomic fn) kind o.a 8 with
                        val := o.b, cmp := o.d, scope := scope, acq := acq, rel := rel, after := ids
                        dcls := if d = 0 then 0 else 1, dreg := d, asid := t.spaceOf c }
    let put (t : State) (old : Nat) : State := if d = 0 then t else ((t.cancel c 1 d).wx c d old).later c 1 d
    let now ← t.atOnce p f
    if now ∧ t.ownWindow c p.key then awaitIds ids
    if t.ownWindow c p.key then
      match t.incoming c p.key 8 true with
      | some (k, r) => throw (.stall k r)
      | none => pure ()
    if now ∧ ids.isEmpty then
      if (t.poisoned p.key 8).isSome then pure (.done ((t.cancel c 1 d).pendAsync c (eccTrap o.a f.dcls d)))
      else
        let old := t.rdMem p.key 8
        let t := t.markSeen c p.key 8
        let t := match amoNew fn old o.b o.d with
          | some v => (t.wrMem p.key 8 v 255 (some c)).ownStore c kind p.key 8 255
          | none => t
        pure (.done (put t old))
    else
      match kind, (t.ctx c).grant with
      | .a, some gr =>
        if gr.snap then
          if t.bufferNeed c (heldPut gr.buf p.key o.a 8 0 255) > 512 then trap 54 9 o.a
          let (hv, hm) := heldOver (gr.buf.map (·.kept)) p.key 8
          if hm = 255 ∧ ids.isEmpty ∧ (t.ahead f).isEmpty then
            let x := t.ctx c
            let t := match amoNew fn hv o.b o.d with
              | some new => t.setCtx c { x.coverHeld p.key 8 255 with grant := some { gr with buf := heldPut gr.buf p.key o.a 8 new 255 } }
              | none => t
            pure (.done (put t hv))
          else pure (.done (((if d = 0 then t else t.cancel c 1 d).flushRange c p.key 8 255).send f))
        else pure (.done (((if d = 0 then t else t.cancel c 1 d).flushRange c p.key 8 255).send f))
      | _, _ =>
        let t := if p.home.isSome then (t.setCtx c ((t.ctx c).coverLoan p.key 8 255)).flushRange c p.key 8 255 else t
        let t := match p.owner with
          | some u => t.wakeCluster u.cluster
          | none => t
        pure (.done (((if d = 0 then t else t.cancel c 1 d)).send f))
/-- AADD (R351). -/
def execAadd (d a b ord scope : Nat) (anch : Bool) (s : State) : Host.Outcome State Fault Refusal := amo 0 d a (some b) ord scope anch s
/-- AAND (R351). -/
def execAand (d a b ord scope : Nat) (anch : Bool) (s : State) : Host.Outcome State Fault Refusal := amo 1 d a (some b) ord scope anch s
/-- AOR (R351). -/
def execAor (d a b ord scope : Nat) (anch : Bool) (s : State) : Host.Outcome State Fault Refusal := amo 2 d a (some b) ord scope anch s
/-- AXOR (R351). -/
def execAxor (d a b ord scope : Nat) (anch : Bool) (s : State) : Host.Outcome State Fault Refusal := amo 3 d a (some b) ord scope anch s
/-- AMIN (R351). -/
def execAmin (d a b ord scope : Nat) (anch : Bool) (s : State) : Host.Outcome State Fault Refusal := amo 4 d a (some b) ord scope anch s
/-- AMAX (R351). -/
def execAmax (d a b ord scope : Nat) (anch : Bool) (s : State) : Host.Outcome State Fault Refusal := amo 5 d a (some b) ord scope anch s
/-- AMINU (R351). -/
def execAminu (d a b ord scope : Nat) (anch : Bool) (s : State) : Host.Outcome State Fault Refusal := amo 6 d a (some b) ord scope anch s
/-- AMAXU (R351). -/
def execAmaxu (d a b ord scope : Nat) (anch : Bool) (s : State) : Host.Outcome State Fault Refusal := amo 7 d a (some b) ord scope anch s
/-- ASWP (R351). -/
def execAswp (d a b ord scope : Nat) (anch : Bool) (s : State) : Host.Outcome State Fault Refusal := amo 8 d a (some b) ord scope anch s
/-- ACAS (R351): the comparand is x[D] on entry. -/
def execAcas (d a b ord scope : Nat) (anch : Bool) (s : State) : Host.Outcome State Fault Refusal := amo 9 d a (some b) ord scope anch s
/-- AINC (R351). -/
def execAinc (d a ord scope : Nat) (anch : Bool) (s : State) : Host.Outcome State Fault Refusal := amo 10 d a none ord scope anch s
/-- AFADD (R351). -/
def execAfadd (d a b ord scope : Nat) (anch : Bool) (s : State) : Host.Outcome State Fault Refusal := amo 11 d a (some b) ord scope anch s

/-! ### The Lommer link -/

/-- PEER_REQUEST_ARRIVAL (R235, R233, R352, R432), while the link is on: requester, VA, bytes, value, comparand and function of an atomic, byte mask of a
store. The answer leaves the module; what fails has no effect here. -/
def execPeerRequestArrival (s : State) : Host.Outcome State Fault Refusal :=
  let va := s.n 1
  let n := s.n 2
  if s.minimal.isSome then done s else
  match s.exportWindow (s.n 0) va with
  | none => done s
  | some o =>
    let v := s.ctl (o + 24)
    let (wr, ok) := match s.arg.op with
      | .load => (false, bit v 32)
      | .store => (true, bit v 33)
      | .atomic => (true, bit v 34)
    if !ok then done s
    else match s.engineWalk (v % 65536) (bits (s.ctl (o + 16)) 47 16 * 65536 + (va - bits (s.ctl o) 47 16 * 65536)) wr with
      | .error _ => done s
      | .ok (t, e) =>
        let key := e.addr (bits (s.ctl (o + 16)) 47 16 * 65536 + (va - bits (s.ctl o) 47 16 * 65536))
        match if wr then t.holdOf key n else none with
        | some mid => done (t.holdWrite mid .peerRequestArrival)
        | none => match t.arg.op with
        | .load => done (match t.poisoned key n with
          | some u => t.countPoison u
          | none => t)
        | .store => done (t.wrMem key n (t.n 3) (if t.n 6 = 0 then 2 ^ n - 1 else t.n 6) none)
        | .atomic =>
          match t.poisoned key 8 with
          | some u => done (t.countPoison u)
          | none => done (match amoNew (t.n 5) (t.rdMem key 8) (t.n 3) (t.n 4) with
            | some v => t.wrMem key 8 v 255 none
            | none => t)
/-- PEER_TIMEOUT (R432, R458): an unanswered peer access ends in PEER 6; with 0 first, launch, domain and first
arrival of a system barrier, which is withdrawn if its group has an unreachable module. Whether it has one is free, and asked again after
the same time (notes/assumptions/90). -/
def execPeerTimeout (s : State) : Host.Outcome State Fault Refusal :=
  if s.n 0 = 0 then
    match s.launch (s.n 1) with
    | some l =>
      if s.sysArr.any (fun e => e.2.1 == l.id && e.2.2 == s.n 2) ∧ (Tab.get l.barriers (s.n 2) {}).first.getD 0 = s.n 3 then
        let t : State := { s with free := s.free + 1 }
        done (if Config.outcome s.free % 2 = 1 then t.withdraw l (s.n 2) 7 else t.after s.pto .peerTimeout s.arg)
      else done s
    | none => done s
  else match s.access (s.n 0) with
    | none => done s
    | some f => if f.performed then done s else done ((s.failAccess f (peerTrap f 6)).acked f.ctx)
/-- FLIT_CRC_FAIL (R458): port, and 1 when a flit got through since the last failure. The flit is retried; when eight retries in a row
have failed too, the port retrains, and it is down when that fails. -/
def execFlitCrcFail (s : State) : Host.Outcome State Fault Refusal :=
  let p := s.n 0 % 18
  let o := 50348032 + 8 * p
  let w := s.ctl o
  let row := (if s.n 1 = 1 then 0 else Tab.get s.retries p 0) + 1
  let crce := min (w % 4294967296 + 1) 4294967295
  if row < 9 then
    done ({ s with retries := Tab.set s.retries p row }.setCtl o (w / 4294967296 * 4294967296 + crce))
  else
    let retr := min (bits w 47 32 + 1) 65535
    let up := Config.outcome s.free % 2 = 0
    done ({ s with retries := Tab.set s.retries p 0, free := s.free + 1 }.setCtl o
      ((if up then 2 ^ 63 else 0) + retr * 4294967296 + crce))
/-- UNCORRECTABLE_ERROR (R429): the struck unit is poisoned. -/
def execUncorrectableError (s : State) : Host.Outcome State Fault Refusal :=
  let u := poisonUnit (s.n 0)
  done (if s.poison.contains u then s else { s with poison := s.poison ++ [u] })

end Sys2Proof.Machine
end

