-- ==== Sys2Proof/Machine/Msg.lean ====
section
/-! DEFINITION. Routed packets and receive queues (04_execution R100, R101; 14_isa_memory R372, R373; 23_faults_system R452). -/

namespace Sys2Proof.Machine

/-- In how many handlers a context stands. -/
def Ctx.handlers (x : Ctx) : Nat := (if x.trapS.inh then 1 else 0) + if x.trapH.inh then 1 else 0
/-- SEND and SENDE (R372, R452): the word joins the open packet, or opens one to the core that x[A] names. -/
def sendWord (d a : Nat) (last : Bool) (s : State) : Host.Outcome State Fault Refusal :=
  word { d := rd .x d, a := rd .x a, dd := true, da := true, svc := false } s fun o t => do
    let c := t.cur
    let x := t.ctx c
    let depth := x.handlers
    let (p : Packet) ← match x.pkt with
      | some p =>
        if p.depth < depth then trap 50 2 o.a
        if p.words.length ≥ 64 then trap 50 4 o.a
        pure { p with depth := depth }
      | none =>
        let u := coreOfWord o.a
        if !((t.launchOf c.core).any (·.has u)) ∨ (u.kind = .deck ∧ (u.x % 2 = 1 ∨ u.y % 2 = 1)) then trap 50 1 o.a
        pure { dst := u, depth := depth }
    if (t.core p.dst).rxWait.length > Config.meshRoom then throw (.retry (.send p.dst))
    let t := t.route c p.dst (o.d % 18446744073709551616) p.words.isEmpty last
    let p := { p with words := p.words ++ [o.d % 18446744073709551616] }
    pure (.done (t.setCtx c { t.ctx c with pkt := if last then none else some p }))
/-- SEND (R372). -/
def execSend (d a : Nat) (s : State) : Host.Outcome State Fault Refusal := sendWord d a false s
/-- SENDE (R372). -/
def execSende (d a : Nat) (s : State) : Host.Outcome State Fault Refusal := sendWord d a true s

/-- Is a step the arrival of another sender's word at a core? -/
def arrivesAt (u : CoreId) (c : CtxId) (i : Instr) (a : Arg) : Bool := i == .routedWordArrival && coreOfWord (a.ns.headD 0) == u && a.ctx != c
/-- ROUTED_WORD_ARRIVAL (R101, R216, R242, R457): destination, word, first bit and end bit; the sender is the context. One of several senders' words
of a cycle, or one behind words that wait, is an outcome of arbitration, which a replay takes from its log. At a cluster without power
it waits for the wake. -/
def execRoutedWordArrival (s : State) : Host.Outcome State Fault Refusal :=
  let u := coreOfWord (s.n 0)
  let k := s.core u
  let c := s.arg.ctx
  let e : RxEntry := { word := s.n 1, src := c, first := s.n 2 == 1, last := s.n 3 == 1 }
  let at_ := 2 ^ 63 + (⟨u, 0⟩ : CtxId).place
  let others := s.agenda.any fun e => decide (e.1 ≤ s.cyc) && arrivesAt u c e.2.1 e.2.2
  if others && s.logOther u.pyl c then done (s.after 0 .routedWordArrival s.arg) else
  let s := if k.rxWait.isEmpty && !others then s else s.record u.pyl k.sstep.toNat c.place 13 at_
  let s := if u.kind = .service then s else s.wakeCluster u.cluster
  let k := { s.core u with rxWait := (s.core u).rxWait ++ [e] }
  match if u.kind = .service then .awake else (s.cluster u.cluster).power with
  | .awake => done (s.setCore u k.drain)
  | .failed => done (s.wordLost c)
  | _ => done (s.setCore u k)
/-- RECV (R373): contexts that wait are served in the order of their issue. -/
def execRecv (d : Nat) (s : State) : Host.Outcome State Fault Refusal :=
  word { d := wr .x d, dd := true, svc := false } s fun o t =>
    let c := t.cur
    let k := t.core c.core
    let first := t.recvFirst c
    match k.rx with
    | e :: rest =>
      if first then
        retX (t.setCore c.core { k with rx := rest, recvOrder := k.recvOrder.filter (· != c.k) }.drain) c o d e.word
      else if (t.ctx c).timed.isSome then .error (.retry .recv)
      else .ok (.left ((t.setCore c.core { k with recvOrder := if k.recvOrder.contains c.k then k.recvOrder else k.recvOrder ++ [c.k] }).sleep c .recv))
    | [] =>
      if (t.ctx c).timed.isSome then .error (.retry .recv)
      else
        let order := if k.recvOrder.contains c.k then k.recvOrder else k.recvOrder ++ [c.k]
        .ok (.left ((t.setCore c.core { k with recvOrder := order }).sleep c .recv))
/-- RPEEK (R373). -/
def execRpeek (d : Nat) (s : State) : Host.Outcome State Fault Refusal :=
  word { d := wr .x d, dd := true, svc := false } s fun o t =>
    let v := match (t.core t.cur.core).rx with
      | [] => 0
      | e :: _ => 2 ^ 63 + (if e.first then 2 ^ 62 else 0) + (if e.last then 2 ^ 61 else 0) + e.src.place
    retX t t.cur o d v

end Sys2Proof.Machine
end

