-- ==== Sys2Proof/Machine/Pier.lean ====
section
/-! DEFINITION. The piers (05_anchored_tasks R135 to R143; 22_faults_memory R445, R447): the library's bodies, how a job runs,
and the result rows. -/

namespace Sys2Proof.Machine

/-! ### The library (R136): every floating result is rounded with rne, and no flag is kept -/

def add32 (a b : Nat) : Nat := (fp32.out .rne (addVal .rne (fp32.decode a) (fp32.decode b))).1
def sub32 (a b : Nat) : Nat :=
  let x := fp32.decode a
  let y := fp32.decode b
  (fp32.out .rne ((nanOf [x, y]).getD (sumExact .rne x y.flip))).1
def mul32 (a b : Nat) : Nat := (fp32.out .rne (mulVal (fp32.decode a) (fp32.decode b))).1
def div32 (a b : Nat) : Nat := (fp32.out .rne (divVal (fp32.decode a) (fp32.decode b))).1
def sqrt32 (a : Nat) : Nat := (fp32.out .rne (sqrtVal (fp32.decode a))).1
/-- Is ±m × 2^e within 2^−22 of a value of the enclosure of tanh |t|, t with sign n? -/
def tanhNear (y : Encl) (n : Bool) : Val → Bool
  | .fin n' m e =>
    if n' = n ∨ m = 0 then y.near (m, e) 1 (-22)
    else
      let u := min (min e y.e) (-22)
      decide (unitsAt y.lo.toNat y.e u + unitsAt m e u ≤ unitsAt 1 (-22) u)
  | _ => false
/-- th(t): within 2^−22 of tanh(t), exactly 0 at 0 and ±1 for |t| ≥ 9; which of the admitted FP32 values is free. -/
def pierTanh (t : Val) (key : Nat) : Nat :=
  match t with
  | .nan .. => (fp32.round .rne ((nanOf [t]).elim t (·.1))).1
  | .inf n => 1065353216 + signBit n 31
  | .fin n m e =>
    if m = 0 then signBit n 31
    else if !(Val.fin false m e).lt (.fin false 9 0) then 1065353216 + signBit n 31
    else
      let y := tanhEncl m e
      let j := Config.tanhPick key % 4294967296
      if tanhNear y n (fp32.decode j) then j else (fp32.round .rne (.fin n y.lo.toNat y.e)).1
/-- sg(t) = round(0.5 + 0.5 × th(t/2)). -/
def pierSigm (code : Nat) : Nat :=
  let h := fp32.decode (pierTanh ((fp32.decode code).scale (-1)) (2 * code + 1))
  (fp32.out .rne (addVal .rne (.fin false 1 (-1)) (h.scale (-1)))).1
/-- One element of GRU_STATE: h, zp and cp. -/
def gruState (h zp cp : Nat) : Nat :=
  add32 h (mul32 (pierSigm zp) (sub32 (pierTanh (fp32.decode cp) (2 * cp)) h))
/-- One element of ADAM_FP32: the new θ, m and v. -/
def adamStep (lr b1 b2 eps th g m v : Nat) : Nat × Nat × Nat :=
  let c1 := sub32 1065353216 b1
  let c2 := sub32 1065353216 b2
  let m' := add32 (mul32 b1 m) (mul32 c1 g)
  let v' := add32 (mul32 b2 v) (mul32 c2 (mul32 g g))
  (sub32 th (div32 (mul32 lr m') (add32 (sqrt32 v') eps)), m', v')
/-- Elements of w bits of two numbers, joined lane by lane. -/
def lanes2 (w n x y : Nat) (f : Nat → Nat → Nat) : Nat := ofLanes w ((upFrom 0 n).map fun k => f (lane x w k) (lane y w k))

/-- The arrays of an entry (R136): argument, bytes, and whether it is written; n is the range's length in bytes. The g, m and v of entry 7
are one written array of 3n bytes (notes/assumptions/71). -/
def pierArrays (entry n : Nat) : List (Nat × Nat × Bool) :=
  match entry with
  | 2 => [(2, 8, true)]
  | 4 => [(0, n, false)]
  | 5 => [(1, n, false)]
  | 6 => [(0, n, false), (1, n, false)]
  | 7 => [(0, 3 * n, true)]
  | _ => []
/-- n bytes of the range after a library body's sequence and, for an entry that writes its array, the array's after it (R136); the mark of
entry 2 comes later. -/
def pierEffect (entry : Nat) (args : List Nat) (n rng : Nat) (arrs : List Nat) : Nat × Option Nat :=
  let arg (i : Nat) := args.getD i 0
  let a0 := arg 0 % 4294967296
  let arr (i : Nat) := arrs.getD i 0
  match entry with
  | 0 => (rng, none)
  | 1 => (lanes2 32 (n / 4) rng 0 fun w _ => (w + a0) % 4294967296, none)
  | 2 => (lanes2 32 (n / 4) rng 0 fun w _ => (w + a0) % 4294967296, none)
  | 3 => (ofLanes 64 ((upFrom 0 (n / 8)).map fun _ => arg 0), none)
  | 4 => (arr 0, none)
  | 5 =>
    let bf : Slot := .bin 8 8
    (lanes2 16 (n / 2) rng (arr 0) fun y x =>
      (bf.out .rne (fmaVal .rne (bf.decode (a0 % 65536)) (bf.decode x) (bf.decode y))).1, none)
  | 6 => (ofLanes 32 ((upFrom 0 (n / 4)).map fun k => gruState (lane rng 32 k) (lane (arr 0) 32 k) (lane (arr 1) 32 k)), none)
  | 7 =>
    let k := n / 4
    let out := (upFrom 0 k).map fun j =>
      adamStep (arg 1 % 4294967296) (arg 1 / 4294967296) (arg 2 % 4294967296) (arg 2 / 4294967296)
        (lane rng 32 j) (lane (arr 0) 32 j) (lane (arr 0) 32 (k + j)) (lane (arr 0) 32 (2 * k + j))
    (ofLanes 32 (out.map (·.1)),
      some (ofLanes 32 ((upFrom 0 k).map (lane (arr 0) 32 ·) ++ out.map (·.2.1) ++ out.map (·.2.2))))
  | 8 => (lanes2 32 (n / 4) rng 0 fun x _ => mul32 x a0, none)
  | _ => (lanes2 32 (n / 4) rng 0 fun x _ => (fp32.round .rne (minmax true (fp32.decode x) (fp32.decode a0)).1).1, none)
/-- Does an entry read its range? -/
def pierReads (entry : Nat) : Bool := !(entry == 0 || entry == 3 || entry == 4)
/-- Micro-words of a pier and START of an entry (R135). -/
def State.microWords (s : State) (h : Nat) : List Nat := (upFrom 0 512).map fun j => s.ctl (homeBlock h + 4096 + 8 * j)
def State.entryStart (s : State) (h entry : Nat) : Nat := s.ctl (homeBlock h + 8 * entry) % 256
/-- Cycles of a job (R138): 120 more for each line that misses the home's cache, which of them do being free. What repaired rows add comes
with the sequences that meet them (R447). -/
def State.pierCycles (s : State) (h pa entry len8 : Nat) : Nat :=
  let l := (len8 + 7) / 8
  let lines := (pierArrays entry (8 * len8)).foldl (fun n a => n + (a.2.1 + 63) / 64) l
  let miss := ((upFrom 0 lines).filter fun i => Config.homeMiss (pa / 64 + i) s.nextId % 2 == 1).length
  120 * (if entry = 0 then 0 else miss) + match entry with
    | 0 => 20
    | 1 => 20 + 2 * l
    | 2 => 28 + 2 * l
    | 3 => 20 + 2 * l
    | 4 => 20 + 4 * l
    | 5 => 20 + 4 * l
    | 6 => 20 + 40 * l
    | 7 => 20 + 60 * l
    | 8 => 20 + 2 * l
    | 9 => 20 + 2 * l
    | e => Config.pierTime (s.microWords h) (s.entryStart h e) len8

/-! ### Running a body (R137, R445) -/

/-- Why a job fails: cause, DETAIL and the address concerned. -/
abbrev PierFail := Nat × Nat × Nat
/-- The location of an array that an argument names, or why the job fails (R137, R445). -/
def State.pierArray (s : State) (h asid va n : Nat) (wr : Bool) : Except PierFail (State × Nat) :=
  if 281474976710656 ≤ va then .error (17, 4, va)
  else match s.engineWalk asid va wr with
    | .error (c, d) => .error (c, d, va)
    | .ok (t, e) =>
      if va / 16384 ≠ (va + n - 1) / 16384 ∨ homeOf (e.addr va) ≠ h then .error (54, 10, va) else .ok (t, e.addr va)
/-- The arrays of a job, one after another: VA, location and bytes. -/
def State.pierResolve (s : State) (h asid : Nat) (args : List Nat) :
    List (Nat × Nat × Bool) → Except PierFail (State × List (Nat × Nat × Nat))
  | [] => .ok (s, [])
  | (i, n, wr) :: rest => do
    let va := args.getD i 0
    let (s, k) ← s.pierArray h asid va n wr
    let (s, ks) ← State.pierResolve s h asid args rest
    pure (s, (va, k, n) :: ks)

/-- What a job works on. -/
structure PierJob where
  /-- The context that posted or called it. -/
  ctx : CtxId
  asid : Nat
  va : Nat
  pa : Nat
  len8 : Nat
  entry : Nat
  args : List Nat

/-- Lines of a job's range (R138). -/
def PierJob.lines (j : PierJob) : Nat := (j.len8 + 7) / 8
/-- Cycles that a library body spends on a line of its range (R138). -/
def pierLine (entry : Nat) : Nat :=
  match entry with
  | 1 | 2 | 3 | 8 | 9 => 2
  | 4 | 5 => 4
  | 6 => 40
  | 7 => 60
  | _ => 0
/-- Set the end of the next sequence of the job in a pier going (R142): after lines as many as 64 micro-words may take, or for an entry of
an image after at most 64 cycles, how many is free; or the job's end when no line is left. -/
def State.pierNext (s : State) (h : Nat) (j : PierJob) : State :=
  let m := s.home h
  let per := pierLine j.entry
  let left := j.lines - m.jobPos
  let free := Config.outcome s.free
  let go (s : State) (t n : Nat) : State := s.at_ (max s.cyc t) .pierJobEnd { ns := [h, m.jobId, 0, n] }
  if 10 ≤ j.entry then go { s with free := s.free + 1 } (s.cyc + min (m.jobEnd - s.cyc) (1 + free % 64)) 1
  else if per = 0 ∨ left = 0 then go s m.jobEnd 0
  else
    let n := min left (1 + free % (64 / per))
    go { s with free := s.free + 1 } (m.jobEnd - (per * (left - n) + if j.entry = 2 then 8 else 0)) n
/-- The pieces of a job's arrays that go with bytes `off` to `off` + `b` of its range of n bytes: VA, location and bytes. -/
def PierJob.slices (j : PierJob) (arrs : List (Nat × Nat × Nat)) (off b : Nat) : List (Nat × Nat × Nat) :=
  let n := 8 * j.len8
  match j.entry, arrs with
  | 7, a :: _ => (upFrom 0 3).map fun i => (a.1 + n * i + off, a.2.1 + n * i + off, b)
  | 5, l => l.map fun a => (a.1 + off, a.2.1 + off, b)
  | 6, l => l.map fun a => (a.1 + off, a.2.1 + off, b)
  | _, _ => []
/-- First byte and bytes of a line of a job's range. -/
def PierJob.line (j : PierJob) (i : Nat) : Nat × Nat := (64 * i, min 64 (8 * j.len8 - 64 * i))
/-- Does a range meet a row that has been repaired (R447)? -/
def Home.patched (m : Home) (pa n : Nat) : Bool := m.repaired.any fun r => decide (pa / 2048 ≤ r) && decide (r ≤ (pa + n - 1) / 2048)
/-- Does a line of a job meet one, in the range or in an array: then the repaired bank's operation, a continuation of the sequence,
acts on it (R447)? -/
def Home.slow (m : Home) (j : PierJob) (i : Nat) : Bool :=
  let (off, b) := j.line i
  m.patched (j.pa + off) b || (j.slices m.jobArrs off b).any (fun a => m.patched a.2.1 a.2.2) ||
  (j.entry == 4 && m.jobPos == 0 && m.jobArrs.any fun a => m.patched a.2.1 a.2.2)
/-- A part of a sequence over lines of the range (R136, R142, R447): what it reads, it reads before it writes (notes/assumptions/71); or it
fails at poison. -/
def State.pierSlice (s : State) (h : Nat) (j : PierJob) (ls : List Nat) : State × Option PierFail :=
  let m := s.home h
  let sl (i : Nat) := j.slices m.jobArrs (j.line i).1 (j.line i).2
  let bad (i : Nat) : Option (Nat × Nat) :=
    let (off, b) := j.line i
    (if pierReads j.entry then (s.poisoned (j.pa + off) b).map fun u => (u, j.va + (max u (j.pa + off) - j.pa)) else none).orElse fun _ =>
      (sl i).findSome? fun a => (s.poisoned a.2.1 a.2.2).map fun u => (u, a.1 + (max u a.2.1 - a.2.1))
  match ls.findSome? bad with
  | some (u, va) => (s.countPoison u, some (20, 0, va))
  | none =>
    let new (i : Nat) : List (Nat × Nat × Nat) :=
      let (off, b) := j.line i
      let got := (sl i).map fun a => s.rdMem a.2.1 a.2.2
      let arr := match j.entry with
        | 4 => [m.jobData / 256 ^ off % 256 ^ b]
        | 7 => [got.getD 0 0 + 256 ^ b * got.getD 1 0 + 256 ^ (2 * b) * got.getD 2 0]
        | _ => got
      let (new, back) := pierEffect j.entry j.args b (s.rdMem (j.pa + off) b) arr
      (j.pa + off, b, new) :: match j.entry, back with
        | 7, some v => (((sl i).zip (upFrom 0 3)).drop 1).map fun e => (e.1.2.1, b, v / 256 ^ (b * e.2) % 256 ^ b)
        | _, _ => []
    ((ls.flatMap new).foldl (fun s w => s.wrMem w.1 w.2.1 w.2.2 (2 ^ w.2.1 - 1) none) s, none)
/-- What a sequence leaves: it has ended; its continuation is still to come (R447); or the job fails. -/
inductive SeqOut where
  | ended (s : State)
  | rest (s : State)
  | failed (s : State) (f : PierFail)
/-- A sequence of an entry 10 to 63 (R135): one that meets a repaired row leaves that row's bytes to its continuation. -/
def State.imageSeq (s : State) (h : Nat) (j : PierJob) (cont : Bool) : SeqOut :=
  let m := s.home h
  let bytes := 8 * j.len8
  let rows := upFrom 0 j.lines
  let put (s : State) (v : Nat) (part : Bool) : State := (rows.filter fun i => m.slow j i == part).foldl (fun s i =>
    let (off, b) := j.line i
    s.wrMem (j.pa + off) b (v / 256 ^ off % 256 ^ b) (2 ^ b - 1) none) s
  let end_ (s : State) : SeqOut := .ended (s.setHome h { s.home h with jobPos := m.jobPos + 1 })
  if !bit (s.ctl (homeBlock h + 8 * j.entry)) 8 then .ended s
  else if cont then end_ (put s m.jobData true)
  else match s.poisoned j.pa bytes with
    | some u => .failed (s.countPoison u) (20, 0, j.va + (max u j.pa - j.pa))
    | none =>
      let new := Config.pierBody (s.microWords h) (s.entryStart h j.entry) m.jobPos j.args (lanes (s.rdMem j.pa bytes) 8 bytes)
      let v := ofLanes 8 (new.map (· % 256))
      let t := put s v false
      if rows.any (m.slow j ·) then .rest (t.setHome h { t.home h with jobData := v }) else end_ t
/-- The arrays of a job are translated when it first uses them (R137, R445): COPY_HOME reads all of its own. -/
def State.pierOpen (s : State) (h : Nat) (j : PierJob) : SeqOut :=
  match s.pierResolve h j.asid j.args (pierArrays j.entry (8 * j.len8)) with
  | .error f => .failed s f
  | .ok (t, arrs) =>
    let bad := arrs.findSome? fun a => (t.poisoned a.2.1 a.2.2).map fun u => (u, a.1 + (max u a.2.1 - a.2.1))
    match if j.entry = 4 then bad else none with
    | some (u, va) => .failed (t.countPoison u) (20, 0, va)
    | none => .ended (t.setHome h { t.home h with jobArrs := arrs, jobData := if j.entry = 4 then
        (arrs.map fun a => t.rdMem a.2.1 a.2.2).headD 0 else 0 })
/-- The end of a sequence of the job in a pier (R136, R137, R142, R445, R447): `n` lines of the range, the mark of entry 2, or what an
image's entry does; `cont` tells of a continuation. An entry without a body has no effect. -/
def State.pierSeq (s : State) (h : Nat) (j : PierJob) (n : Nat) (cont : Bool) : SeqOut :=
  if j.entry = 0 then .ended s
  else if 10 ≤ j.entry then s.imageSeq h j cont
  else if n = 0 then
    match s.pierResolve h j.asid j.args (pierArrays j.entry (8 * j.len8)) with
    | .error f => .failed s f
    | .ok (t, arrs) =>
      if !cont && arrs.any fun a => (s.home h).patched a.2.1 8 then .rest t
      else .ended (arrs.foldl (fun s a => s.wrMem a.2.1 8 (j.args.getD 1 0) 255 none) t)
  else match if (s.home h).jobPos ≠ 0 ∨ j.entry = 2 ∨ cont then .ended s else s.pierOpen h j with
    | .ended s =>
      let m := s.home h
      let ls := upFrom m.jobPos n
      match s.pierSlice h j (ls.filter fun i => m.slow j i == cont) with
      | (t, some f) => .failed t f
      | (t, none) =>
        if !cont && ls.any (m.slow j ·) then .rest t else .ended (t.setHome h { t.home h with jobPos := m.jobPos + n })
    | out => out

/-- Doubleword 0 of a result row and the 2,040 bytes after it (R139, R445). -/
def State.rowImage (s : State) (p : PCall) (fail : Bool) : Nat :=
  let n := min 2040 (8 * p.len8)
  p.entry % 64 + p.len8 * 65536 + (if fail then 9223372036854775808 else s.rdMem p.pa n * 18446744073709551616)
/-- A result row is filled (R139 to R141): the loads that wait on it are performed in this cycle. -/
def State.fillRow (s : State) (p : PCall) (fail : Bool) : State :=
  let s := s.wrMem p.rowPa 2048 (s.rowImage p fail) (2 ^ 2048 - 1) none
  let s : State := { s with emptyRows := s.emptyRows.filter (· != p.rowPa) }
  let parked := s.flight.filter fun f => f.parked && f.onRow && !f.performed && f.key / 2048 * 2048 == p.rowPa
  parked.foldl (fun s f => s.after 0 .accessAtOrderingPoint { ctx := f.ctx, ns := [f.id] }) s

/-- Does a sequence run at a home (R142): one of at most 64 micro-words, whose end is set? -/
def State.inSequence (s : State) (h : Nat) : Bool := (s.home h).job.isSome && s.agenda.any fun e =>
  decide (e.1 ≤ s.cyc + 63) && e.2.2.ns.headD 0 == h && e.2.2.ns.getD 2 0 == 0 && e.2.2.ns.getD 1 0 == (s.home h).jobId && match e.2.1 with
    | .pierJobEnd => true
    | _ => false
/-- REFRESH_DUE (R142): a refresh is postponed to the next boundary while a sequence runs, four at most; issued, it changes no
architectural state. -/
def execRefreshDue (s : State) : Host.Outcome State Fault Refusal :=
  let h := s.n 0
  let m := s.home h
  if s.inSequence h ∧ m.refreshOwed < 4 then done (s.setHome h { m with refreshOwed := m.refreshOwed + 1 }) else done s

end Sys2Proof.Machine
end

