-- ==== Sys2Proof/Machine/Task.lean ====
section
/-! DEFINITION. Anchored tasks (05_anchored_tasks R106 to R134, R139; 14_isa_memory R365 to R371; 17_ordering_across R401,
R402; 22_faults_memory R442 to R445): queues of a home, what a home does in one cycle, the task words and their messages. -/

namespace Sys2Proof.Machine

/-! ### Descriptors (R106 to R109) -/

def Task.word (t : Task) (i : Nat) : Nat := t.desc.getD i 0
def Task.len8 (t : Task) : Nat := bits (t.word 0) 59 48
def Task.snap (t : Task) : Bool := bits (t.word 0) 61 60 == 1
def Task.noNear (t : Task) : Bool := bit (t.word 1) 6
def Task.due (t : Task) : Nat := t.word 6
/-- Urgent whenever it is ready (R118). -/
def Task.always (t : Task) : Bool := bit (t.word 0) 62 || t.noNear
/-- Do two tasks' ranges share a byte (R109)? -/
def Task.overlaps (t u : Task) : Bool := decide (t.pa < u.pa + 8 * u.len8) && decide (u.pa < t.pa + 8 * t.len8)
def Task.far (t : Task) : Bool := match t.st with
  | .far _ => true
  | _ => false
def Task.inFlight (t : Task) : Bool := t.st == .near || t.far

/-! ### Queues -/

def State.queue (s : State) (h q : Nat) : Queue := Tab.get (s.home h).queues q {}
def State.setQueue (s : State) (h q : Nat) (x : Queue) : State :=
  s.setHome h { s.home h with queues := Tab.set (s.home h).queues q x }
def Queue.task (x : Queue) (seq : Nat) : Option Task := x.tasks.find? (·.seq == seq)
def Queue.setTask (x : Queue) (t : Task) : Queue := { x with tasks := x.tasks.map fun u => if u.seq = t.seq then t else u }
/-- The ready tasks that are not taken, and their number (R113). -/
def Queue.ready (x : Queue) : List Task := x.tasks.filter (·.st == .ready)
def Queue.depth (x : Queue) : Nat := x.ready.length
/-- Tasks in flight at a home, of every queue. -/
def Home.flying (m : Home) : List Task := m.queues.flatMap fun e => e.2.tasks.filter (·.inFlight)
/-- Far tasks in SNAP mode: their ranges are lent (R122). -/
def Home.lent (m : Home) : List Task := m.flying.filter fun t => t.far && t.snap
/-- The task of least key, the lower sequence number on a tie. -/
def leastTask (key : Task → Int) (l : List Task) : Option Task :=
  l.foldl (fun b t => match b with
    | none => some t
    | some u => if key t < key u || (key t == key u && decide (t.seq < u.seq)) then some t else b) none
/-- Effective due (R119). -/
def Queue.effDue (x : Queue) (t : Task) : Int := if t.always then 0 else (t.due : Int) - x.lead
/-- Has the time come at which a task is urgent (R118)? -/
def Queue.isDue (x : Queue) (t : Task) (cyc : Nat) : Bool := t.always || (t.due != 0 && decide (t.due ≤ cyc + x.lead))

/-! ### The order of one cycle (R371) -/

/-- Place of a step in its home's cycle: what makes tasks ready or ends jobs, steals, changes of membership, QINFO. -/
def taskClass : Instr → Nat
  | .tpostArrival => 1 | .counterReport => 1 | .counterReadAnswer => 1 | .taskUrgentDue => 1 | .watchReread => 1
  | .pierJobEnd => 1 | .pcallAccept => 1 | .tretArrival => 1
  | .tstealArrival => 3
  | .tjoinArrival => 4 | .tleaveArrival => 4
  | .qinfoArrival => 6
  | _ => 0
/-- Is an access or an engine about to reach a home's registered counters in this cycle, so that its report, which takes no time at the
counter's own home, is still to come (R111, R371)? -/
def State.reportSoon (s : State) (h : Nat) : Bool :=
  (s.home h).regs.any (·.home == some h) && s.agenda.any fun e => decide (e.1 ≤ s.cyc) && s.reaches h none e.2.1 e.2.2
/-- Is a step of a class up to `hi` due at a home in this cycle? -/
def State.homeDue (s : State) (h hi : Nat) : Bool := s.agenda.any fun e =>
  decide (e.1 ≤ s.cyc) && decide (1 ≤ taskClass e.2.1) && decide (taskClass e.2.1 ≤ hi) && e.2.2.ns.headD 0 == h

/-- Steps of one class that meet at a queue of a home, of other contexts than one: which comes first is open (R399, R371). -/
def taskMeets (h q cls : Nat) (c : CtxId) (i : Instr) (a : Arg) : Bool :=
  taskClass i == cls && !(i == .pierJobEnd) && !(i == .tretArrival) && a.ns.headD 0 == h && a.ns.getD 1 0 == q && a.ctx != c
/-- The value of a QUEUE cause (R443), and of the record of such a meeting. -/
def queueVal (h q : Nat) : Nat := q + 64 * h
/-- Does a replay's log put another context's step before this one (R242)? -/
def State.taskYields (s : State) (c : CtxId) (h q cls : Nat) : Bool := 
  (s.agenda.any fun e => decide (e.1 ≤ s.cyc) && taskMeets h q cls c e.2.1 e.2.2) && s.logOther c.core.pyl c
/-- A task message that has met others of its class at its queue is logged (R242, R399). -/
def State.taskLog (s : State) (c : CtxId) (h q cls : Nat) : State :=
  if s.agenda.any fun e => decide (e.1 ≤ s.cyc) && taskMeets h q cls c e.2.1 e.2.2 then
    s.record c.core.pyl (s.core c.core).sstep.toNat c.place 13 (queueVal h q) else s

/-! ### The pier takes work (R114, R115) -/

/-- May the pier run a task now (R115)? -/
def Home.eligible (m : Home) (t : Task) : Bool := t.st == .ready && !t.noNear && !(m.lent.any t.overlaps)
/-- The next task by round robin after the queue last served: queue and task. After reset it begins at queue 0, which no rule says
(notes/assumptions/70). -/
def State.nextTask (s : State) (h : Nat) : Option (Nat × Task) :=
  let m := s.home h
  (upFrom 1 64).findSome? fun j =>
    let q := (m.lastQueue + j) % 64
    (leastTask (fun t => (t.seq : Int)) ((s.queue h q).tasks.filter m.eligible)).map (q, ·)
/-- What the job in a pier works on. -/
def State.pierJob (s : State) (h : Nat) : Option PierJob :=
  match (s.home h).job with
  | none => none
  | some (.call p) => some { ctx := p.ctx, asid := p.asid, va := p.va, pa := p.pa, len8 := p.len8, entry := p.entry, args := p.args }
  | some (.task q seq) => ((s.queue h q).task seq).map fun t =>
      { ctx := t.poster, asid := t.asid, va := bits (t.word 0) 47 0, pa := t.pa, len8 := t.len8, entry := t.word 1 % 64, args := [t.word 3, t.word 4, t.word 5] }
/-- The pier begins a job. -/
def State.pierBegin (s : State) (h : Nat) (j : Job) (isTask : Bool) (cycles : Nat) : State :=
  let m := s.home h
  let id := s.nextId
  let s := (s.setHome h { m with job := some j, jobId := id, lastTask := isTask, jobPos := 0, jobEnd := s.cyc + cycles, jobArrs := [],
                                 jobData := 0 }).fresh
  match s.pierJob h with
  | some w => s.pierNext h w
  | none => s
/-- An idle pier takes a task or a call (R115); not under QUIESCE (R135), nor in minimal mode (R233). -/
def State.pierTake (s : State) (h : Nat) : State :=
  let m := s.home h
  if m.job.isSome ∨ s.ctl (homeBlock h + 2048) % 2 = 1 ∨ s.homeDue h 1 ∨ s.minimal.isSome then s
  else match if m.lastTask && !m.calls.isEmpty then none else s.nextTask h with
    | some (q, t) =>
      let s := s.setQueue h q ((s.queue h q).setTask { t with st := .near, counted := false })
      let s := s.setHome h { s.home h with lastQueue := q }
      s.pierBegin h (.task q t.seq) true (s.pierCycles h t.pa (t.word 1 % 64) t.len8)
    | none => match m.calls with
      | p :: rest => (s.setHome h { m with calls := rest }).pierBegin h (.call p) false (s.pierCycles h p.pa p.entry p.len8)
      | [] => s

/-! ### Offers (R117, R118) -/

/-- The member that the next offer goes to: join order, round robin after the last, members with an offer passed over. -/
def Queue.nextMember (x : Queue) : Option Member :=
  let i := (x.members.findIdx? fun m => some m.ctx == x.lastOffer).elim 0 (· + 1)
  (x.members.drop i ++ x.members.take i).find? (!·.outstanding)
/-- Offers of a queue, one after another. DEDUCED: the urgent task that an offer is sent for is the one of least effective due. -/
def State.offer (s : State) (h q : Nat) : Nat → State
  | 0 => s
  | n + 1 =>
    let x := s.queue h q
    let urg := x.ready.filter (·.counted)
    let out := (x.members.filter (·.outstanding)).length
    match x.nextMember with
    | none => s
    | some m =>
      if x.depth > x.thr + out ∨ ¬ urg.isEmpty then
        let x := { x with members := x.members.map fun k => if k.ctx = m.ctx then { k with outstanding := true } else k,
                          lastOffer := some m.ctx }
        let x := match leastTask x.effDue urg with
          | some t => x.setTask { t with counted := false }
          | none => x
        ((s.setQueue h q x).after (latHome m.ctx.core h / 2) .offerArrival { ctx := m.ctx, ns := [h, q] }).offer h q n
      else s
/-- The end of a home's cycle (R371): the pier, then the offers, each once what comes before it has been done. Every step of a home that
may be such a thing ends with it (R114). -/
def State.homeTick (s : State) (h : Nat) : State :=
  if s.reportSoon h then s.after 0 .pierJobEnd { ns := [h, 0, 3] } else
  let s := s.pierTake h
  if s.homeDue h 4 then s
  else (s.home h).queues.foldl (fun s e => s.offer h e.1 e.2.members.length) s

/-! ### Readiness (R111, R113, R118) -/

/-- Counters that no waiting task of a home names any more leave its watch table and their own homes. -/
def State.watchClear (s : State) (h : Nat) : State :=
  let m := s.home h
  let named := m.queues.flatMap fun e => (e.2.tasks.filter fun t => t.st == .pending || t.st == .reading).flatMap fun t => t.deps.map (·.1)
  let gone := m.watch.filter fun pa => !named.contains pa
  let s := s.setHome h { m with watch := m.watch.filter (named.contains ·) }
  gone.foldl (fun s pa =>
    let g := homeOf pa
    s.setHome g { s.home g with regs := (s.home g).regs.filter fun r => !(r.pa == pa && r.home == some h) }) s
/-- A task becomes ready (R113), and urgent now or when its time comes (R118). -/
def State.makeReady (s : State) (h q : Nat) (t : Task) : State :=
  let x := s.queue h q
  let due := x.isDue t s.cyc
  let s := (s.setQueue h q (x.setTask { t with st := .ready, urgent := due, counted := due })).watchClear h
  if due ∨ t.due = 0 then s else s.at_ (t.due - x.lead) .taskUrgentDue { ns := [h, q, t.seq] }
/-- A waiting task is judged by what its home knows of its counters (R111). -/
def State.judge (s : State) (h q seq : Nat) : State :=
  match (s.queue h q).task seq with
  | none => s
  | some t =>
    if (t.st != .reading && t.st != .pending) || t.reads != 0 then s
    else if t.deps.all (·.2.2) then s.makeReady h q t
    else s.setQueue h q ((s.queue h q).setTask { t with st := .pending })
/-- A counter is put into the watch table where it has room (R111). -/
def State.watchAdd (s : State) (h pa : Nat) : State :=
  let m := s.home h
  if m.watch.contains pa ∨ m.watch.length ≥ 1024 then s else s.setHome h { m with watch := m.watch ++ [pa] }
/-- The counters of a task are read: a message to the home of each (R402). -/
def State.readCounters (s : State) (h q : Nat) (t : Task) : State :=
  let s := t.deps.foldl (fun s d => s.watchAdd h d.1) s
  let s := (t.deps.zip (upFrom 0 4)).foldl (fun s d =>
    s.after (hop h (homeOf d.1.1)) .counterReadAnswer { ctx := t.poster, ns := [h, q, t.seq, d.2, 0, 0] }) s
  let waits := s.agenda.any fun e => match e.2.1 with
    | .watchReread => e.2.2.ns.headD 0 == h
    | _ => false
  if waits ∨ t.deps.all fun d => (s.home h).watch.contains d.1 then s else s.after 4096 .watchReread { ns := [h] }
/-- A task takes a slot: it is ready at once when it names no counter, else its counters are read (R111). -/
def State.enterTask (s : State) (h q : Nat) (t : Task) : State :=
  let x := s.queue h q
  let s := s.setQueue h q { x with tasks := x.tasks ++ [{ t with st := .reading, reads := t.deps.length }] }
  if t.deps.isEmpty then s.judge h q t.seq else s.readCounters h q t

/-- COUNTER_READ_ANSWER (R111, R402): home, queue, sequence number, pair, and 0 while the read is at the counter's own home, which
registers the counter and sends its value; 2 for a read that the task already waits on. -/
def execCounterReadAnswer (s : State) : Host.Outcome State Fault Refusal :=
  let h := s.n 0
  let q := s.n 1
  match (s.queue h q).task (s.n 2) with
  | none => done (s.homeTick h)
  | some t =>
    match t.deps[s.n 3]? with
    | none => done (s.homeTick h)
    | some (pa, thr, _) =>
      let g := homeOf pa
      if s.n 4 % 2 = 0 then
        let v := Mem.read s.mem pa 8
        let here := (s.home g).regs.any fun r => r.pa == pa && r.home == some h
        let s := if here ∨ ¬ (s.home h).watch.contains pa then s else
          s.setHome g { s.home g with regs := (s.home g).regs ++ [{ pa := pa, home := some h, va := t.word (8 + 2 * s.n 3), last := v }] }
        done ((s.after (hop g h) .counterReadAnswer { s.arg with ns := [h, q, t.seq, s.n 3, s.n 4 + 1, v] }).homeTick h)
      else
        let t := { t with deps := t.deps.set (s.n 3) (pa, thr, decide (thr ≤ s.n 5)),
                          reads := if s.n 4 = 1 then t.reads - 1 else t.reads }
        done (((s.setQueue h q ((s.queue h q).setTask t)).judge h q t.seq).homeTick h)
/-- COUNTER_REPORT (R111, R112): home, counter and new value; every waiting task that names the counter is judged. -/
def execCounterReport (s : State) : Host.Outcome State Fault Refusal :=
  let h := s.n 0
  let upd (t : Task) : Task := { t with deps := t.deps.map fun d => if d.1 = s.n 1 then (d.1, d.2.1, decide (d.2.1 ≤ s.n 2)) else d }
  let waits (t : Task) : Bool := (t.st == .pending || t.st == .reading) && t.deps.any (·.1 == s.n 1)
  let s := (s.home h).queues.foldl (fun s e =>
    let x := s.queue h e.1
    let s := s.setQueue h e.1 { x with tasks := x.tasks.map fun t => if waits t then upd t else t }
    (x.tasks.filter waits).foldl (fun s t => s.judge h e.1 t.seq) s) s
  done (s.homeTick h)
/-- WATCH_REREAD (R111): the counters of pending tasks without a watch entry are read again, and once more in 4,096 cycles while a task
that waits, or is still read, has one. -/
def execWatchReread (s : State) : Host.Outcome State Fault Refusal :=
  let h := s.n 0
  let outside (s : State) (t : Task) : Bool := (t.st == .pending || t.st == .reading) && t.deps.any fun d => !(s.home h).watch.contains d.1
  let s := (s.home h).queues.foldl (fun s e => (e.2.tasks.filter fun t => t.st == .pending && outside s t).foldl (fun s t =>
    (t.deps.zip (upFrom 0 4)).foldl (fun s d =>
      if (s.home h).watch.contains d.1.1 then s
      else (s.watchAdd h d.1.1).after (hop h (homeOf d.1.1)) .counterReadAnswer { ctx := t.poster, ns := [h, e.1, t.seq, d.2, 2, 0] }) s) s) s
  done ((if (s.home h).queues.any fun e => e.2.tasks.any (outside s) then s.after 4096 .watchReread { ns := [h] } else s).homeTick h)
/-- TASK_URGENT_DUE (R118): home, queue and sequence number; the task counts once in urgent_unoffered. -/
def execTaskUrgentDue (s : State) : Host.Outcome State Fault Refusal :=
  let h := s.n 0
  let x := s.queue h (s.n 1)
  match x.task (s.n 2) with
  | some t => if t.st = .ready ∧ ¬ t.urgent ∧ x.isDue t s.cyc then
      done ((s.setQueue h (s.n 1) (x.setTask { t with urgent := true, counted := true })).homeTick h)
    else done (s.homeTick h)
  | none => done (s.homeTick h)

/-! ### Posting (R110, R126 to R128, R365, R443) -/

/-- A home named by an address that it owns. -/
def State.namedHome (s : State) (c : CtxId) (va : Nat) : Chk Nat := do
  let p ← s.aim c va 1 0 1 .f false false
  pure (homeOf p.key)
/-- ANCHOR DETAIL 1 to 6 of a descriptor's range and near words, and of addresses with their alignment (R418). -/
def anchorBad (w0 w1 : Nat) (mode : Bool) (rest : List Nat) (pc : Nat) (vas : List (Nat × Nat)) : Chk Unit := do
  let ava := bits w0 47 0
  let len8 := bits w0 59 48
  if mode ∧ 2 ≤ bits w0 61 60 then trap 54 1 ava
  if len8 = 0 ∨ 2048 < len8 then trap 54 2 ava
  if ava / 16384 ≠ (ava + 8 * len8 - 1) / 16384 then trap 54 3 ava
  if bit w0 63 ∨ w1 / 128 ≠ 0 ∨ rest.any (· != 0) then trap 54 4 ava
  if pc % 4 ≠ 0 then trap 54 5 pc
  match ((ava, 8) :: vas).find? fun e => e.1 % e.2 != 0 with
  | some e => trap 54 6 e.1
  | none => pure ()
/-- Locations of the used counters of a descriptor, in the order of its pairs. -/
def State.depPlaces (s : State) (c : CtxId) (w : Nat → Nat) : List Nat → Chk (List (Nat × Nat))
  | [] => pure []
  | j :: js => do
    if w (8 + 2 * j) = 0 then State.depPlaces s c w js
    else
      let p ← s.aim c (w (8 + 2 * j)) 8 0 8 .f false false
      let r ← State.depPlaces s c w js
      pure ((j, p.key) :: r)
/-- TPOST and TPOST.C (R365, R110). -/
def post (a b : Nat) (child : Bool) (s : State) : Host.Outcome State Fault Refusal :=
  word { a := rd .x a, b := rd .x b, da := true, db := true, scope := true, svc := false } s fun o t => do
    let c := t.cur
    let q := o.b % 64
    if child ∧ (t.ctx c).grant.isNone then trap 53 2 q
    let ws ← t.ownWords c o.a 128
    let w (i : Nat) := ws.getD i 0
    anchorBad (w 0) (w 1) true [] (w 2) ((w 7, 8) :: (upFrom 0 4).map fun j => (w (8 + 2 * j), 8))
    let p ← t.aim c (bits (w 0) 47 0) 8 0 8 .f true false
    let deps ← t.depPlaces c w (upFrom 0 4)
    let donePa ← if w 7 = 0 then pure 0 else do
      let d ← t.aim c (w 7) 8 0 8 .f true false
      pure (d.key + 1)
    let h := homeOf p.key
    let ns := [h, q, if child then 1 else 0, t.nextId, (t.core c.core).lid, p.key, donePa, t.spaceOf c] ++ ws ++
      [deps.length] ++ deps.flatMap (fun d => [d.1, d.2]) ++ o.releases t c
    pure (.done (t.fresh.after (latHome c.core h / 2) .tpostArrival { ctx := c, ns := ns }))
/-- TPOST (R365). -/
def execTpost (a b : Nat) (s : State) : Host.Outcome State Fault Refusal := post a b false s
/-- TPOST.C (R365, R127). -/
def execTpostC (a b : Nat) (s : State) : Host.Outcome State Fault Refusal := post a b true s
/-- Numbers taken two by two. -/
def pairs : List Nat → List (Nat × Nat)
  | a :: b :: r => (a, b) :: pairs r
  | _ => []
/-- Tasks of a queue that hold slots of its share (R126). -/
def Queue.used (x : Queue) : Nat := (x.tasks.filter fun t => !t.reserve).length
/-- TPOST_ARRIVAL (R110, R126, R127, R443): what its release order covers is performed first, and the context's earlier posts
to the home come first. -/
def execTpostArrival (s : State) : Host.Outcome State Fault Refusal :=
  let h := s.n 0
  let q := s.n 1
  let k := s.n 24
  let ids := s.arg.ns.drop (25 + 2 * k)
  let sooner := s.agenda.any fun e => e.2.2.ctx == s.arg.ctx && e.2.2.ns.headD 0 == h && decide (e.2.2.ns.getD 3 0 < s.n 3) && match e.2.1 with
    | .tpostArrival => true
    | _ => false
  if s.waitsFor s.arg.ctx.core ids ∨ sooner then done ((s.after 1 .tpostArrival s.arg).homeTick h)
  else if s.taskYields s.arg.ctx h q 1 then done (s.after 0 .tpostArrival s.arg)
  else
    let s := s.taskLog s.arg.ctx h q 1
    let x := s.queue h q
    let refuse (s : State) (d : Nat) : State := (s.pendAsync s.arg.ctx { cause := 53, detail := d, val := queueVal h q }).homeTick h
    if x.lid = 0 ∨ x.lid ≠ s.n 4 then done (refuse s 7)
    else
      let s' := s.setQueue h q { x with nextSeq := x.nextSeq + 1 }
      let desc := (upFrom 0 16).map fun i => s.n (8 + i)
      let t : Task := { seq := x.nextSeq, lid := s.n 4, asid := s.n 7, poster := s.arg.ctx, desc := desc, pa := s.n 5, donePa := s.n 6,
                        deps := (pairs ((s.arg.ns.drop 25).take (2 * k))).map fun d => (d.2, s.n (17 + 2 * d.1), false) }
      if x.used < x.share ∧ x.ring.isEmpty then done ((s'.enterTask h q t).homeTick h)
      else if s.n 2 = 1 ∧ x.share ≤ x.used ∧ (s.home h).reserveUsed < 256 then
        let s' := s'.setHome h { s'.home h with reserveUsed := (s.home h).reserveUsed + 1 }
        done ((s'.enterTask h q { t with reserve := true }).homeTick h)
      else if x.ring.length < x.worst - x.share then
        done ((s'.setQueue h q { s'.queue h q with ring := x.ring ++ [t] }).homeTick h)
      else done (refuse s' 6)

/-! ### Retire (R124, R128) -/

/-- Step 2: the DONE counter goes up by one; a poisoned one is reported and stands. `donePa` is one more than its location. -/
def State.bumpDone (s : State) (t : Task) : State :=
  if t.donePa = 0 then s
  else
    let pa := t.donePa - 1
    match s.poisoned pa 8 with
    | some u => (s.countPoison u).faultLog (homeOf pa / 64) 20 0 true (homeOf pa) (t.word 7) 0
    | none => s.wrMem pa 8 ((s.rdMem pa 8 + 1) % 18446744073709551616) 255 none
/-- Cycles from step 1 to the increment: one at the home itself, or a message's way. -/
def Task.doneHop (t : Task) (h : Nat) : Nat := if t.donePa = 0 then 1 else max 1 (hop h (homeOf (t.donePa - 1)))
/-- Cycles from the increment to the home's news of it. -/
def Task.newsHop (t : Task) (h : Nat) : Nat := if t.donePa = 0 then 0 else hop h (homeOf (t.donePa - 1))
/-- Step 3: the slot is freed, and the oldest task of the ring moves into a free slot of the share. -/
def State.freeSlot (s : State) (h q seq : Nat) : State :=
  let x := s.queue h q
  match x.task seq with
  | none => s
  | some t =>
    let holders := match t.st with
      | .far c => x.holders.filter (· != c)
      | _ => x.holders
    let s := s.setQueue h q { x with tasks := x.tasks.filter (·.seq != seq), holders := holders }
    if t.reserve then s.setHome h { s.home h with reserveUsed := (s.home h).reserveUsed - 1 }
    else match x.ring with
      | r :: rest => (s.setQueue h q { s.queue h q with ring := rest }).enterTask h q r
      | [] => s
/-- When the last context and pier task of a launch are gone, it ends (R75, R130). -/
def State.endIfOver (s : State) (lid : Nat) : State :=
  match s.launch lid with
  | some l => if s.launchEnded l then s.after 0 .launchCompletion { ns := [lid] } else s
  | none => s

/-! ### Steal groups (R116) -/

/-- TJOIN (R368): QUEUE 1 for a group of 64. -/
def execTjoin (a b : Nat) (s : State) : Host.Outcome State Fault Refusal :=
  word { a := rd .x a, b := rd .x b, da := true, db := true, svc := false } s fun o t => do
    let c := t.cur
    let h ← t.namedHome c o.a
    let q := o.b % 64
    let g := (t.ctx c).tgrp.toNat
    if bit g 0 ∧ bits g 17 9 = h ∧ bits g 8 3 = q then pure (.done t)
    else
      let x := t.queue h q
      let coming := (t.agenda.filter fun e => match e.2.1 with
        | .tjoinArrival => e.2.2.ns.headD 0 == h && e.2.2.ns.getD 1 0 == q
        | _ => false).length
      if x.members.length + x.holders.length + coming ≥ 64 then trap 53 1 (queueVal h q)
      let t := t.leaveGroup c
      let t := t.setCtx c { t.ctx c with tgrp := Word.ofN (1 + 8 * q + 512 * h) }
      pure (.done (t.after (latHome c.core h / 2) .tjoinArrival { ctx := c, ns := [h, q] }))
/-- TLEAVE (R368). -/
def execTleave (s : State) : Host.Outcome State Fault Refusal :=
  word { svc := false } s fun _ t => .ok (.done (t.leaveGroup t.cur))
/-- TJOIN_ARRIVAL (R116): the context becomes the last of the group's members; one too many is not admitted. -/
def execTjoinArrival (s : State) : Host.Outcome State Fault Refusal :=
  let h := s.n 0
  let c := s.arg.ctx
  if s.homeDue h 3 ∨ s.taskYields c h (s.n 1) 4 then done (s.after 0 .tjoinArrival s.arg)
  else
    let s := s.taskLog c h (s.n 1) 4
    let x := s.queue h (s.n 1)
    if x.members.any (·.ctx == c) then done (s.homeTick h)
    else if x.members.length + x.holders.length ≥ 64 then
      done ((s.pendAsync c { cause := 53, detail := 1, val := queueVal h (s.n 1) }).homeTick h)
    else done ((s.setQueue h (s.n 1) { x with members := x.members ++ [{ ctx := c }], holders := x.holders.filter (· != c) }).homeTick h)
/-- TLEAVE_ARRIVAL (R116): its offer is withdrawn; while it runs a task of the group it keeps its place in the count. -/
def execTleaveArrival (s : State) : Host.Outcome State Fault Refusal :=
  let h := s.n 0
  let c := s.arg.ctx
  if s.homeDue h 3 ∨ s.taskYields c h (s.n 1) 4 then done (s.after 0 .tleaveArrival s.arg)
  else
    let s := s.taskLog c h (s.n 1) 4
    let x := s.queue h (s.n 1)
    match x.members.findIdx? (·.ctx == c) with
    | none => done (s.homeTick h)
    | some i =>
      let last := if x.lastOffer = some c then (if i = 0 then none else (x.members[i - 1]?).map (·.ctx)) else x.lastOffer
      let holds := x.tasks.any fun t => t.st == .far c
      done ((s.setQueue h (s.n 1) { x with members := x.members.filter (·.ctx != c), lastOffer := last,
                                           holders := if holds then x.holders ++ [c] else x.holders }).homeTick h)

/-! ### TWAIT and offers (R368, R401) -/

/-- The value that a waiting word's answer brings goes to its register or link, and the word is complete; none while a FIFO has
no room. -/
def State.answer (s : State) (c : CtxId) (v : Nat) : Option State :=
  let x := s.ctx c
  let dst := x.chainMod.elim 0 fun p => (Mod.ofPayload p).dst
  let d := bits x.waitIr.toNat 25 21
  let f : Access := { id := 0, ctx := c, act := .load, kind := .f, key := 0, va := 0, n := 8, dcls := if dst = 0 then 1 else 7,
                      dreg := if dst = 0 then d else dst }
  ((if dst = 0 then s.cancel c 1 d else s).deliver f v).map (·.wake c)
/-- TWAIT (R368): an offer that is held returns at once. -/
def execTwait (d a : Nat) (s : State) : Host.Outcome State Fault Refusal :=
  word { rr d a with svc := false } s fun o t => do
    let c := t.cur
    let x := t.ctx c
    if bit x.tgrp.toNat 2 then retX (t.setCtx c { x with tgrp := x.tgrp - 4 }) c o d 1
    else if x.timed.isSome then throw (.retry .twait)
    else
      t.sfuAim c o.m.dst 0 t.cyc false
      let t := t.sleep c .twait
      pure (.left (if o.a = 0 then t else t.after o.a .twaitTimeout { ctx := c, ns := [(t.ctx c).waitNo] }))
/-- TWAIT_TIMEOUT (R368). -/
def execTwaitTimeout (s : State) : Host.Outcome State Fault Refusal :=
  let c := s.arg.ctx
  done (s.heldIf c .twaitTimeout fun s => if s.inWait c (s.n 0) then (s.answer c 0).getD (s.after 1 .twaitTimeout s.arg) else s)
/-- OFFER_ARRIVAL (R117, R401): it wakes TWAIT, or is held; one of a group that the context has left is dropped. -/
def execOfferArrival (s : State) : Host.Outcome State Fault Refusal :=
  let c := s.arg.ctx
  done (s.heldIf c .offerArrival fun s =>
    let x := s.ctx c
    let g := x.tgrp.toNat
    if !(x.live && bit g 0 && bits g 17 9 == s.n 0 && bits g 8 3 == s.n 1) then s
    else
      let hold := s.setCtx c { x with tgrp := x.tgrp ||| 4 }
      if x.st = .waiting ∧ x.wait = .twait then (s.answer c 1).getD hold else hold)

/-! ### Stealing (R119, R366) -/

/-- TSTEAL (R366): QUEUE 3 while it holds a task. -/
def execTsteal (d a b : Nat) (s : State) : Host.Outcome State Fault Refusal :=
  word { rrr d a b with scope := true, svc := false } s fun o t => do
    let c := t.cur
    let q := o.b % 64
    match (t.ctx c).grant with
    | some g => trap 53 3 (queueVal g.home g.queue)
    | none => pure ()
    let h ← t.namedHome c o.a
    if (t.ctx c).timed.isSome then throw (.retry .tsteal)
    t.sfuAim c o.m.dst 0 t.cyc false
    let t := t.sleep c .tsteal
    pure (.left (t.after (latHome c.core h / 2) .tstealArrival { ctx := c, ns := [h, q, (t.ctx c).waitNo, o.a] }))
/-- The task that a grant selects (R119). -/
def State.stealPick (s : State) (h q : Nat) : Option Task :=
  let x := s.queue h q
  let m := s.home h
  if x.depth > x.thr ∨ x.ready.any (x.isDue · s.cyc) then
    let el := x.ready.filter fun t => !(t.snap && m.flying.any t.overlaps)
    match leastTask x.effDue (el.filter (x.isDue · s.cyc)) with
    | some t => some t
    | none => leastTask (fun t => -(t.seq : Int)) el
  else none
/-- Can a home grant a task: it is ready, and its range is not lent nor in flight under SNAP (R119)? -/
def State.stealable (s : State) (h : Nat) (t : Task) : Bool := t.st == .ready && !(t.snap && (s.home h).flying.any t.overlaps)
/-- The task that a TSTEAL of a member gets: the choice of R119, or that of the log in a replay (R242, R460), where one that cannot be
granted is a divergence, told by the second part. -/
def State.stealGrant (s : State) (c : CtxId) (h q : Nat) : Option Task × Bool :=
  match s.logNext c.core.pyl with
  | none => (s.stealPick h q, false)
  | some (w, v) =>
    if w = logWord c.place 9 ∧ v % 512 = h ∧ v / 512 % 128 = q then
      match ((s.queue h q).task (v / 65536)).filter (s.stealable h ·) with
      | some t => (some t, false)
      | none => (s.stealPick h q, true)
    else (none, false)
/-- TSTEAL_ARRIVAL (R117, R119, R366, R371): it ends an offer of the home to the issuer; the home grants a task or refuses, and a
recording logs the grant. -/
def execTstealArrival (s : State) : Host.Outcome State Fault Refusal :=
  let h := s.n 0
  let q := s.n 1
  let c := s.arg.ctx
  if s.homeDue h 1 ∨ s.reportSoon h then done (s.after 0 .tstealArrival s.arg)
  else
    let way := latHome c.core h / 2
    let ended (e : Nat × Queue) : Nat × Queue :=
      (e.1, { e.2 with members := e.2.members.map fun m => if m.ctx = c then { m with outstanding := false } else m })
    let s := s.setHome h { s.home h with queues := (s.home h).queues.map ended }
    let (pick, bad) := if (s.queue h q).members.any (·.ctx == c) then s.stealGrant c h q else (none, false)
    let s := if bad then s.diverge (s.launchOf c.core) c.core.pyl (s.core c.core).sstep.toNat 2 else s
    match pick with
    | none => done ((s.after way .tstealAnswerArrival { ctx := c, ns := [h, q, s.n 2, 0] }).homeTick h)
    | some t =>
      let s := s.setQueue h q ((s.queue h q).setTask { t with st := .far c, counted := false })
      let s := s.record c.core.pyl (s.core c.core).sstep.toNat c.place 9 (h + q * 512 + t.seq * 65536)
      done ((s.after way .tstealAnswerArrival { ctx := c, ns := [h, q, s.n 2, 1, t.seq, t.pa, s.n 3] ++ t.desc }).homeTick h)
/-- Address of a context's task area as TSTEAL returns it (R119). -/
def State.areaVa (s : State) (c : CtxId) : Nat :=
  let off := s.taskArea c
  match c.core.kind with
  | .deck => 12 * 2 ^ 60 + c.core.pyl * 2 ^ 57 + c.core.y * 2 ^ 51 + c.core.x * 2 ^ 46 + off
  | _ => 5 * 2 ^ 60 + off
/-- The copy of a stolen descriptor lands in the context's task area; a doubleword that is poisoned at the home is poisoned there. -/
def State.landTask (s : State) (c : CtxId) (src : Nat) (desc : List Nat) : State :=
  let dst := s.ownBase c.core + s.taskArea c
  let t := s.wrMem dst 128 (ofLanes 64 desc) (2 ^ 128 - 1) (some c)
  let bad := (s.poison.filter fun u => decide (src ≤ u) && decide (u < src + 128)).map fun u => u - src + dst
  { t with poison := t.poison ++ bad }
/-- TSTEAL_ANSWER_ARRIVAL (R119, R131, R366, R429): a refusal writes 0; a grant writes the task area, `tsk` and x[D], and is a snapshot
boundary. A copy that meets poison leaves x[D] unwritten and raises ECC_UNCORRECTABLE; the task is the context's all the same
(notes/assumptions/89). -/
def execTstealAnswerArrival (s : State) : Host.Outcome State Fault Refusal :=
  let c := s.arg.ctx
  done (s.heldIf c .tstealAnswerArrival fun s =>
    if !s.inWait c (s.n 2) then s
    else if s.n 3 = 0 then (s.answer c 0).getD (s.after 1 .tstealAnswerArrival s.arg)
    else
      let src := taskKey (s.n 0) (s.n 1) (s.n 4)
      let dst := (s.ctx c).chainMod.elim 0 fun p => (Mod.ofPayload p).dst
      match if (s.poisoned src 128).isSome then
          some ((s.wake c).pendAsync c (eccTrap (s.n 6) (if dst = 0 then 1 else 0) (bits (s.ctx c).waitIr.toNat 25 21)))
        else s.answer c (s.areaVa c) with
      | none => s.after 1 .tstealAnswerArrival s.arg
      | some t =>
        let desc := s.arg.ns.drop 7
        let w0 := desc.headD 0
        let t := (t.landTask c src desc).snapBoundary c
        let x := t.ctx c
        t.setCtx c { x with
          tsk := Word.ofN (s.n 0 * 512 + s.n 1 * 8 + bits w0 61 60 * 2 + 1)
          grant := some { home := s.n 0, queue := s.n 1, seq := s.n 4, va := bits w0 47 0, pa := s.n 5, len8 := bits w0 59 48,
                          snap := bits w0 61 60 == 1 } })

/-! ### TRET (R124, R125, R134, R367) -/

/-- Anchored accesses and stores of a context that are still on their way. -/
def State.taskIds (s : State) (c : CtxId) : List Nat :=
  (s.flight.filter fun f => f.ctx == c && !f.performed && (f.kind == .a || f.act == .store)).map (·.id)
/-- Was the last of these accesses performed before this cycle? -/
def State.doneBefore (s : State) (ids : List Nat) : Bool :=
  s.flight.all fun f => !ids.contains f.id || (f.performed && decide (f.at_ < s.cyc))
/-- TRET (R367, R402): QUEUE 4 without a task; a store boundary, and the message to the home, which waits for the stores and anchored
accesses that are still to be performed. -/
def execTret (s : State) : Host.Outcome State Fault Refusal :=
  word { svc := false } s fun _ t => do
    let c := t.cur
    let x := t.ctx c
    match x.grant with
    | none => trap 53 4 0
    | some g =>
      let _ ← t.readReg c ⟨.x, .read, 1⟩
      if x.timed.isSome then throw (.retry .tret)
      let t := (t.boundary c).sleep c .tret
      pure (.left (t.after (latHome c.core g.home / 2) .tretArrival
        { ctx := c, ns := [g.home, g.queue, g.seq, (t.ctx c).waitNo, 0] ++ t.taskIds c }))
/-- TRET_ARRIVAL (R122, R124, R402): with 0 the batch is applied, or in COMMUTE mode the last effect has been performed, in an earlier cycle
than that of the increment; with 1 DONE goes up at its home; with 2 the slot is freed and the
answer sets off. -/
def execTretArrival (s : State) : Host.Outcome State Fault Refusal :=
  let h := s.n 0
  let q := s.n 1
  let c := s.arg.ctx
  match (s.queue h q).task (s.n 2) with
  | none => done (s.homeTick h)
  | some t =>
    let next (s : State) (n ph : Nat) : State := s.after n .tretArrival { s.arg with ns := [h, q, s.n 2, s.n 3, ph] }
    match s.n 4 with
    | 0 =>
      let buf := ((s.ctx c).grant.elim [] (·.buf))
      let ids := s.arg.ns.drop 5
      if s.waitsFor c.core ids then done ((s.after 1 .tretArrival s.arg).homeTick h)
      else if !t.snap then done ((next s (t.doneHop h - if s.doneBefore ids && t.doneHop h == 1 then 1 else 0) 1).homeTick h)
      else if buf.any fun e => s.yields c e.key (some c) then done (s.after 0 .tretArrival s.arg)
      else match buf.findSome? fun e => s.holdOf e.key 8 with
      | some mid => done ((s.holdWrite mid .tretArrival).homeTick h)
      | none =>
        let s := match buf with
          | e :: _ => s.arbitrate c e.key (some c)
          | [] => s
        let s := buf.foldl (fun s e => (s.signStore c e.val).wrMem e.key 8 e.val e.mask (some c)) s
        done ((next s (t.doneHop h) 1).homeTick h)
    | 1 =>
      let pa := t.donePa - 1
      if t.donePa ≠ 0 ∧ s.yields c pa (some c) then done (s.after 0 .tretArrival s.arg)
      else match if t.donePa = 0 then none else s.holdOf pa 8 with
      | some mid => done ((s.holdWrite mid .tretArrival).homeTick h)
      | none =>
        let s := if t.donePa = 0 then s else s.arbitrate c pa (some c)
        done ((next (s.bumpDone t) (t.newsHop h) 2).homeTick h)
    | _ => done (((s.freeSlot h q t.seq).after (latHome c.core h / 2) .tretAnswerArrival { ctx := c, ns := [s.n 3] }).homeTick h)
/-- STAGE_MOVE (R134): STG takes NEXT, and the core's members of the old stage's groups move to the new stage's. Where the two stages
have one queue, nobody moves, which no rule says (notes/assumptions/70). -/
def State.stageMove (s : State) (u : CoreId) : State :=
  let k := s.core u
  if !k.stagePend then s
  else
    let qOf (n : Nat) := (s.launchOf u).elim 0 fun l => (l.stages[n]?).elim 0 (·.q)
    let s := s.setCore u { k with stage := k.stageNext, stagePend := false }
    if qOf k.stage = qOf k.stageNext then s
    else u.ctxs.foldl (fun s c =>
      let g := (s.ctx c).tgrp.toNat
      if (s.ctx c).live ∧ bit g 0 ∧ bits g 8 3 = qOf k.stage then
        let h := bits g 17 9
        let s := s.leaveGroup c
        (s.setCtx c { s.ctx c with tgrp := Word.ofN (1 + 8 * qOf k.stageNext + 512 * h) }).after (latHome u h / 2) .tjoinArrival
          { ctx := c, ns := [h, qOf k.stageNext] }
      else s) s
/-- TRET_ANSWER_ARRIVAL (R367): the task is over, a pending stage move takes effect, and the context goes on at x1. -/
def execTretAnswerArrival (s : State) : Host.Outcome State Fault Refusal :=
  let c := s.arg.ctx
  done (s.heldIf c .tretAnswerArrival fun s => if s.inWait c (s.n 0) then
    let s := (s.wake c).setCtx c { (s.wake c).ctx c with pc := Word.ofN (s.rx c 1), tsk := 0, grant := none }
    s.stageMove c.core
  else s)

/-! ### QINFO (R370) -/

/-- QINFO (R370): as a fresh load, its destination is written when the answer returns. -/
def execQinfo (d a b : Nat) (s : State) : Host.Outcome State Fault Refusal :=
  word { rrr d a b with svc := false } s fun o t => do
    let c := t.cur
    let h ← t.namedHome c o.a
    t.sfuAim c o.m.dst 0 (t.cyc + latHome c.core h) false
    let dst := o.m.dst
    let t := if dst = 0 then t.cancel c 1 d else t
    let f : Access := { id := t.nextId, ctx := c, act := .load, kind := .f, key := 0, va := o.a, n := 8, performed := true,
                        dcls := if dst ≠ 0 then 7 else if d = 0 then 0 else 1, dreg := if dst = 0 then d else dst, lat := latHome c.core h }
    pure (.done ({ t.fresh with flight := t.flight ++ [f] }.after (f.lat / 2) .qinfoArrival { ctx := c, ns := [h, o.b % 64, f.id] }))
/-- What QINFO writes (R370). -/
def State.queueInfo (s : State) (h q : Nat) : Nat :=
  let x := s.queue h q
  x.depth + (x.tasks.filter (·.st == .pending)).length * 2 ^ 13 + (x.tasks.filter (·.far)).length * 2 ^ 26 +
    x.members.length * 2 ^ 33 + x.ring.length * 2 ^ 40
/-- QINFO_ARRIVAL (R370): every count is taken in this cycle, after the home's other work. -/
def execQinfoArrival (s : State) : Host.Outcome State Fault Refusal :=
  if s.homeDue (s.n 0) 4 ∨ s.reportSoon (s.n 0) then done (s.after 0 .qinfoArrival s.arg)
  else match s.access (s.n 2) with
    | none => done s
    | some f => done ((s.setAccess { f with got := s.queueInfo (s.n 0) (s.n 1) }).after (f.lat - f.lat / 2) .loadValueReturn
        { ctx := f.ctx, ns := [f.id] })

/-! ### PCALL (R139, R369) -/

/-- PCALL (R369): range and row are translated; ANCHOR 10 for a row at another home. -/
def execPcall (a : Nat) (s : State) : Host.Outcome State Fault Refusal :=
  word { a := rd .x a, da := true, scope := true, svc := false } s fun o t => do
    let c := t.cur
    let ws ← t.ownWords c o.a 64
    let w (i : Nat) := ws.getD i 0
    anchorBad (w 0) (w 1) false [w 6, w 7] 0 [(w 5, 2048)]
    let ava := bits (w 0) 47 0
    let p ← t.aim c ava 8 0 8 .f true false
    let r ← t.aim c (w 5) 8 0 8 .f true false
    let h := homeOf p.key
    if homeOf r.key ≠ h then trap 54 10 (w 5)
    if (t.ctx c).timed.isSome then throw (.retry .pcall)
    let t := t.sleep c .pcall
    let ns := [h, r.key, (t.ctx c).waitNo, t.spaceOf c, ava, p.key, bits (w 0) 59 48, w 1 % 64, w 2, w 3, w 4] ++ o.releases t c
    pure (.left (t.after (latHome c.core h / 2) .pcallAccept { ctx := c, ns := ns }))
/-- PCALL_ACCEPT (R139, R369): once one of the 16 call entries is free, the call enters the list and its row becomes empty. -/
def execPcallAccept (s : State) : Host.Outcome State Fault Refusal :=
  let h := s.n 0
  let m := s.home h
  if s.waitsFor s.arg.ctx.core (s.arg.ns.drop 11) ∨ m.calls.length ≥ 16 then done ((s.after 1 .pcallAccept s.arg).homeTick h)
  else
    let p : PCall := { ctx := s.arg.ctx, va := s.n 4, pa := s.n 5, len8 := s.n 6, entry := s.n 7, args := [s.n 8, s.n 9, s.n 10],
                       rowPa := s.n 1, asid := s.n 3 }
    let s' := s.setHome h { m with calls := m.calls ++ [p] }
    let s' : State := { s' with emptyRows := if s.emptyRows.contains p.rowPa then s.emptyRows else s.emptyRows ++ [p.rowPa] }
    done ((s'.after (latHome s.arg.ctx.core h / 2) .pcallAcceptNews { ctx := s.arg.ctx, ns := [s.n 2] }).homeTick h)
/-- PCALL_ACCEPT_NEWS (R369). -/
def execPcallAcceptNews (s : State) : Host.Outcome State Fault Refusal :=
  let c := s.arg.ctx
  done (s.heldIf c .pcallAcceptNews fun s => if s.inWait c (s.n 0) then s.wake c else s)

/-! ### The end of a job (R124, R138, R139, R445) -/

/-- A failure goes to the fault log (R445). -/
def State.pierFail (s : State) (h : Nat) (f : PierFail) : State := s.faultLog (h / 64) f.1 f.2.1 true h f.2.2 0
/-- A granule of an in-memory job is done: the job has one fewer to go (R210). -/
def State.granuleDone (s : State) (p seq : Nat) : State :=
  let y := s.pylon p
  match y.memBusy with
  | some r =>
    if r.cmd.seq = seq then (s.setPylon p { y with memBusy := some { r with left := r.left - 1 } }).after 0 .inMemoryJobTake { ns := [p] } else s
  | none => s
/-- What a sequence's end leaves: the job goes on, or its body is over, with a failure or without. -/
inductive PierOut where
  | more (s : State)
  | finished (s : State) (fail : Bool)
/-- The end of a sequence over n lines of the job in a pier (R136, R142, R445), with the next one set going: at the boundary the
refreshes that are owed are issued. A continuation ends 20 cycles on, and the job with it (R447). -/
def State.pierStep (s : State) (h n : Nat) (cont : Bool) : PierOut :=
  let s := s.setHome h { s.home h with refreshOwed := 0 }
  match s.pierJob h with
  | none => .finished s false
  | some j =>
    match s.pierSeq h j n cont with
    | .failed t f => .finished (t.pierFail h f) true
    | .rest t =>
      let m := t.home h
      .more ((t.setHome h { m with jobEnd := m.jobEnd + 20 }).after 20 .pierJobEnd { ns := [h, m.jobId, 0, n, 1] })
    | .ended t =>
      let m := t.home h
      let tail : Bool := if 10 ≤ j.entry then decide (t.cyc < m.jobEnd) else decide (0 < n) && (decide (m.jobPos < j.lines) || j.entry == 2)
      if tail then .more (t.pierNext h j) else .finished t false
/-- The master whose hold covers what the next sequence of the job in a pier may write, or a call's row after its last one (R193). -/
def State.pierHeld (s : State) (h n : Nat) : Option Nat := (s.pierJob h).bind fun j =>
  let m := s.home h
  let arrs := if !m.jobArrs.isEmpty then m.jobArrs else match s.pierResolve h j.asid j.args (pierArrays j.entry (8 * j.len8)) with
    | .ok (_, l) => l
    | .error _ => []
  let wr := (pierArrays j.entry (8 * j.len8)).any (·.2.2)
  let row := match m.job with
    | some (.call p) => if p.job.isNone && (decide (n = 0) || decide (j.lines ≤ m.jobPos + n)) then [(p.rowPa, 2048)] else []
    | _ => []
  ((if j.entry = 0 then [] else [(j.pa, 8 * j.len8)]) ++ (if wr then arrs.map (·.2) else []) ++ row).findSome? fun p => s.holdOf p.1 p.2
/-- A poisoned unit of what a call's row takes from its range (R139, R445). -/
def State.rowPoison (s : State) (p : PCall) : Option Nat := s.poisoned p.pa (min 2040 (8 * p.len8))
/-- A call of an instruction ends: its row is filled, as failed when the range's bytes for it are poisoned. -/
def State.callEnd (s : State) (h : Nat) (p : PCall) (fail : Bool) : State :=
  match if fail then none else s.rowPoison p with
  | some u => ((s.countPoison u).pierFail h (20, 0, p.va + (max u p.pa - p.pa))).fillRow p true
  | none => s.fillRow p fail
/-- The location of the DONE counter of the task in a pier. -/
def State.pierDone (s : State) (h : Nat) : Option Nat :=
  match (s.home h).job with
  | some (.task q seq) => ((s.queue h q).task seq).bind fun t => if t.donePa = 0 then none else some (t.donePa - 1)
  | _ => none
/-- The master whose hold covers it (R193). -/
def State.doneHeld (s : State) (h : Nat) : Option Nat := (s.pierDone h).bind (s.holdOf · 8)
/-- For whom, and where, a pier's step accesses a home: the sequence its range, the increment its counter (R399). -/
def State.pierPlace (s : State) (h ph : Nat) : Option (CtxId × Nat) :=
  (s.pierJob h).bind fun j =>
    if ph = 0 then (if j.entry = 0 then none else some (j.ctx, j.pa)) else if ph = 1 then (s.pierDone h).map (j.ctx, ·) else none
/-- PIER_JOB_END (R124, R138, R139, R142, R402, R445): home, job, phase, and for phase 0 the lines of the sequence that ends, and 1 for its
continuation: 0 the body's effects; 1 DONE goes up at its home; 2 the slot is freed; 3 the pier is idle again. With no job of that number an idle pier takes what
waits. -/
def execPierJobEnd (s : State) : Host.Outcome State Fault Refusal :=
  let h := s.n 0
  let m := s.home h
  let next (s : State) (n ph : Nat) : State := s.after n .pierJobEnd { ns := [h, m.jobId, ph] }
  if m.job.isNone ∨ m.jobId ≠ s.n 1 then done (s.homeTick h)
  else match if s.n 2 = 0 then s.pierHeld h (s.n 3) else if s.n 2 = 1 then s.doneHeld h else none with
  | some mid => done ((s.holdWrite mid .pierJobEnd).homeTick h)
  | none =>
    let at_ := s.pierPlace h (s.n 2)
    if at_.any fun e => s.yields e.1 e.2 none then done (s.after 0 .pierJobEnd s.arg) else
    let s := at_.elim s fun e => s.arbitrate e.1 e.2 none
    match m.job, s.n 2 with
    | none, _ => done s
    | some _, 3 => done ((s.setHome h { m with job := none }).homeTick h)
    | some (.call p), _ =>
      match s.pierStep h (s.n 3) (s.n 4 == 1) with
      | .more t => done (t.homeTick h)
      | .finished t f =>
        let t := match p.job with
          | none => t.callEnd h p f
          | some (py, seq) => t.granuleDone py seq
        done ((next t 1 3).homeTick h)
    | some (.task q seq), ph =>
      match (s.queue h q).task seq with
      | none => done ((next s 1 3).homeTick h)
      | some t =>
        match ph with
        | 0 => match s.pierStep h (s.n 3) (s.n 4 == 1) with
          | .more u => done (u.homeTick h)
          | .finished u true => done ((next u 1 2).homeTick h)
          | .finished u false => done ((next u (t.doneHop h) 1).homeTick h)
        | 1 => done ((next (s.bumpDone t) (t.newsHop h) 2).homeTick h)
        | _ => done (next (((s.freeSlot h q seq).homeTick h).endIfOver t.lid) 1 3)

/-! ### The governor (R133) -/

/-- Occupancy of a stage's queue in a pylon. -/
def State.occupancy (s : State) (l : Launch) (p q : Nat) : Nat :=
  (upFrom (64 * p) 64).foldl (fun n h => n + if (s.queue h q).lid = l.id then (s.queue h q).depth else 0) 0
/-- Clusters of a launch in a pylon. -/
def Launch.clusters (l : Launch) (p : Nat) : List Nat :=
  (upFrom (l.orgY / 2) (l.extH / 2)).flatMap fun cy => (upFrom (l.orgX / 2) (l.extW / 2)).map fun cx => clusterNo p cy cx
/-- The stages of a launch as number, occupancy and declaration. -/
def State.stageList (s : State) (l : Launch) (p : Nat) : List (Nat × Nat × StageDecl) :=
  (l.stages.zip (upFrom 0 l.stages.length)).map fun e => (e.2, s.occupancy l p e.1.q, e.1)
/-- The governor's move for a launch in a pylon: cluster and source stage. -/
def State.governorMove (s : State) (l : Launch) (p : Nat) : Option (Nat × Nat) :=
  let st := s.stageList l p
  let held (n : Nat) : List Nat := (l.clusters p).filter fun k => ((clusterCores k).all fun u => (s.core u).stage == n)
  let best (b t : Nat × Nat × StageDecl) (less : Nat → Nat → Bool) := if less t.2.1 b.2.1 then t else b
  let pick (c : List (Nat × Nat × StageDecl)) (less : Nat → Nat → Bool) := match c with
    | [] => none
    | x :: xs => some (xs.foldl (fun b t => best b t less) x)
  match pick (st.filter fun t => decide (t.2.2.hi < t.2.1)) (fun a b => decide (b < a)),
        pick (st.filter fun t => decide (t.2.1 < t.2.2.lo) && decide (t.2.2.min < (held t.1).length)) (fun a b => decide (a < b)) with
  | some src, some don =>
    let free := (held don.1).filter fun k => (clusterCores k).all fun u => !(s.core u).stagePend
    (free.foldl (fun (b : Option Nat) k => some (max k (b.getD 0))) none).map (·, src.1)
  | _, _ => none
/-- GOVERNOR_SAMPLE (R133): one move at most, of a cluster of the donor stage; the next sample is 4,096 cycles on. -/
def execGovernorSample (s : State) : Host.Outcome State Fault Refusal :=
  let p := s.n 0
  let mine := s.launches.filter fun l => bit l.pyls p && decide (1 < l.stages.length)
  if mine.isEmpty then done s
  else
    let s := match mine.findSome? fun l => s.governorMove l p with
      | none => s
      | some (k, n) => (clusterCores k).foldl (fun s u => s.setCore u { s.core u with stagePend := true, stageNext := n }) s
    done (s.after 4096 .governorSample { ns := [p] })

end Sys2Proof.Machine
end

