-- ==== Sys2Proof/Machine/Launch.lean ====
section
/-! DEFINITION. Commands (08_scheduling R208 to R218; 11_isa_scalar R291; 09_system R241; 23_faults_system R456, R457, R467):
LAUNCH and QPOST, the three servers of a command processor, how a launch is checked, placed, started and ended, and capture. -/

namespace Sys2Proof.Machine

/-! ### Status (R211) -/

/-- The status doubleword of a command is written; contexts of the issuer's core have notice (R286). A write that its address
no longer admits is dropped and logged. -/
def State.putStatus (s : State) (pyl asid statVa : Nat) (issuer : CtxId) (v : Nat) : State :=
  if statVa = 0 then s
  else match s.engineWalk asid statVa true with
    | .error (c, d) => s.faultLog pyl c d false issuer.place statVa 0
    | .ok (t, e) =>
      let t := t.wrMem (e.addr statVa) 8 v 255 none
      issuer.core.ctxs.foldl (fun t c => if (t.ctx c).live then t.setCtx c { t.ctx c with wfiCst := true } else t) t
/-- STATE 0 queued, 1 running, 2 completed, 3 refused; discarded tasks; code. -/
def statusWord (st disc code : Nat) : Nat := st * 4611686018427387904 + disc % 4294967296 * 65536 + code
/-- Half a round trip from a core of a command processor's pylon to the home of a VA of an address space (R147, R467). -/
def State.procHalf (s : State) (p asid va : Nat) : Nat := match s.engineWalk asid va false with
  | .ok (_, e) => latHome ⟨.span, p, 0, 0⟩ (homeOf (e.addr va)) / 2
  | .error _ => 0
def State.cmdStatus (s : State) (p : Nat) (c : Cmd) (st code : Nat) : State :=
  s.putStatus p c.asid c.statVa c.issuer (statusWord st 0 code)

/-! ### LAUNCH and QPOST (R209, R291) -/

/-- A nonzero reserved field of a command block (R209). -/
def blockBad (w : Nat → Nat) : Bool :=
  w 3 / 65536 != 0 || w 5 / 65536 != 0 || bits (w 5) 7 4 != 0 || w 6 != 0 || w 7 != 0 || (w 5 % 4 != 0 && w 1 != 0)
/-- An address that a command names, translated in its address space: precise XLATE or ACCESS with the failing VA. -/
def State.cmdPlace (s : State) (asid va : Nat) (wr : Bool) : Chk (State × Nat) := do
  if bits va 63 60 ≠ 0 then trap 17 3 va
  if bits va 59 48 ≠ 0 then trap 17 4 va
  match s.engineWalk asid va wr with
  | .error (c, d) => trap c d va
  | .ok (t, e) => pure (t, e.addr va)
/-- The root of an address space that a command issued at S names (R209); bits 11:0 of one that is not 4 KB aligned count as 0
(notes/assumptions/85). -/
def State.nameSpace (s : State) (asid root part : Nat) : State :=
  { s with roots := (asid, root / 4096 * 4096, part) :: s.roots.filter (·.1 != asid) }
/-- LAUNCH and QPOST (R291): PRIV at U without LPERM, ILLEGAL FIELD 3 for the block, STATVA and the header translated. -/
def command (a : Nat) (launch : Bool) (s : State) : Host.Outcome State Fault Refusal :=
  let may : Chk Unit := do
    if (s.ctx s.cur).level = .u ∧ !((s.launchOf s.cur.core).elim false (·.lperm)) then trap 2 0 s.ir.toNat
  wordWith { a := rd .x a, da := true, scope := true } s may (fun _ => may) fun o t => do
    let c := t.cur
    let x := t.ctx c
    let ws ← t.ownWords c o.a 64
    let w (i : Nat) := ws.getD i 0
    let type := w 5 % 4
    if blockBad w ∨ type = 3 ∨ (launch ∧ type ≠ 0) ∨ (!launch ∧ type = 0) then trap 1 0 o.a 3
    if w 2 % 8 ≠ 0 then trap 5 0 (w 2)
    if launch ∧ w 0 % 8 ≠ 0 then trap 5 0 (w 0 + 16)
    let priv := x.level ≠ .u
    let part := (t.partOf c).getD ((t.partition (firstPylon (bits (w 5) 15 8))).getD 8)
    let asid := if priv then w 3 % 65536 + 65536 * part else t.spaceOf c
    let root := if priv then w 4 else (t.rootOf asid).1
    let t := if priv then t.nameSpace asid root part else t
    let t ← if w 2 = 0 then pure t else do
      let (t, _) ← t.cmdPlace asid (w 2) true
      pure t
    let capture := launch ∧ w 0 = 0
    let (t, key) ← if !launch ∨ w 0 = 0 then pure (t, 0) else do
      t.cmdPlace asid (w 0 + 16) false
    if x.timed.isSome then throw (.retry .command)
    let t := t.sleep c .command
    let lat := latHome c.core (homeOf key)
    let phase := if launch ∧ !capture then 0 else 1
    let ns := [phase, (t.ctx c).waitNo, type, w 5 / 4 % 4, w 0, w 1, w 2, asid, root, bits (w 5) 15 8, part, key] ++ o.releases t c
    pure (.left (t.after (if phase = 0 then lat / 2 else 130) .commandBlockArrival { ctx := c, ns := ns }))
/-- LAUNCH (R291). -/
def execLaunch (a : Nat) (s : State) : Host.Outcome State Fault Refusal := command a true s
/-- QPOST (R291). -/
def execQpost (a : Nat) (s : State) : Host.Outcome State Fault Refusal := command a false s

/-- The step of a server. -/
def serverOf (type : Nat) : Instr := match type with
  | 0 => .computeCommandTake
  | 1 => .copyJobTake
  | _ => .inMemoryJobTake
/-- Set a server going, once in a cycle. -/
def State.poke (s : State) (type p n : Nat) : State :=
  if s.agenda.any fun e => e.2.1 == serverOf type && e.2.2.ns == [p] then s else s.after n (serverOf type) { ns := [p] }

/-- COMMAND_BLOCK_ARRIVAL (R208, R291, R467): 0 while the header's doublewords are read at their home, 1 when the command reaches its
command processor and is queued, 2 when the status that says so is performed at its home: a server may take it, and the news sets off. -/
def execCommandBlockArrival (s : State) : Host.Outcome State Fault Refusal :=
  let c := s.arg.ctx
  if s.waitsFor c.core (s.arg.ns.drop 12) then done (s.after 1 .commandBlockArrival s.arg)
  else if s.n 0 = 2 then
    let p := s.n 2
    match (s.pylon p).cmds.find? (·.seq == s.n 3) with
    | none => done s
    | some k =>
      let tell (m : Cmd) : Cmd := if m.seq = k.seq then { m with told := true } else m
      let t := (s.setPylon p { s.pylon p with cmds := (s.pylon p).cmds.map tell }).cmdStatus p k 0 0
      done ((t.poke k.type p 0).after 130 .commandQueuedNews { ctx := c, ns := [s.n 1] })
  else if s.n 0 = 0 then
    let key := s.n 11
    let lat := latHome c.core (homeOf key)
    match s.poisoned key 16 with
    | some u =>
      let s := s.pendAsync c { cause := 20, val := s.n 4 + 16 + (max u key - key) }
      done (if s.inWait c (s.n 1) then s.wake c else s)
    | none =>
      let h2 := Mem.read s.mem key 8
      let h3 := Mem.read s.mem (key + 8) 8
      let ns := [1, s.n 1, s.n 2, bits h3 9 8] ++ (s.arg.ns.drop 4).take 5 ++ [bits h2 23 16, s.n 10, key]
      done (s.after (lat - lat / 2 + 130) .commandBlockArrival { ctx := c, ns := ns })
  else
    let p := firstPylon (s.n 9)
    let y := s.pylon p
    let cmd : Cmd := { seq := y.nextCmd, type := s.n 2, pri := s.n 3, at_ := s.cyc, issuer := c, job := s.n 4, arg := s.n 5,
                       statVa := s.n 6, asid := s.n 7, root := s.n 8, part := s.n 10, pyls := s.n 9 }
    let s := s.setPylon p { y with cmds := y.cmds ++ [cmd], nextCmd := y.nextCmd + 1 }
    let s := s.after 1048576 .commandAging { ns := [p, cmd.seq] }
    let d := if cmd.statVa = 0 then 0 else s.procHalf p cmd.asid cmd.statVa
    done (s.after d .commandBlockArrival { ctx := c, ns := [2, s.n 1, p, cmd.seq] })
/-- COMMAND_QUEUED_NEWS (R467). -/
def execCommandQueuedNews (s : State) : Host.Outcome State Fault Refusal :=
  let c := s.arg.ctx
  done (s.heldIf c .commandQueuedNews fun s => if s.inWait c (s.n 0) then s.wake c else s)
/-- COMMAND_AGING (R208): pylon and command; a command that still waits moves up one priority and keeps its age. -/
def execCommandAging (s : State) : Host.Outcome State Fault Refusal :=
  let p := s.n 0
  let y := s.pylon p
  if y.cmds.any (·.seq == s.n 1) then
    let up (c : Cmd) : Cmd := if c.seq = s.n 1 then { c with pri := c.pri - 1 } else c
    done ((s.setPylon p { y with cmds := y.cmds.map up }).after 1048576 .commandAging s.arg)
  else done s

/-- The command that a server takes next: the oldest of the highest non-empty priority (R208), once its queued status is performed. -/
def Pylon.next (y : Pylon) (type : Nat) : Option Cmd :=
  ((y.cmds.filter (·.type == type)).foldl (fun b c => match b with
    | none => some c
    | some d => if c.pri < d.pri || (c.pri == d.pri && decide (c.seq < d.seq)) then some c else b) none).filter (·.told)
def State.dropCmd (s : State) (p seq : Nat) : State :=
  s.setPylon p { s.pylon p with cmds := (s.pylon p).cmds.filter (·.seq != seq) }

/-! ### Step 1: header and tables (R212, R214) -/

/-- n bytes at a VA of an address space; none where it does not translate. -/
def State.spaceRead (s : State) (asid va : Nat) : Nat → Nat → Option (State × Nat)
  | 0, _ => some (s, 0)
  | f + 1, n =>
    if n = 0 then some (s, 0)
    else if 281474976710656 ≤ va then none
    else
      let k := min n (65536 - va % 65536)
      match s.engineWalk asid va false with
      | .error _ => none
      | .ok (t, e) => match State.spaceRead t asid (va + k) f (n - k) with
        | none => none
        | some (t, r) => some (t, t.rdMem (e.addr va) k + 256 ^ k * r)
/-- Bits that rows of the header table name, by doubleword (R212). -/
def hdrMask (i : Nat) : Nat :=
  if i = 2 then bitMask 45 40 + bitMask 36 32 + bitMask 24 24 + bitMask 23 16 + bitMask 14 8 + bitMask 5 0
  else if i = 3 then bitMask 31 28 + bitMask 27 20 + bitMask 17 16 + bitMask 13 12 + bitMask 9 8 + bitMask 5 0
  else if i = 4 then bitMask 8 0
  else if i = 8 then bitMask 12 0
  else if i = 10 then bitMask 6 0
  else if i = 11 then bitMask 1 0
  else if 12 ≤ i ∧ i < 16 then bitMask 55 40 + bitMask 39 24 + bitMask 17 8 + bitMask 5 0
  else if i = 24 then bitMask 15 0
  else if 25 ≤ i then 0
  else bitMask 63 0
/-- Fields of a header. -/
def Plan.w (p : Plan) (i : Nat) : Nat := p.hdr.getD i 0
def Plan.fix (p : Plan) : Bool := bit (p.w 2) 24
def Plan.pyls (p : Plan) : Nat := bits (p.w 2) 23 16
def Plan.extH (p : Plan) : Nat := bits (p.w 2) 14 8
def Plan.extW (p : Plan) : Nat := bits (p.w 2) 5 0
def Plan.fp (p : Plan) : Nat := if bits (p.w 3) 31 28 = 0 then 4 else bits (p.w 3) 31 28
def Plan.slim (p : Plan) : Nat := bits (p.w 3) 27 20
def Plan.crn (p : Plan) : Bool := bit (p.w 3) 13
def Plan.pw (p : Plan) : Nat := bits (p.w 3) 5 0
def Plan.dmask (p : Plan) : Nat := p.w 6 / 2 * 2
def Plan.schl (p : Plan) : Nat := if p.w 7 = 0 then 0 else p.w 8
/-- Stage words that declare a stage: a header whose only stage word is 0 declares none. -/
def Plan.stageWords (p : Plan) : List Nat :=
  if p.w 11 = 0 ∧ p.w 12 = 0 then [] else (upFrom 0 (p.w 11 + 1)).map fun i => p.w (12 + i)
/-- Fields inside their limits (R83, R212, R213)? -/
def Plan.ok (p : Plan) : Bool :=
  let win := p.pw % 16
  (upFrom 0 32).all (fun i => p.w i % (2 ^ 64) &&& hdrMask i == p.w i) && p.w 0 % 65536 == 0 && p.pyls != 0 &&
  (!p.fix || (p.w 2 / 2 ^ 40 % 2 == 0 && p.w 2 / 2 ^ 32 % 2 == 0)) &&
  decide (2 ≤ p.extH) && decide (p.extH ≤ 64) && p.extH % 2 == 0 && decide (2 ≤ p.extW) && decide (p.extW ≤ 32) && p.extW % 2 == 0 &&
  decide (bits (p.w 3) 31 28 ≤ 4) && bits (p.w 3) 17 16 != 3 &&
  decide (1 ≤ win) && decide (win ≤ 11) && decide (win * 8192 + 2048 + p.pw / 16 * 65536 ≤ p.fp * 65536) &&
  decide (16 ≤ p.w 4) && decide (p.w 4 ≤ 256) && p.w 4 % 16 == 0 &&
  (p.w 7 == 0 || (decide (1 ≤ p.w 8) && decide (p.w 8 ≤ 4096))) && decide (p.w 10 ≤ 64) &&
  p.stageWords.all fun w => decide (1 ≤ bits w 17 8) && decide (bits w 17 8 ≤ 512)
/-- The queue table (R212): every queue once, W no less than S, reserved bits zero. -/
def queuesOk : List (Nat × Nat) → Bool
  | [] => true
  | (a, b) :: r => bits a 15 6 == 0 && bits a 31 28 == 0 && decide (bits a 27 16 ≤ b % 4294967296) &&
      !(r.any fun e => e.1 % 64 == a % 64) && queuesOk r
/-- A schedule bit below L toward a neighbour outside the placement (R97, R212), for the core at a relative position. -/
def schedBad (l w h ry rx v : Nat) : Bool :=
  let row (d : Nat) := v / 2 ^ (4096 * d) % 2 ^ l
  (ry == 0 && row 0 != 0) || (rx + 1 == w && row 1 != 0) || (ry + 1 == h && row 2 != 0) || (rx == 0 && row 3 != 0)
/-- Members that a domain bitmap names relative to the placement, in the order of its bits; deck cores by their upper left core. -/
def domainCores (v : Nat) : List (CoreKind × Nat × Nat) :=
  ((setBits v 2048).map fun i => (CoreKind.span, i / 32, i % 32)) ++
  (setBits (v / 2 ^ 2048) 512).map fun i => (CoreKind.deck, i / 16 * 2, i % 16 * 2)
/-- A domain bitmap that names a core outside the placement (R211). -/
def Plan.domainBad (p : Plan) (e : Nat × Nat × Nat) : Bool :=
  (e.2.2 != 0 && !bit p.pyls e.2.1) || (domainCores e.2.2).any fun c => decide (p.extH ≤ c.2.1) || decide (p.extW ≤ c.2.2)
/-- Numbers read one after another. -/
def State.readList (s : State) (asid : Nat) : List (Nat × Nat) → Option (State × List Nat)
  | [] => some (s, [])
  | (va, n) :: r => match s.spaceRead asid va 3 n with
    | none => none
    | some (t, v) => match State.readList t asid r with
      | none => none
      | some (t, vs) => some (t, v :: vs)
/-- The header (R214, step 1), or the refusal code. -/
def State.readHeader (s : State) (cmd : Cmd) : Except Nat (State × Plan) := do
  if cmd.job % 256 ≠ 0 then throw 16
  let some (s, h) := s.spaceRead cmd.asid cmd.job 3 256 | throw 16
  let p : Plan := { hdr := lanes h 64 32 }
  if !p.ok ∨ p.pyls ≠ cmd.pyls ∨ bits (p.w 3) 9 8 ≠ cmd.pri then throw 16
  if (upFrom 0 8).any fun y => bit p.pyls y && s.partition y != some cmd.part then throw 16
  pure (s, p)
/-- Entries of the domain table, and positions of the schedule table, that a header names (R212). -/
def Plan.domEntries (p : Plan) : List (Nat × Nat) := (setBits p.dmask 64).flatMap fun d => (upFrom 0 8).map fun y => (d, y)
def Plan.schEntries (p : Plan) : List (Nat × Nat) :=
  if p.w 7 = 0 then [] else (upFrom 0 p.extH).flatMap fun ry => (upFrom 0 p.extW).map fun rx => (ry, rx)
def Plan.domVa (p : Plan) (e : Nat × Nat) : Nat := p.w 5 + (e.1 * 8 + e.2) * 320
def Plan.schVa (p : Plan) (e : Nat × Nat) : Nat := p.w 7 + (e.1 * 32 + e.2) * 2560
/-- Half the longest round trip to a home that holds an entry of the tables (R467). -/
def State.tableHalf (s : State) (p asid : Nat) (l : Plan) : Nat :=
  let vas := (upFrom 0 (l.w 10)).map (fun i => l.w 9 + 16 * i) ++ l.domEntries.map l.domVa ++ l.schEntries.map l.schVa
  vas.foldl (fun n va => max n (s.procHalf p asid va)) 0
/-- The tables (R214, step 1), or the refusal code. -/
def State.readTables (s : State) (cmd : Cmd) (p : Plan) : Except Nat (State × Plan) := do
  let doms := p.domEntries
  let pos := p.schEntries
  let some (s, qs) := s.readList cmd.asid ((upFrom 0 (2 * p.w 10)).map fun i => (p.w 9 + 8 * i, 8)) | throw 16
  let some (s, ds) := s.readList cmd.asid (doms.map fun e => (p.domVa e, 320)) | throw 16
  let some (s, sc) := s.readList cmd.asid (pos.map fun e => (p.schVa e, 2560)) | throw 16
  let p := { p with qt := pairs qs, doms := (doms.zip ds).map fun e => (e.1.1, e.1.2, e.2), sch := sc }
  if !queuesOk p.qt then throw 16
  if (pos.zip sc).any fun e => schedBad p.schl p.extW p.extH e.1.1 e.1.2 e.2 then throw 18
  if p.doms.any p.domainBad then throw 21
  pure (s, p)

/-! ### Step 2: placement (R213, R215) -/

/-- Clusters of a rectangle in every pylon of a set. -/
def rectClusters (pyls ox oy w h : Nat) : List Nat :=
  ((upFrom 0 8).filter (bit pyls ·)).flatMap fun p => (upFrom (oy / 2) (h / 2)).flatMap fun cy =>
    (upFrom (ox / 2) (w / 2)).map fun cx => clusterNo p cy cx
/-- The launches that hold a cluster. -/
def State.holders (s : State) (k : Nat) : List Launch :=
  s.launches.filter fun l => (rectClusters l.pyls l.orgX l.orgY l.extW l.extH).contains k
/-- Origins that FIX and the arrays admit, in the order of choice. -/
def Plan.origins (p : Plan) : List (Nat × Nat) :=
  let all := if p.fix then [(bits (p.w 2) 36 32, bits (p.w 2) 45 40)] else
    (upFrom 0 32).flatMap fun j => (upFrom 0 16).map fun i => (2 * i, 2 * j)
  all.filter fun o => decide (o.1 + p.extW ≤ 32) && decide (o.2 + p.extH ≤ 64)
/-- Is every cluster of a list enabled, in a pylon that is on (R233), and none failed to wake (R457)? -/
def State.usable (s : State) (ks : List Nat) : Bool :=
  ks.all fun k => enabled (k / 512) (k % 512 / 16) (k % 16) && !s.off (k / 512) && (s.cluster k).power != .failed
/-- The unit at which a launch can have a rectangle (R213, R215): the top one of a rectangle that no launch holds, else, for a
compact launch, the highest at which its footprint meets no holder's. -/
def State.unitFor (s : State) (p : Plan) (ks : List Nat) : Option Nat :=
  if ks.any fun k => (s.cluster k).gateReq then none
  else
    let hs := s.launches.filter fun l => ks.any fun k => (rectClusters l.pyls l.orgX l.orgY l.extW l.extH).contains k
    if hs.isEmpty then some (4 - p.fp)
    else if p.fp = 4 then none
    else
      let clash (u : Nat) : Bool := hs.any fun l => (l.crn && p.crn) ||
        footMeet (footprintOf p.pw p.fp p.slim u) (footprintOf l.pw l.fp l.slim l.unit)
      ((upFrom 0 (5 - p.fp)).reverse).find? fun u => !clash u
/-- Rectangles that can be had, with their unit and clusters. -/
def State.rects (s : State) (p : Plan) : List (Nat × Nat × Nat × List Nat) :=
  p.origins.filterMap fun o =>
    let ks := rectClusters p.pyls o.1 o.2 p.extW p.extH
    if !s.usable ks then none else (s.unitFor p ks).map fun u => (o.1, o.2, u, ks)
/-- Clusters of a list without power. -/
def State.asleep (s : State) (ks : List Nat) : Nat := (ks.filter fun k => (s.cluster k).power != .awake).length
/-- The choice of R215: the first awake rectangle; after the wait, the one with the fewest gated clusters. -/
def State.choose (s : State) (p : Plan) (late : Bool) : Option (Nat × Nat × Nat × List Nat) :=
  let rs := s.rects p
  match rs.find? fun r => s.asleep r.2.2.2 == 0 with
  | some r => some r
  | none => if !late then none else
      rs.foldl (fun b r => match b with
        | none => some r
        | some q => if s.asleep r.2.2.2 < s.asleep q.2.2.2 then some r else b) none
/-- How long a launch waits for an awake rectangle: 21,000 cycles when every candidate needs a gated pylon (R215). -/
def State.placeWait (s : State) (p : Plan) : Nat :=
  let rs := s.rects p
  if !rs.isEmpty ∧ rs.all (fun r => r.2.2.2.any fun k => (s.cluster k).power == .gated && (s.pylon (k / 512)).gated) then 21000 else 1680

/-! ### Step 3: reservations (R129) -/

/-- Sum of the shares at a home. -/
def Home.shares (m : Home) : Nat := m.queues.foldl (fun n e => n + if e.2.lid = 0 then 0 else e.2.share) 0
/-- The code of a reservation that fails. DEDUCED: a queue is reserved at every home of the module, as an anchor may have any.
Whether the rings, spill areas and save areas find room is free. -/
def State.reserveFail (s : State) (p : Plan) : Option Nat :=
  let homes := upFrom 0 512
  if p.qt.any fun e => homes.any fun h => (s.queue h (e.1 % 64)).lid != 0 then some 20
  else if homes.any fun h => decide (3840 < (s.home h).shares + p.qt.foldl (fun n e => n + bits e.1 27 16) 0) then some 19
  else match Config.outcome s.free % 3 with
    | 0 => none
    | 1 => if p.qt.isEmpty then none else some 19
    | _ => some 22
def State.reserve (s : State) (p : Plan) (lid : Nat) : State :=
  (upFrom 0 512).foldl (fun s h => p.qt.foldl (fun s e =>
    let x := s.queue h (e.1 % 64)
    s.setQueue h (e.1 % 64) { lid := lid, share := bits e.1 27 16, worst := e.2 % 4294967296, thr := bits e.1 63 32,
                              lead := e.2 / 4294967296, nextSeq := x.nextSeq }) s) s
/-- Every reservation of a launch is given back; how many tasks its queues held. -/
def State.unreserve (s : State) (lid : Nat) : State × Nat :=
  s.homes.foldl (fun r e =>
    let mine := e.2.queues.filter (·.2.lid == lid)
    let n := mine.foldl (fun n q => n + q.2.tasks.length + q.2.ring.length) 0
    let res := mine.foldl (fun n q => n + (q.2.tasks.filter (·.reserve)).length) 0
    let m := r.1.home e.1
    ((r.1.setHome e.1 { m with queues := m.queues.filter (·.2.lid != lid), reserveUsed := m.reserveUsed - res }).watchClear e.1, r.2 + n)) (s, 0)

/-! ### Steps 4 to 6: wakes, loading and starting (R75, R214, R412) -/

/-- The launch as placed. -/
def Plan.launch (p : Plan) (cmd : Cmd) (lid ox oy u : Nat) (cap : Bool) : Launch :=
  let here (e : Nat × Nat × Nat) : List CoreId := (domainCores e.2.2).map fun c => ⟨c.1, e.2.1, oy + c.2.1, ox + c.2.2⟩
  let l : Launch := { id := lid, pyls := p.pyls, orgX := ox, orgY := oy, extW := p.extW, extH := p.extH, asid := cmd.asid, root := cmd.root,
                      part := cmd.part, lperm := bit (p.w 3) 12, power := bits (p.w 3) 17 16, dmask := p.dmask,
                      queues := p.qt.map (·.1 % 64), nstg := p.w 11, stages := p.stageWords.map fun w =>
                        { hi := bits w 55 40, lo := bits w 39 24, min := bits w 17 8, q := w % 64 },
                      statVa := cmd.statVa, issuer := cmd.issuer, hdrVa := cmd.job, pw := p.pw, fp := p.fp, unit := u, slim := p.slim,
                      crn := p.crn, captured := cap }
  { l with doms := (0, l.cores) :: (setBits p.dmask 64).map fun d => (d, (p.doms.filter (·.1 == d)).flatMap here) }
/-- A core as step 5 loads it. The stage it is assigned at first is free (R89). -/
def State.loadCore (s : State) (p : Plan) (l : Launch) (u : CoreId) : State :=
  let k := s.core u
  let live := u.ctxs.any fun c => (s.ctx c).live
  let s := if k.lid ≠ 0 ∧ live then { s with away := s.away ++ [(u, k, u.ctxs.map (s.ctx ·))] } else s
  let v := p.sch.getD ((u.y - l.orgY) * l.extW + (u.x - l.orgX)) 0
  let memb := l.doms.foldl (fun m e => if e.2.contains u then m ||| 2 ^ e.1 else m) 0
  let stage := if l.stages.length ≤ 1 then 0 else Config.outcome (s.free + u.cluster) % l.stages.length
  let k := if u.kind = .span then
      { k with pw := p.pw, crn := p.crn, fp := p.fp, unit := l.unit, schedLen := p.schl,
               fd := (upFrom 0 16).map fun i => (i, if bit (p.w 24) i then BitVec.ofNat 32 (lane (p.w (16 + i / 2)) 32 (i % 2)) else 0),
               sched := (upFrom 0 5).map fun d => (d, v / 2 ^ (4096 * d) % 2 ^ p.schl) }
    else { k with pw := p.pw, crn := p.crn, fp := p.fp }
  s.setCore u { k with lid := l.id, memb := BitVec.ofNat 64 memb, bdom := 0, sstep := 0, stage := stage, stagePend := false }
/-- A core's contexts as the launch starts them: every one has the vectors of R412, and context 0 the start state of R75. -/
def State.startCore (s : State) (p : Plan) (l : Launch) (arg : Nat) (u : CoreId) : State :=
  let tv := Word.ofN (s.ctl (4352 + 8 * l.part))
  let hv := Word.ofN (s.ctl 4544)
  let s := u.ctxs.foldl (fun s c =>
    let x := s.ctx c
    let y : Ctx := { x.freed with trapS := { vec := tv }, trapH := { vec := hv } }
    s.setCtx c y) s
  let c : CtxId := ⟨u, 0⟩
  let pc := p.w 0 + (if u.kind = .span then p.w 1 % 4294967296 else p.w 1 / 4294967296)
  let s := s.clearWindow c
  let x := { (s.ctx c).cleared with level := .u, asid := BitVec.ofNat 16 l.asid }
  ((s.setCtx c (x.begin (Word.ofN pc) 15 s.cyc)).wx c 2 arg).wx c 3 15
/-- Step 6: the launch runs. -/
def State.startLaunch (s : State) (p : Nat) (pl : Placing) (l : Launch) : State :=
  let ks := rectClusters l.pyls l.orgX l.orgY l.extW l.extH
  let alone (k : Nat) : Bool := (s.holders k).length ≤ 1
  let s := ks.foldl (fun s k => s.setCluster k { s.cluster k with rc := pl.plan.w 4, ev := if alone k then [] else (s.cluster k).ev }) s
  let s := l.cores.foldl (fun s u => (s.loadCore pl.plan l u).startCore pl.plan l pl.cmd.arg u) s
  let s := { s with free := s.free + 1 }.setLaunch { l with started := true }
  let s := (s.setPylon p { s.pylon p with placing := none }).cmdStatus p pl.cmd 1 0
  let pyls := (upFrom 0 8).filter (bit l.pyls ·)
  let s := pyls.foldl (fun s y => s.traceFor (some l) y 0 (⟨⟨.span, y, l.orgY, l.orgX⟩, 0⟩ : CtxId).place 7 l.hdrVa) s
  let s := if l.stages.length ≤ 1 then s else pyls.foldl (fun s y =>
    if s.agenda.any fun e => e.2.1 == .governorSample && e.2.2.ns == [y] then s
    else s.at_ ((s.cyc / 4096 + 1) * 4096) .governorSample { ns := [y] }) s
  s.poke 0 p 1
/-- A launch is refused (R211): what it had reserved is given back. -/
def State.refuse (s : State) (p : Nat) (pl : Placing) (code : Nat) : State :=
  let s := (s.unreserve pl.lid).1
  let s : State := if pl.lid = 0 then s else { s with launches := s.launches.filter (·.id != pl.lid) }
  ((s.setPylon p { s.pylon p with placing := none }).cmdStatus p pl.cmd 3 code).poke 0 p 1
/-- Is a core of a placement free for the incoming launch: no context of another launch on it runs (R215)? -/
def State.coreFree (s : State) (u : CoreId) : Bool := u.ctxs.all fun c => !(s.ctx c).live || (s.ctx c).st == .stopped
/-- The launch goes on: it chooses, reserves, waits for wakes and turns, and starts. -/
def State.placeOn (s : State) (p : Nat) (pl : Placing) : State :=
  if pl.lid ≠ 0 then
    match s.launch pl.lid with
    | none => s.refuse p pl 22
    | some l =>
      let ks := rectClusters l.pyls l.orgX l.orgY l.extW l.extH
      if !s.usable ks then
        let s := (s.unreserve l.id).1
        let s : State := { s with launches := s.launches.filter (·.id != l.id) }
        (s.setPylon p { s.pylon p with placing := some { pl with lid := 0 } }).poke 0 p 0
      else if s.asleep ks = 0 ∧ l.cores.all (s.coreFree ·) then s.startLaunch p pl l
      else ((ks.filter fun k => (s.cluster k).power == .gated).foldl State.wakeCluster s).poke 0 p 1
  else
    let any := pl.plan.origins.any fun o => s.usable (rectClusters pl.plan.pyls o.1 o.2 pl.plan.extW pl.plan.extH)
    if !any then s.refuse p pl 17
    else match s.choose pl.plan pl.late with
      | some (ox, oy, u, ks) =>
        match s.reserveFail pl.plan with
        | some code => { s with free := s.free + 1 }.refuse p pl code
        | none =>
          let l := pl.plan.launch pl.cmd s.nextLid ox oy u (s.pylon p).capture
          let s : State := { s with launches := s.launches ++ [l], nextLid := s.nextLid + 1, free := s.free + 1 }
          let s := s.reserve pl.plan l.id
          let s := ks.foldl (fun s k => s.wakeCluster k) s
          (s.setPylon p { s.pylon p with placing := some { pl with lid := l.id } }).poke 0 p 0
      | none =>
        match pl.until_ with
        | some _ => (s.setPylon p { s.pylon p with placing := some pl }).poke 0 p 1
        | none =>
          let n := s.placeWait pl.plan
          ((s.setPylon p { s.pylon p with placing := some { pl with until_ := some (s.cyc + n) } }).poke 0 p 1).after n
            .placementWaitExpiry { ns := [p, pl.cmd.seq, 0] }
/-- A launch that was taken goes on with its fresh loads (R467): each is performed half a round trip after it sets off and its values
are there after the other half. -/
def State.readOn (s : State) (p : Nat) (pl : Placing) : State :=
  let go (s : State) (pl : Placing) (n : Nat) : State :=
    (s.setPylon p { s.pylon p with placing := some pl }).after n .computeCommandTake { ns := [p, 1] }
  let back := s.procHalf p pl.cmd.asid pl.cmd.job
  match pl.reads with
  | 3 => match s.readHeader pl.cmd with
    | .error code => go s { pl with reads := 1, bad := code } back
    | .ok (t, plan) => go t { pl with reads := 2, plan := plan } (back + t.tableHalf p pl.cmd.asid plan)
  | 2 =>
    let back := s.tableHalf p pl.cmd.asid pl.plan
    match s.readTables pl.cmd pl.plan with
    | .error code => go s { pl with reads := 1, bad := code } back
    | .ok (t, plan) => go t { pl with reads := 1, plan := plan } back
  | _ => if pl.bad ≠ 0 then s.refuse p pl pl.bad else s.placeOn p { pl with reads := 0 }
/-- COMPUTE_COMMAND_TAKE (R208, R214): the launch being placed goes on, with its loads as their time comes (`ns` of length 2), or the
next command is taken; a capture packet is a step of its own (R241). -/
def execComputeCommandTake (s : State) : Host.Outcome State Fault Refusal :=
  let p := s.n 0
  let y := s.pylon p
  match y.placing with
  | some pl =>
    if pl.reads = 0 then done (s.placeOn p pl)
    else if s.arg.ns.length = 2 then done (s.readOn p pl)
    else done s
  | none => match y.next 0 with
    | none => done s
    | some cmd =>
      if cmd.job = 0 then done (s.after 0 (if bit cmd.arg 0 then .stopCapture else .startCapture) { ns := [p] })
      else
        let s := s.dropCmd p cmd.seq
        let s := s.setPylon p { s.pylon p with placing := some { cmd := cmd, plan := {}, reads := 3 } }
        done (s.after (s.procHalf p cmd.asid cmd.job) .computeCommandTake { ns := [p, 1] })
/-- Does a launch being placed depend on a cluster of another launch: it holds a placement with it, or has no usable rectangle without it? -/
def State.dependsOn (s : State) (pl : Placing) (k : Nat) : Bool :=
  let ks (ox oy : Nat) : List Nat := rectClusters pl.plan.pyls ox oy pl.plan.extW pl.plan.extH
  (s.holders k).any (·.id != pl.lid) && match s.launch pl.lid with
  | some l => (ks l.orgX l.orgY).contains k
  | none => pl.plan.origins.all fun o => (ks o.1 o.2).contains k || !s.usable (ks o.1 o.2)
/-- PLACEMENT_WAIT_EXPIRY (R215, R456): pylon, command, and a code and a cluster when the cluster's save has failed: a launch that depends
on it is refused. The rectangle with the fewest gated clusters may be taken now. -/
def execPlacementWaitExpiry (s : State) : Host.Outcome State Fault Refusal :=
  let p := s.n 0
  match (s.pylon p).placing with
  | none => done s
  | some pl =>
    if pl.cmd.seq ≠ s.n 1 ∨ pl.reads ≠ 0 then done s
    else if s.n 2 ≠ 0 then done (if s.dependsOn pl (s.n 3) then s.refuse p pl (s.n 2) else s)
    else done (s.placeOn p { pl with late := true })

/-! ### The end of a launch (R130, R218, R236, R241, R242) -/

/-- What POWER does with a cluster that the launch leaves (R218). -/
def State.leaveCluster (s : State) (power k : Nat) : State :=
  if !(s.holders k).isEmpty then s
  else
    let s := s.setCluster k { s.cluster k with freeSince := s.cyc }
    match power with
    | 0 => s.after 65536 .packIdleGate { ns := [k, s.cyc] }
    | 2 => (s.setCluster k { s.cluster k with gateReq := true }).after 1 .clusterGate { ns := [k] }
    | _ => s
/-- Has an effect of a launch still to be performed (R211): an access, an engine command, or a call at a pier? -/
def State.effectsLeft (s : State) (l : Launch) : Bool :=
  l.cores.any fun u => (s.core u).lid == l.id &&
    (s.engineLeft u || s.flight.any (fun f => f.ctx.core == u && !f.performed && !f.isLoad) ||
     s.homes.any fun h => h.2.calls.any (fun c => c.job.isNone && c.ctx.core == u) || match h.2.job with
       | some (.call c) => c.job.isNone && c.ctx.core == u
       | _ => false)
/-- LAUNCH_COMPLETION (R130, R211): once every effect is performed, left-over tasks are discarded and counted, the status is written, bindings and recording end, and the
clusters go where POWER sends them. -/
def execLaunchCompletion (s : State) : Host.Outcome State Fault Refusal :=
  match s.launch (s.n 0) with
  | none => done s
  | some l =>
    if !s.launchEnded l then done s
    else if s.effectsLeft l then done (s.after 1 .launchCompletion s.arg)
    else
      let (s, disc) := s.unreserve l.id
      let st := statusWord 2 disc 0
      let p := firstPylon l.pyls
      let s := s.putStatus p l.asid l.statVa l.issuer st
      let pyls := (upFrom 0 8).filter (bit l.pyls ·)
      let n := (s.core ⟨.span, p, l.orgY, l.orgX⟩).sstep.toNat
      let s := pyls.foldl (fun s y => s.traceFor (some l) y n (⟨⟨.span, y, l.orgY, l.orgX⟩, 0⟩ : CtxId).place 8 st) s
      let s := pyls.foldl (fun s y =>
        let o := 67112960 + y * 256
        let s := if bit (s.ctl o) 2 then s.setCtl o (s.ctl o - 4) else s
        (0 :: setBits l.dmask 64).foldl (fun s d => s.setCtl (50356224 + y * 512 + 8 * d) 0) s) s
      let off (e : CoreId × Core) : CoreId × Core := if e.2.lid = l.id then (e.1, { e.2 with lid := 0, memb := 0 }) else e
      let s : State := { s with launches := s.launches.filter (·.id != l.id), cores := s.cores.map off,
                                sysArr := s.sysArr.filter (·.2.1 != l.id), away := s.away.filter (·.2.1.lid != l.id) }
      let s := (rectClusters l.pyls l.orgX l.orgY l.extW l.extH).foldl (fun s k => s.leaveCluster l.power k) s
      done ((upFrom 0 8).foldl (fun s y => if (s.pylon y).placing.isSome then s.poke 0 y 0 else s) s)

/-! ### Capture (R241, R260) -/

/-- The capture packet at the head of the compute queue, with the state without it. -/
def State.takePacket (s : State) (p stop : Nat) : Option (State × Cmd) :=
  match (s.pylon p).placing, (s.pylon p).next 0 with
  | none, some c => if c.job = 0 ∧ c.arg % 2 = stop then some (s.dropCmd p c.seq, c) else none
  | _, _ => none
/-- START_CAPTURE (R241): the descriptor is read and ACTIVE set. -/
def execStartCapture (s : State) : Host.Outcome State Fault Refusal :=
  let p := s.n 0
  match s.takePacket p 0 with
  | none => done s
  | some (s, c) =>
    match s.spaceRead c.asid c.arg 3 64 with
    | none => done ((s.cmdStatus p c 3 16).poke 0 p 1)
    | some (s, d) =>
      let s := s.trace p 0 0 12 c.arg
      let s := s.setPylon p { s.pylon p with capture := true, capBase := lane d 64 0, capSize := lane d 64 1, capMask := lane d 64 2,
                                             capCount := 0, capDesc := c.arg, capAsid := c.asid }
      done ((s.cmdStatus p c 2 0).poke 0 p 1)
/-- STOP_CAPTURE (R241): the records produced and written go to the descriptor of the START-CAPTURE, and ACTIVE clears. The packet is
no command of the interval, so its own record is not captured. -/
def execStopCapture (s : State) : Host.Outcome State Fault Refusal :=
  let p := s.n 0
  match s.takePacket p 1 with
  | none => done s
  | some (s, c) =>
    let y := s.pylon p
    let s := if y.capture then
        match s.engineWalk y.capAsid (y.capDesc + 24) true with
        | .error _ => s
        | .ok (t, e) =>
          (t.wrMem (e.addr (y.capDesc + 24)) 8 y.capCount 255 none).wrMem (e.addr (y.capDesc + 24) + 8) 8 (min y.capCount (y.capSize / 32)) 255 none
      else s
    let off (l : Launch) : Launch := if firstPylon l.pyls = p then { l with captured := false } else l
    let s : State := { s.setPylon p { s.pylon p with capture := false } with launches := s.launches.map off }
    done (((s.trace p 0 0 12 c.arg).cmdStatus p c 2 0).poke 0 p 1)

/-! ### Jobs (R210) -/

/-- The copy engine that runs a job (R210): of an enabled cluster in a pylon of the set that is on (R17, R233), an awake one first. -/
def State.jobEngine (s : State) (pyls : Nat) : Option Nat :=
  let ks := ((upFrom 0 8).filter (bit pyls ·)).flatMap fun p => (upFrom (512 * p) 512).filter fun k =>
    enabled p (k % 512 / 16) (k % 16) && !s.off p
  (ks.find? fun k => (s.cluster k).power == .awake).orElse fun _ => ks.head?

/-- COPY_JOB_TAKE (R208, R210): pylon and, at the end of the job that runs, its command; the next job is taken. A job that cannot
run raises COPY_FAULT on its issuer, as `cp.go` does; with no copy engine in its set it stays queued. -/
def execCopyJobTake (s : State) : Host.Outcome State Fault Refusal :=
  let p := s.n 0
  let y := s.pylon p
  let s := match y.copyBusy with
    | some c => if s.arg.ns.length = 2 ∧ c.seq = s.n 1 then (s.setPylon p { y with copyBusy := none }).cmdStatus p c 2 0 else s
    | none => s
  let y := s.pylon p
  match y.copyBusy, y.next 1 with
  | none, some c => (s.jobEngine c.pyls).elim (done s) fun k =>
    let s := (s.dropCmd p c.seq).cmdStatus p c 1 0
    let again (s : State) : State := s.poke 1 p 1
    match s.spaceRead c.asid c.job 3 512 with
    | none => done (again (s.cmdStatus p c 3 16))
    | some (s, b) =>
      let cp (n : Nat) := lane b 64 (n - 512)
      let spare := (upFrom 0 64).any fun i => (i == 5 || i == 6 || (decide (7 ≤ i) && decide (i < 16))) && lane b 64 i != 0
      match if spare then .error 5 else s.copyTake c.issuer c.asid 0 cp with
      | .error d => done (again ((s.pendAsync c.issuer { cause := 33, detail := d }).cmdStatus p c 2 0))
      | .ok (t, r) =>
        let cl := t.cluster k
        let rc := max 1 cl.rc
        let total := r.total
        let due := t.cyc + t.latTo c.issuer (cp 512) r.ends.1 + (total + rc - 1) / rc + t.latTo c.issuer (cp 513) r.ends.2
        let r := { r.begin t.free due total rc with eid := t.nextId, after := [], job := some (p, c.seq) }
        let t := { t.fresh with free := t.free + 1 }.setCluster k { cl with copies := cl.copies ++ [r] }
        let t := t.setPylon p { t.pylon p with copyBusy := some c }
        done (if r.far then t else t.at_ r.from_ .copyComplete { ctx := c.issuer, ns := [k, r.eid] })
  | _, _ => done s

/-- Reserved values of an in-memory job block (R210). -/
def memBlockBad (w : Nat → Nat) : Bool :=
  w 0 / 128 != 0 || w 1 % 16384 != 0 || w 2 % 4294967296 == 0 || decide (16777216 < w 2 % 4294967296) || bits (w 2) 43 32 == 0 ||
  decide (2048 < bits (w 2) 43 32) || bits (w 2) 47 44 != 0 || w 2 / 1125899906842624 != 0 || w 6 != 0 || w 7 != 0
/-- The next granule of a job, in ascending order and one in a cycle (notes/assumptions/88), is called at its home, when that has room for a call; one whose range cannot be reached fails alone
(R445). -/
def State.sendGranule (s : State) (p : Nat) (r : MemRun) : State :=
  let w (i : Nat) := r.blk.getD i 0
  let i := r.sent
  let va := (w 1 + 16384 * i) % 18446744073709551616
  let put (s : State) (r : MemRun) : State := s.setPylon p { s.pylon p with memBusy := some r }
  let fail (s : State) (c d : Nat) : State :=
    put (s.faultLog p c d true (64 * p) va 0) { r with sent := i + 1, left := r.left - 1 }
  if 281474976710656 ≤ va then fail s 17 4
  else match s.engineWalk r.cmd.asid va (w 0 % 64 != 0) with
    | .error (c, d) => fail s c d
    | .ok (t, e) =>
      let h := homeOf (e.addr va)
      let m := t.home h
      if m.calls.length ≥ 16 then s
      else
        let step (b : Nat) : Nat := if bit (w 2) b then 16384 * i else 0
        let c : PCall := { ctx := r.cmd.issuer, va := va, pa := e.addr va, len8 := bits (w 2) 43 32, entry := w 0 % 64,
                           args := [w 3, (w 4 + step 48) % 18446744073709551616, (w 5 + step 49) % 18446744073709551616],
                           rowPa := 0, asid := r.cmd.asid, job := some (p, r.cmd.seq) }
        put ((t.setHome h { m with calls := m.calls ++ [c] }).homeTick h) { r with sent := i + 1 }
/-- IN_MEMORY_JOB_TAKE (R208, R210): the running job sends a granule, or ends when none is left; the next job is taken. -/
def execInMemoryJobTake (s : State) : Host.Outcome State Fault Refusal :=
  let p := s.n 0
  let y := s.pylon p
  match y.memBusy with
  | some r =>
    if r.left = 0 then done (((s.setPylon p { y with memBusy := none }).cmdStatus p r.cmd 2 0).poke 2 p 1)
    else if r.sent < r.blk.getD 2 0 % 4294967296 then done ((s.sendGranule p r).poke 2 p 1)
    else done s
  | none => match y.next 2 with
    | none => done s
    | some c =>
      let s := (s.dropCmd p c.seq).cmdStatus p c 1 0
      match s.spaceRead c.asid c.job 3 64 with
      | none => done ((s.cmdStatus p c 3 16).poke 2 p 1)
      | some (s, b) =>
        let blk := lanes b 64 8
        if memBlockBad (blk.getD · 0) then done ((s.cmdStatus p c 3 16).poke 2 p 1)
        else done ((s.setPylon p { s.pylon p with memBusy := some { cmd := c, blk := blk, left := blk.getD 2 0 % 4294967296 } }).poke 2 p 1)

end Sys2Proof.Machine
end

