-- ==== Sys2Proof/Machine/Boot.lean ====
section
/-! DEFINITION. Start and reset, and what the host does through its BARs (09_system R227, R228, R230, R232, R233;
23_faults_system R459). The BARs of function f lie at `hostBase` + f × 2^40: 0 the physical function, 1 + p that of partition p. -/

namespace Sys2Proof.Machine

/-- The context that a start runs in (R232). -/
def bootCtx : CtxId := ⟨⟨.service, 0, 0, 0⟩, 0⟩
/-- STARTED of the start status (R228). -/
def State.started (s : State) : Bool := bit (Mem.read s.mem (hostBase + 64) 8) 0
/-- The module as after power-on, with the model's own fields. -/
def State.powerOn (s : State) : State := { State.reset with moves := s.moves, free := s.free }
/-- What a home keeps until power is removed: its map of repaired rows (R448). -/
def Home.kept (m : Home) : Home := { spare := m.spare, repaired := m.repaired }
/-- The module as after a warm reset, with the failed-start count and what it holds of the last failed start (R232). -/
def State.restart (s : State) (reason step : Nat) : State :=
  { s.powerOn with fsc := s.fsc, failReason := reason, failStep := step, homes := s.homes.map fun e => (e.1, e.2.kept) }
/-- The boot ROM waits: nothing issues until a message or the watchdog (R233). -/
def State.romWait (s : State) : State := s.setCtx bootCtx { s.ctx bootCtx with st := .waiting, wait := .rom }
/-- Does an image pass its check (R230)? Its key has the digest that the fuses hold and its signature verifies. -/
def imagePasses (img : List Nat) : Bool :=
  let key := Config.imageKey img
  sha512 (bytesBig key 512) == Config.rootKeyDigest && pssVerify key (Config.imageSign img) (Config.imageBody img)
/-- An image that its check has passed is entered at H (R230, R232, R233). -/
def State.enterImage (s : State) (img : List Nat) : State :=
  let s : State := { s with bootImg := img }
  let x := s.ctx bootCtx
  s.setCtx bootCtx { x with st := .ready, wait := .none, level := .h, pc := Word.ofN (Config.imageEntry img), since := s.cyc
                            notBefore := s.cyc }
/-- The boot report (R233): its first three doublewords; the reserved ones stay zero. -/
def State.report (s : State) (reason pylok : Nat) : State :=
  let w := reason % 256 * 72057594037927936 + s.failStep % 256 * 281474976710656 + pylok % 256 * 1099511627776 + s.fsc % 256
  ({ s with mem := Mem.words s.mem hostBase [6076007093004883016, w, s.cyc] } : State).raiseMsix 1
/-- The lowest pylon of a set, or 8. -/
def lowest (m : Nat) : Nat := ((upFrom 0 8).find? (bit m ·)).getD 8
/-- Minimal mode (R233, R459): one pylon that passes its self-test, or none; MINIMAL, the boot report, and the wait. -/
def State.minimalMode (s : State) : State :=
  let ok := Config.pylonsOk s.free % 256
  let s : State := { s with minimal := some (lowest ok), free := s.free + 1,
                            mem := Mem.write s.mem (hostBase + 64) 8 (Mem.read s.mem (hostBase + 64) 8 ||| 2) }
  let s := s.report (if ok = 0 then 7 else s.failReason) ok
  { s with failReason := if ok = 0 then 7 else 0, failStep := 2 }.romWait
/-- The link is trained (R232): a port that trains is up, one that does not stays down (R459). -/
def State.trainPorts (s : State) : State :=
  (upFrom 0 18).foldl (fun t p => if Config.portTrains s.free p % 2 = 1 then t.setCtl (50348032 + 8 * p) (2 ^ 63) else t) s
/-- A start has failed with a REASON of R459 at a step of R232, and nothing more happens in it. -/
def State.bootFail (s : State) (reason step : Nat) : State := { s with failReason := reason, failStep := step }.romWait
/-- Steps 3 and 4 of a start (R232): the tests of stacks and homes and the training of the link, after which the piers hold the library
as after reset; then the hypervisor image of the boot flash is checked and entered. -/
def State.bootImage (s : State) : State :=
  let r := Config.selfTest s.free % 3
  let img := Config.bootFlash s.free
  let t : State := { s.trainPorts with free := s.free + 1 }
  if r = 1 then t.bootFail 2 3
  else if r = 2 then t.bootFail 3 3
  else if img.isEmpty ∨ Config.imageFormed img ≠ 1 then t.bootFail 4 4
  else if !imagePasses img then t.bootFail 5 4
  else { t with failReason := 0, failStep := 4 }.enterImage img
/-- BOOT_START (R232, R230, R233, R459). -/
def execBootStart (s : State) : Host.Outcome State Fault Refusal :=
  let s : State := { s with fsc := min 255 (s.fsc + 1) }
  let s := s.after 2147483648 .startWatchdog {}
  done (if s.fsc ≥ 3 then s.minimalMode else s.bootImage)
/-- POWER_ON_RESET (R232): FSC is zero, and the module starts. -/
def execPowerOnReset (s : State) : Host.Outcome State Fault Refusal := done s.powerOn
/-- WARM_RESET (R232): FSC is kept, and the module starts. -/
def execWarmReset (s : State) : Host.Outcome State Fault Refusal := done (s.restart s.failReason s.failStep)
/-- START_WATCHDOG (R232, R459): a start that has not reached step 5 ends in a warm reset. -/
def execStartWatchdog (s : State) : Host.Outcome State Fault Refusal :=
  if s.started then done s
  else done (s.restart (if s.failReason = 0 then 1 else s.failReason) s.failStep)

/-! ### The host (R227, R228, R233) -/

/-- First key of BAR 0 of a function. -/
def bar0 (f : Nat) : Nat := hostBase + f % 9 * 1099511627776
/-- HOST_RING_HEAD_WRITE (R228, R286): the index and the function; the service cores' contexts have notice of it. -/
def execHostRingHeadWrite (s : State) : Host.Outcome State Fault Refusal :=
  let note (e : CtxId × Ctx) : CtxId × Ctx := if e.1.core.kind = .service then (e.1, { e.2 with wfiMsg := true }) else e
  let a := bar0 (s.n 1) + 128
  let old := Mem.read s.mem a 8
  let v := s.n 0 % 4294967296
  done { s with mem := Mem.write s.mem a 8 v, ctxs := if v = old then s.ctxs else s.ctxs.map note }
/-- HOST_RING_TAIL_WRITE (R228): the index and the function. -/
def execHostRingTailWrite (s : State) : Host.Outcome State Fault Refusal :=
  done { s with mem := Mem.write s.mem (bar0 (s.n 1) + 152) 8 (s.n 0 % 4294967296) }
/-- Physical address of an offset in the staging region of a function (R227), whose place in DRAM the manual does not give
(notes/assumptions/45). -/
def stagingKey (f off : Nat) : Nat := Config.stagingBase (f % 9) % 192 * 4294967296 + off
/-- STAGING_REGION_WRITE (R227): function, BAR 2 or 4, offset and bytes. What lies beyond the BAR is ignored; what BAR 4 reaches is
device memory. -/
def execStagingRegionWrite (s : State) : Host.Outcome State Fault Refusal :=
  let bs := s.arg.ns.drop 3
  let put (s : State) (e : Nat × Nat) : State :=
    if s.n 1 = 2 ∧ e.2 < 1048576 then { s with mem := Mem.set s.mem (bar0 (s.n 0) + 4294967296 + e.2) (BitVec.ofNat 8 e.1) }
    else if s.n 1 = 4 ∧ e.2 < 4294967296 then s.wrMem (stagingKey (s.n 0) e.2) 1 (e.1 % 256) 1 none
    else s
  done ((bs.zip (upFrom (s.n 2) bs.length)).foldl put s)
/-- The image that a message names (R233): its first two doublewords are offset and length in the staging region of the physical
function (notes/assumptions/45); none where it leaves the region. -/
def State.stagedImage (s : State) (slot : Nat) : Option (List Nat) :=
  let m := hostBase + 4294967296 + 64 * (slot % 4096)
  let off := Mem.read s.mem m 8
  let n := Mem.read s.mem (m + 8) 8
  if off + n ≤ 4294967296 then some ((upFrom off n).map fun i => s.rdMem (stagingKey 0 i) 1) else none
/-- RECOVERY_IMAGE_MESSAGE (R233, R459): in minimal mode the boot ROM takes the message at the ring's tail, which names offset
and length of the image in the staging region; it checks the image and enters it, or rewrites the report. -/
def execRecoveryImageMessage (s : State) : Host.Outcome State Fault Refusal :=
  let head := Mem.read s.mem (hostBase + 128) 8
  let tail := Mem.read s.mem (hostBase + 136) 8
  match s.minimal with
  | none => done s
  | some _ =>
    if (s.ctx bootCtx).wait ≠ .rom ∨ head = tail then done s
    else
      let s : State := { s with mem := Mem.write s.mem (hostBase + 136) 8 ((tail + 1) % 4294967296) }
      match (s.stagedImage tail).filter imagePasses with
      | some img => done (s.enterImage img)
      | none =>
        let w := Mem.read s.mem (hostBase + 8) 8
        done { s.report 8 (bits w 47 40) with failReason := 8 }

end Sys2Proof.Machine
end

