-- ==== Sys2Proof/Machine/Interval.lean ====
section
/-! DEFINITION. Intervals, contractors and three-valued predicates (03_intervals R57 to R71; 13_isa_interval R330 to R347). -/

namespace Sys2Proof.Machine

/-! ### Elements (R57 to R60) -/

/-- An element: empty with its code, or the bounds of a non-empty interval. -/
inductive Ival where
  | empty (code : Nat)
  | iv (lo hi : Val)
  deriving DecidableEq, Repr

def Ival.isEmpty : Ival → Bool
  | .empty _ => true
  | .iv .. => false
/-- Bits of a bound. -/
def boundBits (wide : Bool) : Nat := if wide then 64 else 32
/-- The format of a bound. -/
def boundSlot (wide : Bool) : Slot := if wide then fp64 else fp32
/-- Elements of a register. -/
def elemsIn (wide : Bool) : Nat := if wide then 8 else 16
/-- The pattern of an empty bound, without its code (R59). -/
def emptyBase (wide : Bool) : Nat := if wide then 9221120237041090560 else 2143289344
/-- An element from two bounds (R58, R344): FROM_NAN when they make none. -/
def Ival.make (wide : Bool) (lo hi : Nat) : Ival :=
  let x := (boundSlot wide).decode lo
  let y := (boundSlot wide).decode hi
  if x.isNan || y.isNan || y.lt x || x == .inf false || y == .inf true then .empty 4 else .iv x y
/-- An element as an instruction reads it (R59, R60). -/
def Ival.read (wide : Bool) (lo hi : Nat) : Ival :=
  if lo = hi ∧ emptyBase wide < lo ∧ lo < emptyBase wide + 6 then .empty (lo - emptyBase wide) else .make wide lo hi
/-- Element k of a register. -/
def Ival.at_ (wide : Bool) (v k : Nat) : Ival :=
  .read wide (lane v (boundBits wide) (2 * k)) (lane v (boundBits wide) (2 * k + 1))
/-- The code of an exact bound rounded outward (R61); zero is +0 (R58). -/
def boundCode (wide up : Bool) (v : Val) : Nat :=
  let c := ((boundSlot wide).round (if up then .rup else .rdn) v).1
  if c % 2 ^ (boundBits wide - 1) = 0 then 0 else c
/-- The bits of an element: its bounds rounded outward, or its empty pattern. -/
def Ival.code (wide : Bool) : Ival → Nat
  | .empty c => (emptyBase wide + c) * (2 ^ boundBits wide + 1)
  | .iv lo hi => boundCode wide false lo + 2 ^ boundBits wide * boundCode wide true hi
/-- Bounds after outward rounding. -/
def outward (wide : Bool) (p : Val × Val) : Val × Val :=
  ((boundSlot wide).decode (boundCode wide false p.1), (boundSlot wide).decode (boundCode wide true p.2))

/-! ### Bound arithmetic (R61) -/

def zeroB : Val := .fin false 0 0
def minB (x y : Val) : Val := if y.lt x then y else x
def maxB (x y : Val) : Val := if x.lt y then y else x
def leB (x y : Val) : Bool := !y.lt x
/-- A sum of bounds: +∞ meeting −∞ takes the side of the bound. -/
def addB (up : Bool) (x y : Val) : Val :=
  match x, y with
  | .inf a, .inf b => if a = b then .inf a else .inf (!up)
  | _, _ => (sumExact .rne x y).1
/-- A product of bounds: 0 × ±∞ is 0. -/
def mulB (x y : Val) : Val := if x.isZero || y.isZero then zeroB else (mulExact x y).1
/-- A quotient of bounds, for a divisor of one sign with 0 as a limit from the side `neg`. -/
def divB (neg : Bool) (x t : Val) : Val :=
  if x.isZero then zeroB
  else if t.isZero then .inf (x.neg != neg)
  else match x, t with
    | _, .inf _ => zeroB
    | .inf s, t => .inf (s != t.neg)
    | .fin s m e, .fin u n f => quotient (s != u) m e n f
    | _, _ => zeroB
/-- The hull of some bounds. -/
def hullOf (v : Val) (vs : List Val) : Val × Val := (vs.foldl minB v, vs.foldl maxB v)
/-- The product of two intervals. -/
def mulI (x y : Val × Val) : Val × Val := hullOf (mulB x.1 y.1) [mulB x.1 y.2, mulB x.2 y.1, mulB x.2 y.2]
/-- {s/t : s ∈ u, t ∈ v, t ≠ 0} for v ≠ [0, 0] without 0 in its interior. -/
def divI (u v : Val × Val) : Val × Val :=
  hullOf (divB false u.1 v.1) [divB true u.1 v.2, divB false u.2 v.1, divB true u.2 v.2]
/-- The pieces of the same for any v (R62, R65). -/
def divPieces (u v : Val × Val) : List (Val × Val) :=
  if v.1.isZero && v.2.isZero then []
  else if v.1.lt zeroB && zeroB.lt v.2 then [divI u (v.1, zeroB), divI u (zeroB, v.2)]
  else [divI u v]
/-- The hull of pieces. -/
def hullP : List (Val × Val) → Option (Val × Val)
  | [] => none
  | p :: ps => some (ps.foldl (fun a b => (minB a.1 b.1, maxB a.2 b.2)) p)
/-- Does an interval hold 0? -/
def hasZero (x : Val × Val) : Bool := leB x.1 zeroB && leB zeroB x.2
/-- −x. -/
def negI (x : Val × Val) : Val × Val := (x.2.flip, x.1.flip)
/-- x². -/
def sqrI (x : Val × Val) : Val × Val :=
  let (a, b) := (mulB x.1 x.1, mulB x.2 x.2)
  (if hasZero x then zeroB else minB a b, maxB a b)
/-- A non-negative bound's root before rounding. -/
def rootB (v : Val) : Val :=
  match v with
  | .fin _ m e => if m = 0 then zeroB else rootOf m e
  | v => v
/-- log2 of a non-negative bound, a value of the enclosure on the side that is asked for. -/
def log2B (up : Bool) (v : Val) : Val :=
  match v with
  | .fin _ m e =>
    if m = 0 then .inf true
    else match powerOf m e with
      | some k => .ofInt k
      | none => let y := log2Encl m e
        let t := y.lo + if up then (y.w : Int) else 0
        .fin (decide (t < 0)) t.natAbs y.e
  | v => v
/-- 2^v likewise; no power of two for a finite v that is no integer. -/
def exp2B (up : Bool) (v : Val) : Val :=
  match v with
  | .inf true => zeroB
  | .fin n m e =>
    match smallInt n m e with
    | some k => .fin false 1 k
    | none => let y := exp2Fix (toFix n m e 14)
      .fin false (4 * y.lo.toNat + if up then 4 * y.w else 1) (y.e - 2)
  | v => v
/-- The code next to a code on the outer side. -/
def outerCode (wide up : Bool) (c : Nat) : Nat :=
  let s := 2 ^ (boundBits wide - 1)
  if up then (if c < s then c + 1 else if c = s then 1 else c - 1)
  else if c < s then (if c = 0 then s + 1 else c - 1) else c + 1
/-- A bound of ISQRT, IEXP2 or ILOG2 (R63): exact where the width holds it, else the correctly rounded one or, as a free
value applied to the operand bound x has it, the next one outside (notes/assumptions/5). -/
def looseB (wide up : Bool) (fn : Nat) (x v : Val) : Val :=
  let (c, fl) := (boundSlot wide).round (if up then .rup else .rdn) v
  let free := decide (fl ≠ 0) && (c % 2 ^ (boundBits wide - 1) != ((boundSlot wide).round .rne (.inf false)).1) &&
    Config.sfuPick (32 + fn * 4 + (if wide then 2 else 0) + if up then 1 else 0) ((boundSlot wide).round .rne x).1 % 2 == 1
  (boundSlot wide).decode (if free then outerCode wide up c else c)

/-! ### Signatures, tags, results (R330 to R333) -/

/-- TAG_MISMATCH of an interval operand (R330, R417); `same` is the tag of the first source, `mates` those of the
others. -/
def itagCheck (field reg : Nat) (t : Option Nat) (same : Option Nat := none) (mates : List (Option Nat) := []) : Chk Unit :=
  match t with
  | none => .ok ()
  | some t =>
    let bad (n : Nat) : Chk Unit := trap 6 n (t + reg * 65536) field
    if !bit t 14 then bad 1
    else if t % 32 ≠ 26 ∧ t % 32 ≠ 27 then bad 2
    else if bit t 5 then bad 3
    else if tagsDiffer t same then bad 4
    else if bit t 15 != (t % 32 == 27) then bad (if mates.any (tagsDiffer t) then 4 else 5)
    else .ok ()
/-- The tag of an interval register (R331). -/
def itagOf (wide : Bool) : Nat := if wide then 49179 else 16410
/-- Are a tag's elements FP64? -/
def wideTag (t : Nat) : Bool := t % 32 == 27
/-- Fields of a forward or set operation. -/
def iarSig (d a : Nat) (b : Option Nat) : Sig :=
  { d := wr .i d, a := rd .i a, b := b.elim none (rd .i ·), dd := true, da := true, db := b.isSome, pred := true,
    deck := false, svc := false }
/-- Every source an interval of one width. -/
def iRule (a : Nat) (b c : Option Nat) (t : Tags) (_ : State) : Chk Unit := do
  itagCheck 3 a t.a none [t.b, t.c]
  match b with
  | some b => itagCheck 4 b t.b t.a
  | none => pure ()
  match c with
  | some c => itagCheck 5 c t.c t.a
  | none => pure ()
/-- The bits that inactive elements keep: the register's, or none at a link (R332). -/
def State.oldI (s : State) (c : CtxId) (o : Opnds) (d n : Nat) : Chk Nat :=
  if o.pred % 2 ^ n + 1 = 2 ^ n ∨ o.m.dst ≠ 0 then .ok 0
  else do
    let (v, _) ← s.readReg c ⟨.i, .read, d⟩
    pure v
/-- The active elements of a result. -/
def activeI (n act : Nat) (f : Nat → Ival) : List (Option Ival) :=
  (upFrom 0 n).map fun k => if bit act k then some (f k) else none
/-- The bits of a register from its active elements and the old ones. -/
def packI (wide : Bool) (old : Nat) (r : List (Option Ival)) : Nat :=
  ofLanes (2 * boundBits wide) ((r.zip (upFrom 0 r.length)).map fun e => match e.1 with
    | some x => x.code wide
    | none => lane old (2 * boundBits wide) e.2)
/-- Is an element written empty? -/
def anyEmpty (r : List (Option Ival)) : Bool := r.any fun e => match e with
  | some x => x.isEmpty
  | none => false
/-- OR bits into `iflag` (R67). -/
def State.orIflag (s : State) (c : CtxId) (fl : Nat) : State :=
  if fl = 0 then s else s.setCtx c { s.ctx c with iflag := (s.ctx c).iflag ||| Word.ofN fl }
/-- Complete a word with the elements of an interval result: at once, or through the special-function unit (R334). -/
def retI (s : State) (c : CtxId) (o : Opnds) (d : Nat) (wide : Bool) (lat : Option (Nat × Nat)) (f : Nat → Ival) : Chk Out := do
  let n := elemsIn wide
  let old ← s.oldI c o d n
  let r := activeI n o.pred f
  let v := packI wide old r
  let em := if anyEmpty r then 2 else 0
  match lat with
  | none =>
    let t ← s.putI c o d v (itagOf wide)
    pure (.done (t.orIflag c em))
  | some l =>
    s.sfuAsk c o 3 d v (itagOf wide)
      { id := 0, ctx := c, outs := [], ior := em, occ := if wide then 4 else 2, lat := if wide then l.2 else l.1 }

/-! ### Loads and stores (R335) -/

/-- Bytes that a predicate leaves active. -/
def elemMask (wide : Bool) (act : Nat) : Nat := maskOf 128 fun j => bit act (j / (if wide then 16 else 8))
/-- ILD (R335). -/
def execIld (d a fs : Nat) (k : AccKind) (off : Nat) (s : State) : Host.Outcome State Fault Refusal :=
  word { vmSig d a .i .write k with deck := false, svc := false } s fun o t => do
    let c := t.cur
    let wide := fs == 27
    let n := elemsIn wide
    if o.pred % 2 ^ n + 1 ≠ 2 ^ n ∧ o.m.dst = 0 ∧ t.pending c 3 d then throw (.stall 3 d)
    let m := elemMask wide o.pred
    let f : Access := { id := 0, ctx := c, act := .load, kind := k, key := 0, va := 0, n := 128,
                        dcls := if o.m.dst = 0 then 3 else 5, dreg := if o.m.dst = 0 then d else o.m.dst,
                        tag := itagOf wide, keep := m }
    let t ← t.loadV c k (addOff o.a (offVM o off)) 128 m f
    pure (.done t)
/-- IST (R335). -/
def execIst (d a fs : Nat) (k : AccKind) (off : Nat) (s : State) : Host.Outcome State Fault Refusal :=
  vword { vmSig d a .i .read k with deck := false, svc := false } s (fun t _ => do
      itagCheck 2 d t.d
      match t.d with
      | some t => if t % 32 ≠ fs then trap 6 2 (t + d * 65536) 2
      | none => pure ())
    fun o t => do
      let c := t.cur
      let t ← t.storeV c k (addOff o.a (offVM o off)) 128 o.d (elemMask (fs == 27) o.pred)
      pure (.done t)

/-! ### Forward operations (R62, R336) -/

/-- A forward operation on elements: an empty source makes PROPAGATED; none is DOMAIN. -/
def fwd2 (f : Val × Val → Val × Val → Option (Val × Val)) : Ival → Ival → Ival
  | .iv a b, .iv c d => match f (a, b) (c, d) with
    | some (l, h) => .iv l h
    | none => .empty 3
  | _, _ => .empty 5
def fwd1 (f : Val × Val → Option (Val × Val)) (x : Ival) : Ival := fwd2 (fun x _ => f x) x (.iv zeroB zeroB)
/-- A binary word of the IAR group. -/
def iar2 (d a b : Nat) (lat : Option (Nat × Nat)) (f : Val × Val → Val × Val → Option (Val × Val)) (s : State) :
    Host.Outcome State Fault Refusal :=
  vword (iarSig d a (some b)) s (iRule a (some b) none) fun o t =>
    let w := wideTag o.ta
    retI t t.cur o d w lat fun k => fwd2 f (.at_ w o.a k) (.at_ w o.b k)
/-- A unary word of the IAR group. -/
def iar1 (d a : Nat) (lat : Option (Nat × Nat)) (f : Bool → Val × Val → Option (Val × Val)) (s : State) :
    Host.Outcome State Fault Refusal :=
  vword (iarSig d a none) s (iRule a none none) fun o t =>
    let w := wideTag o.ta
    retI t t.cur o d w lat fun k => fwd1 (f w) (.at_ w o.a k)

/-- IADD (R336). -/
def execIadd (d a b : Nat) (s : State) : Host.Outcome State Fault Refusal :=
  iar2 d a b none (fun x y => some (addB false x.1 y.1, addB true x.2 y.2)) s
/-- IMUL (R336). -/
def execImul (d a b : Nat) (s : State) : Host.Outcome State Fault Refusal := iar2 d a b none (fun x y => some (mulI x y)) s
/-- ISUB (R336). -/
def execIsub (d a b : Nat) (s : State) : Host.Outcome State Fault Refusal :=
  iar2 d a b none (fun x y => some (addB false x.1 y.2.flip, addB true x.2 y.1.flip)) s
/-- IDIV (R336). -/
def execIdiv (d a b : Nat) (s : State) : Host.Outcome State Fault Refusal :=
  iar2 d a b (some (20, 34)) (fun x y => hullP (divPieces x y)) s
/-- ISQR (R336). -/
def execIsqr (d a : Nat) (s : State) : Host.Outcome State Fault Refusal := iar1 d a none (fun _ x => some (sqrI x)) s
/-- ISQRT (R336, R63). -/
def execIsqrt (d a : Nat) (s : State) : Host.Outcome State Fault Refusal :=
  iar1 d a (some (18, 30)) (fun w x =>
    if x.2.lt zeroB then none else some (looseB w false 0 x.1 (rootB (maxB x.1 zeroB)), looseB w true 0 x.2 (rootB x.2))) s
/-- IEXP2 (R336, R63). -/
def execIexp2 (d a : Nat) (s : State) : Host.Outcome State Fault Refusal :=
  iar1 d a (some (16, 24)) (fun w x => some (looseB w false 1 x.1 (exp2B false x.1), looseB w true 1 x.2 (exp2B true x.2))) s
/-- ILOG2 (R336, R63). -/
def execIlog2 (d a : Nat) (s : State) : Host.Outcome State Fault Refusal :=
  iar1 d a (some (16, 24)) (fun w x =>
    if leB x.2 zeroB then none
    else some (looseB w false 2 x.1 (log2B false (maxB x.1 zeroB)), looseB w true 2 x.2 (log2B true x.2))) s
/-- IMIN (R336). -/
def execImin (d a b : Nat) (s : State) : Host.Outcome State Fault Refusal :=
  iar2 d a b none (fun x y => some (minB x.1 y.1, minB x.2 y.2)) s
/-- IMAX (R336). -/
def execImax (d a b : Nat) (s : State) : Host.Outcome State Fault Refusal :=
  iar2 d a b none (fun x y => some (maxB x.1 y.1, maxB x.2 y.2)) s
/-- IRELU (R336). -/
def execIrelu (d a : Nat) (s : State) : Host.Outcome State Fault Refusal :=
  iar1 d a none (fun _ x => some (maxB x.1 zeroB, maxB x.2 zeroB)) s
/-- INEG (R336). -/
def execIneg (d a : Nat) (s : State) : Host.Outcome State Fault Refusal := iar1 d a none (fun _ x => some (negI x)) s
/-- IABS (R336). -/
def execIabs (d a : Nat) (s : State) : Host.Outcome State Fault Refusal :=
  iar1 d a none (fun _ x => some (if hasZero x then (zeroB, maxB x.1.flip x.2) else (minB x.1.abs x.2.abs, maxB x.1.abs x.2.abs))) s
/-- IFMA (R336, R338): each bound rounded once. -/
def execIfma (d a b c : Nat) (s : State) : Host.Outcome State Fault Refusal :=
  vword { iarSig d a (some b) with c := rd .i c, dd := false, da := false, db := false } s (iRule a (some b) (some c)) fun o t =>
    let w := wideTag o.ta
    retI t t.cur o d w none fun k =>
      match Ival.at_ w o.a k, Ival.at_ w o.b k, Ival.at_ w o.c k with
      | .iv a b, .iv c d, .iv e f =>
        let p := mulI (a, b) (c, d)
        .iv (addB false p.1 e) (addB true p.2 f)
      | _, _, _ => .empty 5
/-- ISCALE (R336, R337). -/
def execIscale (d a b : Nat) (s : State) : Host.Outcome State Fault Refusal :=
  vword { iarSig d a none with b := rd .v b, dd := false, da := false } s (fun t _ => do
      itagCheck 3 a t.a
      tagCheck 4 b t.b { ok := (· == 28) })
    fun o t =>
      let w := wideTag o.ta
      retI t t.cur o d w none fun k =>
        let n := capScale (sext (lane o.b 32 k) 32)
        fwd1 (fun x => some (x.1.scale n, x.2.scale n)) (.at_ w o.a k)

/-! ### Contractors (R64 to R68, R339 to R341) -/

/-- What two intervals share; none when nothing (R58). -/
def meetI (p q : Val × Val) : Option (Val × Val) :=
  let lo := maxB p.1 q.1
  let hi := minB p.2 q.2
  if hi.lt lo || lo == .inf false || hi == .inf true then none else some (lo, hi)
/-- The relational quotient (R65). -/
def relQuot (u v : Val × Val) : List (Val × Val) :=
  if hasZero u && hasZero v then [(.inf true, .inf false)] else divPieces u v
/-- An inverse image by pieces, before rounding (R65): for x with the other operand y, or for y with x1. -/
structure Inverse where
  x : Val × Val → Val × Val → List (Val × Val)
  y : Val × Val → Val × Val → List (Val × Val) := fun _ _ => []
/-- z⁺. -/
def posPart (z : Val × Val) : Option (Val × Val) := if z.2.lt zeroB then none else some (maxB z.1 zeroB, z.2)
/-- x narrowed by the pieces of an inverse image, each rounded outward: the hull of what remains. -/
def narrow (wide : Bool) (x : Val × Val) (ps : List (Val × Val)) : Option (Val × Val) :=
  hullP (ps.filterMap fun p => meetI x (outward wide p))
/-- The new x and y of an element (R64, R66). -/
def contract (wide binary same : Bool) (f : Inverse) (z x y : Ival) : Ival × Ival :=
  match z, x, y with
  | .iv zl zh, .iv xl xh, .iv yl yh =>
    match narrow wide (xl, xh) (f.x (zl, zh) (yl, yh)) with
    | none => (.empty 2, .empty 2)
    | some x1 =>
      if !binary then (.iv x1.1 x1.2, y)
      else match narrow wide (yl, yh) (f.y (zl, zh) x1) with
        | none => (.empty 2, .empty 2)
        | some y1 =>
          if !same then (.iv x1.1 x1.2, .iv y1.1 y1.2)
          else match meetI x1 y1 with
            | none => (.empty 2, .empty 2)
            | some w => (.iv w.1 w.2, .iv w.1 w.2)
  | _, _, _ => (.empty 5, .empty 5)
/-- Width of a non-empty element (R68). -/
def widthB (lo hi : Val) : Val := addB true hi lo.flip
/-- Progress of an element (R68). -/
def progress (pk : Nat) : Ival → Ival → Bool
  | .empty _, _ => false
  | .iv .., .empty _ => true
  | .iv a b, .iv c d =>
    match widthB a b, widthB c d with
    | .inf _, w => w != .inf false
    | w, w' => !w.isZero && leB (w.scale (-(pk : Int))) (sumExact .rne w w'.flip).1
/-- A contractor's word: the number of its function's latencies, its inverse images, D, A, and B when it is binary. -/
def ict (d a : Nat) (b : Option Nat) (lat : Option (Nat × Nat)) (f : Inverse) (s : State) : Host.Outcome State Fault Refusal :=
  let g : Sig := { d := rd .i d, a := rw .i a, b := b.elim none (rw .i ·), pred := true, deck := false, svc := false }
  vword g s (fun t _ => do
      itagCheck 2 d t.d none [t.a, t.b]
      itagCheck 3 a t.a t.d
      match b with
      | some b => itagCheck 4 b t.b t.d
      | none => pure ())
    fun o t => do
      let c := t.cur
      let w := wideTag o.td
      let n := elemsIn w
      let pk := bits (t.ctx c).iflag.toNat 7 4
      let rs := (upFrom 0 n).map fun k =>
        if bit o.pred k then
          let x := Ival.at_ w o.a k
          let y := if b.isSome then Ival.at_ w o.b k else .iv zeroB zeroB
          some (x, y, contract w b.isSome (b == some a) f (.at_ w o.d k) x y)
        else none
      let xs := rs.map fun r => r.map fun e => e.2.2.1
      let ys := rs.map fun r => r.map fun e => e.2.2.2
      let pm := bitsOf (rs.map fun r => match r with
        | some (x, y, x1, y1) => if progress pk x x1 || (b.isSome && progress pk y y1) then 1 else 0
        | none => 0)
      let em := anyEmpty xs || (b.isSome && anyEmpty ys)
      let out (r v : Nat) (e : List (Option Ival)) : Nat × Nat × BitVec 1024 × BitVec 16 :=
        (3, r, BitVec.ofNat 1024 (packI w v e), BitVec.ofNat 16 (itagOf w))
      let outs := out a o.a xs :: match b with
        | some b => if b = a then [] else [out b o.b ys]
        | none => []
      let fl := (if em then 2 else 0) + if pm = 0 then 0 else 1
      match lat with
      | some l =>
        t.sfuPut c { id := 0, ctx := c, outs := outs, ior := fl, pmask := some pm, occ := if w then 4 else 2,
                     lat := if w then l.2 else l.1 }
      | none =>
        match (t.core c.core).sfu.find? fun q => q.ctx == c && q.pmask.isSome with
        | some q => throw (.stall 3 ((q.outs.headD (3, 0, 0, 0)).2.1))
        | none =>
          let t := outs.foldl (fun t e => (t.cancel c 3 e.2.1).wi c e.2.1 e.2.2.1.toNat e.2.2.2.toNat) t
          let old := (t.ctx c).iflag.toNat
          pure (.done (t.setCtx c { t.ctx c with iflag := Word.ofN ((old % 65536 ||| fl) + pm * 65536) }))

/-- CADD (R65). -/
def execCadd (d a b : Nat) (s : State) : Host.Outcome State Fault Refusal :=
  let sub (u v : Val × Val) := [(addB false u.1 v.2.flip, addB true u.2 v.1.flip)]
  ict d a (some b) none { x := sub, y := sub } s
/-- CSUB (R65). -/
def execCsub (d a b : Nat) (s : State) : Host.Outcome State Fault Refusal :=
  ict d a (some b) none
    { x := fun z y => [(addB false z.1 y.1, addB true z.2 y.2)]
      y := fun z x => [(addB false x.1 z.2.flip, addB true x.2 z.1.flip)] } s
/-- CMUL (R65). -/
def execCmul (d a b : Nat) (s : State) : Host.Outcome State Fault Refusal :=
  ict d a (some b) (some (22, 36)) { x := relQuot, y := relQuot } s
/-- CDIV (R65). -/
def execCdiv (d a b : Nat) (s : State) : Host.Outcome State Fault Refusal :=
  ict d a (some b) (some (22, 36)) { x := fun z y => [mulI z y], y := fun z x => relQuot x z } s
/-- CSQR (R65). -/
def execCsqr (d a : Nat) (s : State) : Host.Outcome State Fault Refusal :=
  ict d a none (some (20, 34)) { x := fun z _ => match posPart z with
    | none => []
    | some p => [(rootB p.1, rootB p.2), negI (rootB p.1, rootB p.2)] } s
/-- CSQRT (R65). -/
def execCsqrt (d a : Nat) (s : State) : Host.Outcome State Fault Refusal :=
  ict d a none (some (18, 30)) { x := fun z _ => match posPart z with
    | none => []
    | some p => [(mulB p.1 p.1, mulB p.2 p.2)] } s
/-- CEXP2 (R65). -/
def execCexp2 (d a : Nat) (s : State) : Host.Outcome State Fault Refusal :=
  ict d a none (some (18, 26)) { x := fun z _ => match posPart z with
    | none => []
    | some p => [(log2B false p.1, log2B true p.2)] } s
/-- CMAX (R65). -/
def execCmax (d a b : Nat) (s : State) : Host.Outcome State Fault Refusal :=
  let inv (z y : Val × Val) := [(if y.2.lt z.1 then z.1 else .inf true, z.2)]
  ict d a (some b) none { x := inv, y := inv } s
/-- CMIN (R65). -/
def execCmin (d a b : Nat) (s : State) : Host.Outcome State Fault Refusal :=
  let inv (z y : Val × Val) := [(z.1, if z.2.lt y.1 then z.2 else .inf false)]
  ict d a (some b) none { x := inv, y := inv } s
/-- CRELU (R65). -/
def execCrelu (d a : Nat) (s : State) : Host.Outcome State Fault Refusal :=
  ict d a none none { x := fun z _ => if z.2.lt zeroB then [] else if leB z.1 zeroB then [(.inf true, z.2)] else [z] } s
/-- CABS (R65). -/
def execCabs (d a : Nat) (s : State) : Host.Outcome State Fault Refusal :=
  ict d a none none { x := fun z _ => match posPart z with
    | none => []
    | some p => [p, negI p] } s

/-! ### Sets and building (R342 to R344) -/

/-- The hull of two elements; an empty one is neutral. -/
def hullI : Ival → Ival → Ival
  | .empty _, .empty _ => .empty 5
  | .empty _, y => y
  | x, .empty _ => x
  | .iv a b, .iv c d => .iv (minB a c) (maxB b d)
/-- IHULL (R342). -/
def execIhull (d a b : Nat) (s : State) : Host.Outcome State Fault Refusal :=
  vword (iarSig d a (some b)) s (iRule a (some b) none) fun o t =>
    let w := wideTag o.ta
    retI t t.cur o d w none fun k => hullI (.at_ w o.a k) (.at_ w o.b k)
/-- IMEET (R342). -/
def execImeet (d a b : Nat) (s : State) : Host.Outcome State Fault Refusal :=
  vword (iarSig d a (some b)) s (iRule a (some b) none) fun o t =>
    let w := wideTag o.ta
    retI t t.cur o d w none fun k =>
      match Ival.at_ w o.a k, Ival.at_ w o.b k with
      | .iv a b, .iv c d => match meetI (a, b) (c, d) with
        | some (l, h) => .iv l h
        | none => .empty 2
      | _, _ => .empty 5
/-- The largest finite bound. -/
def maxFinite (wide neg : Bool) : Val :=
  (boundSlot wide).decode (((boundSlot wide).round .rtz (.fin neg 1 2000)).1)
/-- The midpoint of a non-empty element as a code (R343), of the sign its rounding gives it. -/
def midCode (wide : Bool) (lo hi : Val) : Nat :=
  let v := match lo, hi with
    | .inf _, .inf _ => zeroB
    | .inf _, _ => maxFinite wide true
    | _, .inf _ => maxFinite wide false
    | _, _ => ((sumExact .rne lo hi).1).scale (-1)
  ((boundSlot wide).round .rne v).1
/-- ISPLIT (R342): the lower half to D, the upper to B. -/
def execIsplit (d a b : Nat) (s : State) : Host.Outcome State Fault Refusal :=
  let g : Sig := { d := wr .i d, a := rd .i a, b := wr .i b, dd := true, da := true, db := true, apart := true,
                   deck := false, svc := false }
  vword g s (iRule a none none) fun o t => do
    let c := t.cur
    let w := wideTag o.ta
    let n := elemsIn w
    let half (up : Bool) := activeI n ones128 fun k => match Ival.at_ w o.a k with
      | .iv lo hi => let m := (boundSlot w).decode (midCode w lo hi); if up then .iv m hi else .iv lo m
      | .empty _ => .empty 5
    let t ← t.putI c o d (packI w 0 (half false)) (itagOf w)
    let t ← t.putI c { o with m := { o.m with dst := o.m.srcb } } b (packI w 0 (half true)) (itagOf w)
    pure (.done (t.orIflag c (if anyEmpty (half true) then 2 else 0)))
/-- IEMPTY (R342). -/
def execIempty (d : Nat) (w : Bool) (s : State) : Host.Outcome State Fault Refusal :=
  word { d := wr .i d, dd := true, pred := true, deck := false, svc := false } s fun o t =>
    retI t t.cur o d w none fun _ => .empty 1
/-- A measure (R343): the lane value of a non-empty element as a code. -/
def measure (d a : Nat) (h : Bool) (f : Bool → Val → Val → Nat) (s : State) : Host.Outcome State Fault Refusal :=
  let g : Sig := { d := rw .v d, a := rd .i a, da := true, pred := true, deck := false, svc := false }
  vword g s (iRule a none none) fun o t =>
    let w := wideTag o.ta
    let n := elemsIn w
    let base := if h then n else 0
    let v := (upFrom 0 (2 * n)).map fun j =>
      if base ≤ j ∧ j < base + n ∧ bit o.pred (j - base) then
        match Ival.at_ w o.a (j - base) with
        | .empty c => emptyBase w + c
        | .iv lo hi => f w lo hi
      else lane o.d (boundBits w) j
    .ok (.done ((t.cancel t.cur 2 d).wv t.cur d (ofLanes (boundBits w) v) (tagOf (if w then 27 else 26))))
/-- IMID (R343). -/
def execImid (d a : Nat) (h : Bool) (s : State) : Host.Outcome State Fault Refusal := measure d a h midCode s
/-- IRAD (R343). -/
def execIrad (d a : Nat) (h : Bool) (s : State) : Host.Outcome State Fault Refusal :=
  measure d a h (fun w lo hi =>
    let m := (boundSlot w).decode (midCode w lo hi)
    boundCode w true (maxB (addB true m lo.flip) (addB true hi m.flip))) s
/-- IWID (R343). -/
def execIwid (d a : Nat) (h : Bool) (s : State) : Host.Outcome State Fault Refusal :=
  measure d a h (fun w lo hi => boundCode w true (widthB lo hi)) s
/-- ILO (R343). -/
def execIlo (d a : Nat) (h : Bool) (s : State) : Host.Outcome State Fault Refusal := measure d a h (fun w lo _ => boundCode w false lo) s
/-- IHI (R343). -/
def execIhi (d a : Nat) (h : Bool) (s : State) : Host.Outcome State Fault Refusal := measure d a h (fun w _ hi => boundCode w true hi) s
/-- IMK (R344). -/
def execImk (d a b : Nat) (h : Bool) (s : State) : Host.Outcome State Fault Refusal :=
  let g : Sig := { d := wr .i d, a := rd .v a, b := rd .v b, dd := true, pred := true, deck := false, svc := false }
  vword g s (fun t _ => do
      tagCheck 3 a t.a { ok := fun k => k == 26 || k == 27 } none [t.b]
      tagCheck 4 b t.b { ok := fun k => k == 26 || k == 27 } t.a)
    fun o t =>
      let w := wideTag o.ta
      let base := if h then elemsIn w else 0
      retI t t.cur o d w none fun k => .make w (lane o.a (boundBits w) (base + k)) (lane o.b (boundBits w) (base + k))

/-! ### Predicates and q logic (R69 to R71, R345 to R347) -/

/-- A q element from two conditions: true, false, or unknown. -/
def tri (yes no : Bool) : Nat := if yes then 1 else if no then 0 else 2
/-- A predicate: the result for each element. -/
def ipred (d a : Nat) (b : Option Nat) (f : Ival → Ival → Nat) (s : State) : Host.Outcome State Fault Refusal :=
  let g : Sig := { d := rw .q d, a := rd .i a, b := b.elim none (rd .i ·), da := true, db := b.isSome, pred := true,
                   deck := false, svc := false }
  vword g s (iRule a b none) fun o t =>
    let w := wideTag o.ta
    let v := (upFrom 0 (elemsIn w)).map fun k =>
      if bit o.pred k then f (.at_ w o.a k) (.at_ w o.b k) else lane o.d 2 k
    .ok (.done (t.wq t.cur d (ofLanes 2 v)))
/-- A comparison of values: unknown on an empty operand. -/
def cmpI (yes no : Val → Val → Val → Val → Bool) : Ival → Ival → Nat
  | .iv a b, .iv c d => tri (yes a b c d) (no a b c d)
  | _, _ => 2
/-- ICLT (R70). -/
def execIclt (d a b : Nat) (s : State) : Host.Outcome State Fault Refusal :=
  ipred d a (some b) (cmpI (fun _ b c _ => b.lt c) fun a _ _ d => leB d a) s
/-- ICLE (R70). -/
def execIcle (d a b : Nat) (s : State) : Host.Outcome State Fault Refusal :=
  ipred d a (some b) (cmpI (fun _ b c _ => leB b c) fun a _ _ d => d.lt a) s
/-- ICEQ (R70). -/
def execIceq (d a b : Nat) (s : State) : Host.Outcome State Fault Refusal :=
  ipred d a (some b) (cmpI (fun a b c d => a.same b && b.same c && c.same d) fun a b c d => b.lt c || d.lt a) s
/-- ISUBSET (R70). -/
def execIsubset (d a b : Nat) (s : State) : Host.Outcome State Fault Refusal :=
  ipred d a (some b) (fun x y => match x, y with
    | .empty _, _ => 1
    | _, .empty _ => 0
    | .iv a b, .iv c d => if leB c a && leB b d then 1 else 0) s
/-- IDISJ (R70). -/
def execIdisj (d a b : Nat) (s : State) : Host.Outcome State Fault Refusal :=
  ipred d a (some b) (fun x y => match x, y with
    | .iv a b, .iv c d => if b.lt c || d.lt a then 1 else 0
    | _, _ => 1) s
/-- IISEMP (R70). -/
def execIisemp (d a : Nat) (s : State) : Host.Outcome State Fault Refusal :=
  ipred d a none (fun x _ => if x.isEmpty then 1 else 0) s

/-- Element k of a q value; 0b11 is read as unknown (R69). -/
def qAt (v k : Nat) : Nat := if lane v 2 k = 3 then 2 else lane v 2 k
/-- Kleene conjunction, disjunction and negation (R71). -/
def qAndOf (a b : Nat) : Nat := if a = 0 ∨ b = 0 then 0 else if a = 1 ∧ b = 1 then 1 else 2
def qOrOf (a b : Nat) : Nat := if a = 1 ∨ b = 1 then 1 else if a = 0 ∧ b = 0 then 0 else 2
def qNotOf (a : Nat) : Nat := if a = 0 then 1 else if a = 1 then 0 else 2
/-- A q word element by element. -/
def qword (d a : Nat) (b c : Option Nat) (f : Nat → Nat → Nat → Nat) (s : State) : Host.Outcome State Fault Refusal :=
  let g : Sig := { d := wr .q d, a := rd .q a, b := b.elim none (rd .q ·), c := c.elim none (rd .q ·), deck := false, svc := false }
  word g s fun o t =>
    .ok (.done (t.wq t.cur d (ofLanes 2 ((upFrom 0 16).map fun k => f (qAt o.a k) (qAt o.b k) (qAt o.c k)))))
/-- QAND (R346). -/
def execQand (d a b : Nat) (s : State) : Host.Outcome State Fault Refusal := qword d a (some b) none (fun x y _ => qAndOf x y) s
/-- QOR (R346). -/
def execQor (d a b : Nat) (s : State) : Host.Outcome State Fault Refusal := qword d a (some b) none (fun x y _ => qOrOf x y) s
/-- QNOT (R346). -/
def execQnot (d a : Nat) (s : State) : Host.Outcome State Fault Refusal := qword d a none none (fun x _ _ => qNotOf x) s
/-- QSEL (R346). -/
def execQsel (d a b c : Nat) (s : State) : Host.Outcome State Fault Refusal :=
  qword d a (some b) (some c) (fun x y z => if z = 1 then x else if z = 0 then y else if x = y then x else 2) s
/-- A fold of the first 8 or 16 elements to class x. -/
def qfold (d a : Nat) (h : Bool) (f : Nat → Nat → Nat) (start : Nat) (s : State) : Host.Outcome State Fault Refusal :=
  word { d := wr .x d, a := rd .q a, deck := false, svc := false } s fun o t =>
    retX t t.cur o d (((upFrom 0 (if h then 8 else 16)).map (qAt o.a ·)).foldl f start)
/-- QALL (R346). -/
def execQall (d a : Nat) (h : Bool) (s : State) : Host.Outcome State Fault Refusal := qfold d a h qAndOf 1 s
/-- QANY (R346). -/
def execQany (d a : Nat) (h : Bool) (s : State) : Host.Outcome State Fault Refusal := qfold d a h qOrOf 0 s
/-- IPROG (R347): after the context's last contractor. -/
def execIprog (d : Nat) (s : State) : Host.Outcome State Fault Refusal :=
  word { d := wr .q d, deck := false, svc := false } s fun _ t =>
    let c := t.cur
    match (t.core c.core).sfu.find? fun q => q.ctx == c && q.pmask.isSome with
    | some q => .error (.stall 3 ((q.outs.headD (3, 0, 0, 0)).2.1))
    | none =>
      let pm := bits (t.ctx c).iflag.toNat 31 16
      .ok (.done (t.wq c d (ofLanes 2 ((upFrom 0 16).map fun k => if bit pm k then 1 else 0))))

end Sys2Proof.Machine
end

