-- ==== Sys2Proof/Machine/Tile.lean ====
section
/-! DEFINITION. The arithmetic of the matrix unit (02_formats R51 to R56; 03_intervals R72, R73): what one K-block adds to one
element of a tile, and the scales of strips and squares (R206, R379). Summary bits: NANIN 1, INV 2, OVF 4, TINY 8 (R383). -/

namespace Sys2Proof.Machine

/-- Does a code hold an infinity? -/
def Slot.isInf (k : Slot) (c : Nat) : Bool :=
  match k.decode c with
  | .inf _ => true
  | _ => false
/-- OVF and TINY of a rounded result. -/
def roundBits (k : Slot) (r : Nat × Nat) : Nat := (if bit r.2 2 && k.isInf r.1 then 4 else 0) + if bit r.2 1 then 8 else 0
/-- An exact product with its summary bits. -/
def mulItem (a b : Val) : Val × Nat :=
  if a.isNan || b.isNan then ((mulVal a b).1, 1)
  else
    let (p, fl) := mulExact a b
    (p, if fl = 0 then 0 else 2)
/-- The summary bits of some products. -/
def itemBits (ps : List (Val × Nat)) : Nat := ps.foldl (fun m p => m ||| p.2) 0
/-- The sum of finite values; an exact zero sum is +0. -/
def finSum (vs : List Val) : Val :=
  match vs.foldl (fun a v => (sumExact .rne a v).1) (.fin false 0 0) with
  | .fin n m e => if m = 0 then .fin false 0 0 else .fin n m e
  | v => v
/-- S of the narrow class (R52). -/
def dotNarrow (a b : List Val) : Val × Nat :=
  let ps := (a.zip b).map fun e => mulItem e.1 e.2
  let vs := ps.map (·.1)
  if vs.any (·.isNan) then (.qnan, itemBits ps)
  else if vs.contains (.inf false) && vs.contains (.inf true) then (.qnan, 2)
  else if vs.contains (.inf false) then (.inf false, 0)
  else if vs.contains (.inf true) then (.inf true, 0)
  else (finSum vs, 0)
/-- x + y rounded to FP32, as a value, with summary bits; INV when no operand is a NaN. -/
def addItem (k : Slot) (x y : Val) : Nat × Nat :=
  let r := k.out .rne (addVal .rne x y)
  (r.1, roundBits k r ||| if bit r.2 4 && !x.isNan && !y.isNan then 2 else 0)
/-- One level of the tree of R53. -/
def treeLevel : List Val → List Val × Nat
  | x :: y :: r =>
    let (c, m) := addItem fp32 x y
    let (vs, m') := treeLevel r
    (fp32.decode c :: vs, m ||| m')
  | vs => (vs, 0)
/-- The tree of R53: n levels. TINY is of the root only, the block's result (R383). -/
def treeHalf : Nat → List Val → List Val × Nat
  | 0, vs => (vs, 0)
  | n + 1, vs =>
    let (ws, m) := treeLevel vs
    let (r, m') := treeHalf n ws
    (r, (if n = 0 then m else m &&& 7) ||| m')
/-- blk of the half class. -/
def dotHalf (a b : List Val) : Val × Nat :=
  let ps := (a.zip b).map fun e => mulItem e.1 e.2
  let (r, m) := treeHalf 7 (ps.map (·.1))
  (r.headD .qnan, m ||| itemBits ps)
/-- blk of the narrow class under the scale codes of strip and square (R54). -/
def blkNarrow (sa sb : Nat) (s : Val × Nat) : Val × Nat :=
  if sa = 255 ∨ sb = 255 then (.qnan, 1)
  else
    let r := fp32.round .rne (s.1.scale ((sa : Int) + sb - 254))
    (fp32.decode r.1, s.2 ||| roundBits fp32 r)
/-- An FP32 accumulator after one block of MMA (R54): code and summary bits. -/
def mmaItem (acc : Nat) (blk : Val × Nat) : Nat × Nat :=
  let r := addItem fp32 (fp32.decode acc) blk.1
  (r.1, r.2 ||| blk.2)
/-- An FP64 accumulator after the products of one block of MMA64 (R55). -/
def mma64Item (acc : Nat) (ps : List (Val × Val)) : Nat × Nat :=
  ps.foldl (fun r p =>
    let c := fp64.decode r.1
    let v := fp64.out .rne (fmaVal .rne p.1 p.2 c)
    let nan := p.1.isNan || p.2.isNan
    (v.1, r.2 ||| roundBits fp64 v ||| (if nan then 1 else 0) ||| if bit v.2 4 && !nan && !c.isNan then 2 else 0)) (acc, 0)
/-- A chain of MMAIV after one product (R72, R73): the code and the summary bits. -/
def chainAdd (up : Bool) (acc : Nat) (p : Option Val) : Nat × Nat :=
  let v := fp32.decode acc
  if v.isNan then ((fp32.round .rne v).1, if p.isNone then 1 else 0)
  else match p with
    | none => (2143289349, 1)
    | some p =>
      let r := fp32.round (if up then .rup else .rdn) (addB up v p)
      (boundCode false up (addB up v p), roundBits fp32 r)
/-- Both chains of MMAIV after one x(i, k) and one weight. -/
def ivItem (r : (Nat × Nat) × Nat) (x : Ival) (w : Val) : (Nat × Nat) × Nat :=
  let (pl, ph) : Option Val × Option Val := match x with
    | .empty _ => (none, none)
    | .iv lo hi =>
      if w.isNan then (none, none)
      else if w.neg && !w.isZero then (some (mulB w hi), some (mulB w lo))
      else (some (mulB w lo), some (mulB w hi))
  let l := chainAdd false r.1.1 pl
  let h := chainAdd true r.1.2 ph
  ((l.1, h.1), r.2 ||| l.2 ||| h.2)

/-! ### Strips, squares and tiles as lists of codes -/

/-- Half bytes of an element of a slot (R28, R206): 1 for widths of 4 or less. -/
def halfBytes (fd : Nat → Nat) (slot : Nat) : Nat :=
  if slot ≤ 22 then (if slotBytes slot fd = 64 then 1 else 2) else laneBits slot / 4
/-- The first n codes of packed elements. -/
def codesOf (fd : Nat → Nat) (slot v n : Nat) : List Nat :=
  let hb := halfBytes fd slot
  let w := match slotOf fd slot with
    | .narrow f => f.w
    | _ => 4 * hb
  (lanes v (4 * hb) n).map (· % 2 ^ w)
/-- Codes packed as elements. -/
def packCodes (fd : Nat → Nat) (slot : Nat) (cs : List Nat) : Nat := ofLanes (4 * halfBytes fd slot) cs
/-- A code under one scale as the code under a larger one (R379, R44). -/
def rescale (k : Slot) (code sc to_ : Nat) : Nat :=
  match k with
  | .narrow f => if sc = to_ ∨ to_ = 255 then code else (f.round .rne ((f.decode code).scale ((sc : Int) - to_))).1
  | _ => code
/-- A strip of codes with the scale code of each: the codes under the largest, and that. Without scales it is 127. -/
def joinScales (k : Slot) (cs scs : List Nat) : List Nat × Nat :=
  match scs with
  | [] => (cs, 127)
  | s :: ss =>
    let top := ss.foldl max s
    ((cs.zip scs).map fun e => rescale k e.1 e.2 top, top)
/-- Elements of a tile, row by row, after f has been applied to row and column number and code. -/
def tileMap (f : Nat → Nat → Nat → Nat × Nat) (rows : List (Nat × List Nat)) : List Nat × Nat :=
  let rs := rows.flatMap fun r => (r.2.zip (upFrom 0 r.2.length)).map fun e => f r.1 e.2 e.1
  (rs.map (·.1), rs.foldl (fun m r => m ||| r.2) 0)
/-- Cut a list into pieces of n, k of them. -/
def pieces (n : Nat) : Nat → List Nat → List (List Nat)
  | 0, _ => []
  | k + 1, l => l.take n :: pieces n k (l.drop n)

end Sys2Proof.Machine
end

