-- ==== Sys2Proof/Machine/Matrix.lean ====
section
/-! DEFINITION. The matrix unit (15_isa_engines R375 to R388; 02_formats R51 to R56; 07_views R205 to R207; 08_scheduling R223;
20_program_matmul R408; 22_faults_memory R436 to R438): checks at acceptance, the run of a command, records, MSYNC and MSTAT. -/

namespace Sys2Proof.Machine

/-! ### Handles and words -/

/-- A handle descriptor (R205). -/
structure Hnd where
  base : Nat
  rows : Nat
  cols : Nat
  geo : Nat
  slot : Nat
  scale : Nat
  stride : Nat
  kind : Nat
  view : Nat
  mid : Nat
  polo : Nat
  /-- A reserved field or value is in use. -/
  bad : Bool
  deriving DecidableEq, Repr

/-- The fields of a descriptor's doublewords. -/
def Hnd.of (w : List Nat) : Hnd :=
  let d (i : Nat) := w.getD i 0
  { base := d 0, rows := bits (d 1) 31 0, cols := bits (d 1) 63 32, geo := bits (d 2) 9 8, slot := bits (d 2) 4 0, scale := d 3
    stride := d 4, kind := bits (d 5) 20 19, view := bits (d 5) 18 16, mid := bits (d 5) 15 0, polo := bits (d 6) 2 0
    bad := bits (d 2) 63 14 != 0 || bits (d 2) 11 10 != 0 || bits (d 2) 7 5 != 0 || bits (d 2) 13 12 == 3 || bits (d 2) 9 8 == 3 ||
      bits (d 5) 63 21 != 0 || bits (d 5) 20 19 == 3 || decide (d 6 > 3) || d 7 != 0 }
/-- The eight doublewords of handle register n. -/
def State.handle (s : State) (c : CtxId) (n : Nat) : List Nat := lanes (s.rh c n) 64 8
/-- Is a handle's slot one of the half class? -/
def Hnd.half (h : Hnd) : Bool := h.slot == 24 || h.slot == 25
/-- Does a handle keep scales apart from its elements: narrow, with a scale array (R206)? -/
def Hnd.scaled (h : Hnd) : Bool := decide (h.slot ≤ 22) && h.scale != 0

/-- Function, and fields D and C, of a command's word. -/
def MCmd.f (m : MCmd) : Nat := m.word % 64
def MCmd.d (m : MCmd) : Nat := bits m.word 25 21
def MCmd.c (m : MCmd) : Nat := bits m.word 10 6
/-- Position word (R378). -/
def MCmd.row0 (m : MCmd) : Nat := bits m.xv 31 0
def MCmd.kb0 (m : MCmd) : Nat := bits m.xv 47 32
/-- K-blocks of a product, squares of MLDW. -/
def MCmd.n (m : MCmd) : Nat := if m.f = 3 then m.c + 1 else bits m.xv 51 48 + 1
/-- Descriptor k as the command captured it. -/
def MCmd.fd (m : MCmd) (k : Nat) : Nat := m.fds.getD k 0
def MCmd.h (m : MCmd) : Hnd := .of m.h0
def MCmd.hB (m : MCmd) : Hnd := .of m.h1
/-- Crown position of block or square j. -/
def MCmd.pos (m : MCmd) (j : Nat) : Nat :=
  (if m.f = 3 then m.d else m.c) + (if m.f = 1 ∨ m.h.half then 2 * j else j)
/-- The context for which a command stops, resumes and fails (R388, R437). -/
def MCmd.ctx (m : MCmd) (u : CoreId) : CtxId := m.src.getD ⟨u, 0⟩

/-! ### Tiles and squares (R84, R403, R406) -/

/-- Does a tile exist? -/
def State.hasTile (s : State) (u : CoreId) (j : Nat) : Bool :=
  if j < 3 then decide (j < s.nacc u) else decide (j = 3) && s.nacc u == 3 && decide (s.nwin u ≤ 3)
/-- First key of a tile. -/
def State.tileKey (s : State) (u : CoreId) (j : Nat) : Nat :=
  if j = 3 then crownKey u 196608 else s.ownBase u + s.ownSize u - (j + 1) * 65536
/-- Crown positions that can hold weights. -/
def State.squares (s : State) (u : CoreId) : Nat := if s.hasTile u 3 then 12 else 16
/-- Tag of a tile. -/
def Core.tileTag (k : Core) (j : Nat) : Nat := (Tab.get k.tiles j 0).toNat % 65536
/-- Tag of a crown position. -/
def Core.crownTag (k : Core) (p : Nat) : Nat := (Tab.get k.crownTags p 0).toNat
/-- Tag that MZERO gives. -/
def MCmd.zeroTag (m : MCmd) : Nat := if m.c % 2 = 1 then 16411 else 16410
/-- Tag of a tile once the commands in the queue have ended. DEDUCED from 19_program_interval, whose MMAIV is accepted while its
MLDW runs. -/
def Core.tileTagDue (k : Core) (j : Nat) : Nat :=
  k.mq.foldl (fun t m => if m.f = 4 ∧ m.d = j then m.zeroTag else t) (k.tileTag j)
/-- Tag of a crown position likewise, its scale apart. -/
def Core.crownTagDue (k : Core) (p : Nat) : Nat :=
  k.mq.foldl (fun t m =>
    if m.f = 3 ∧ m.d ≤ p ∧ p < m.pos m.n then 16384 + m.h.slot + (if m.h.half then 0 else 32) else t) (k.crownTag p)

/-! ### Acceptance (R376, R380 to R382, R418) -/

/-- Is a slot one of the narrow operand class under descriptors (R51)? -/
def narrowOk (fd : Nat → Nat) (slot : Nat) : Bool :=
  match slotOf fd slot with
  | .narrow f => decide (f.e ≤ 5)
  | _ => false
/-- Does the handle of a command fit R380 and R207? -/
def MCmd.handleOk (m : MCmd) : Bool :=
  let h := m.h
  match m.f with
  | 0 | 3 => h.half || (h.kind != 1 && narrowOk m.fd h.slot)
  | 1 => h.kind == 0 && h.slot == 26
  | 2 => h.kind == 0 && h.slot == 27 && m.hB.kind == 0 && m.hB.slot == 27
  | 5 => (decide (h.slot ≤ 22) && h.kind != 1) || (decide (24 ≤ h.slot) && decide (h.slot ≤ 26))
  | _ => true
/-- Do the squares of a product fit its class (R51, R380)? -/
def MCmd.squaresOk (m : MCmd) (k : Core) : Bool :=
  (upFrom 0 m.n).all fun j =>
    let t := k.crownTagDue (m.pos j)
    bit t 14 && match m.f with
      | 0 => if m.h.half then t % 32 == m.h.slot && !bit t 5 else narrowOk m.fd (t % 32)
      | _ => t % 64 == 24
/-- Tiles of a command. -/
def MCmd.tiles (m : MCmd) : List Nat := if m.f = 3 then [] else if m.f = 1 then [m.d, m.d + 1] else [m.d]
/-- Does a tile's tag fit? -/
def MCmd.tileOk (m : MCmd) (t : Nat) : Bool :=
  match m.f with
  | 0 | 1 => t % 64 == 26 && bit t 14
  | 2 => t % 64 == 27 && bit t 14
  | 5 => (t % 64 == 26 || t % 64 == 27) && bit t 14
  | _ => true
/-- The first of the MATRIX_REJECT causes of R418 that a command meets, by DETAIL: DETAIL and handle or tile number. -/
def State.cmdReject (s : State) (u : CoreId) (m : MCmd) (hn : Nat) : Option (Nat × Nat) :=
  let k := s.core u
  let h := m.h
  let lim := s.squares u
  let row := decide (m.row0 % 128 ≠ 0)
  let crown := m.f == 0 || m.f == 1 || m.f == 3
  let found : List (Nat × Nat × Bool) :=
    (m.tiles.map fun j => (1, j, !s.hasTile u j)) ++
    [(2, m.d, m.f == 1 && m.d % 2 == 1),
     (2, hn, (m.f == 1 || (m.f != 2 && crown && h.half)) && m.pos 0 % 2 == 1),
     (3, hn, crown && decide (m.pos m.n > lim)),
     (4, hn, !m.handleOk || ((m.f == 0 || m.f == 1) && !m.squaresOk k)),
     (5, m.d, m.tiles.any fun j => !m.tileOk (k.tileTagDue j)),
     (6, hn, m.f == 5 && (h.kind == 2 || (h.kind == 0 && decide (h.slot ≤ 22) && m.c != 0))),
     (7, hn, m.f != 4 && (h.bad || (m.f == 2 && m.hB.bad) || decide (m.xv / 2 ^ (if m.f < 3 then 52 else 48) ≠ 0))),
     (9, hn, m.f == 5 && row && (h.kind == 1 || (h.kind == 0 && decide (h.slot ≤ 22) && h.geo == 1))),
     (10, hn, (crown || m.tiles.contains 3) && !k.crn)]
  (found.find? (·.2.2)).map fun e => (e.1, e.2.1)
/-- A descriptor that a command uses and that is not valid (R27, R417): FORMAT_INVALID. -/
def MCmd.formatBad (m : MCmd) (k : Core) : Option Nat :=
  let used := (if m.f = 0 ∨ m.f = 3 ∨ m.f = 5 then [m.h.slot] else []) ++
    if m.f = 0 then (((upFrom 0 m.n).map fun j => k.crownTagDue (m.pos j)).filter (bit · 14)).map (· % 32) else []
  used.find? fun n => decide (n < 16) && !descValid (m.fd n)

/-! ### Addresses of strips and blocks (R183, R206) -/

/-- Half bytes of an element that a command reads or writes through a handle: intervals take 8 bytes. -/
def MCmd.hb (m : MCmd) (h : Hnd) : Nat := if m.f = 1 then 16 else halfBytes m.fd h.slot
/-- Address of row r, block column b, of a plain or master handle. -/
def MCmd.rowVa (m : MCmd) (h : Hnd) (r b : Nat) : Nat :=
  (if h.kind = 1 then h.base + ((r / 128 * (h.cols / 128) + b) * 16384 + r % 128 * 128) * m.hb h / 2
   else h.base + r * h.stride + 128 * b * m.hb h / 2) % 18446744073709551616
/-- Columns of block column b. -/
def Hnd.width (h : Hnd) (b : Nat) : Nat := min 128 (h.cols - 128 * b)
/-- Bytes of n elements. -/
def MCmd.len (m : MCmd) (h : Hnd) (n : Nat) : Nat := (n * m.hb h + 1) / 2
/-- Address and bytes of the scale codes of a row's block (R206); COLS / 128 and COLS / 32 are rounded down (notes/assumptions/87). -/
def Hnd.scaleVa (h : Hnd) (r b : Nat) : Nat × Nat :=
  match h.geo with
  | 0 => ((h.scale + r * (h.cols / 128) + b) % 18446744073709551616, 1)
  | 1 => ((h.scale + r / 128 * (h.cols / 128) + b) % 18446744073709551616, 1)
  | _ => ((h.scale + r * (h.cols / 32) + 4 * b) % 18446744073709551616, (h.width b + 31) / 32)
/-- First row and rows that a command takes of its handle from a row number on. -/
def Hnd.rowsFrom (h : Hnd) (r n : Nat) : List Nat := (upFrom r n).filter fun q => decide (q < h.rows)
/-- Does a drain read a tile of slot 27, of 64 rows (R382)? -/
def Core.wide (k : Core) (m : MCmd) : Bool := k.tileTagDue m.d % 32 == 27
/-- Rows and block columns that a command reaches through its handle; `n` rows of a drain. -/
def MCmd.reach (m : MCmd) (n : Nat) : List Nat × List Nat :=
  let h := m.h
  let cols (b n : Nat) := (upFrom b n).filter fun b => decide (128 * b < h.cols)
  match m.f with
  | 3 => (h.rowsFrom (128 * m.kb0) (128 * m.n), cols m.row0 1)
  | 5 => (h.rowsFrom m.row0 n, cols m.kb0 1)
  | 4 => ([], [])
  | _ => (h.rowsFrom m.row0 (if m.f = 2 then 64 else 128), cols m.kb0 m.n)
/-- The bounding range of some ranges. -/
def boundOf (l : List (Nat × Nat)) : Nat × Nat :=
  let lo := (l.map (·.1)).foldl min (l.headD (0, 0)).1
  (lo, (l.map fun e => e.1 + e.2).foldl max 0 - lo)
/-- The ranges of one handle over rows and block columns: elements and scales, each as its bounding range (R172). -/
def State.hndRanges (s : State) (c : CtxId) (m : MCmd) (h : Hnd) (rows cols : List Nat) : List (Nat × Nat) :=
  let range (l : List (Nat × Nat)) := boundOf (l.map fun e => (s.footAddr c e.1, e.2))
  match rows, cols with
  | r :: _, b :: _ =>
    let rl := rows.getLastD r
    let bl := cols.getLastD b
    let ends := [(r, b), (rl, b), (r, bl), (rl, bl)]
    if h.kind = 2 then []
    else range (ends.map fun e => (m.rowVa h e.1 e.2, m.len h (h.width e.2))) ::
      if h.scaled && h.kind == 0 then [range (ends.map fun e => h.scaleVa e.1 e.2)] else []
  | _, _ => []
/-- Ranges of a view's shards: elements, scales and tags. -/
def View.ranges (w : View) (a : Master) : List (Nat × Nat) :=
  (w.shards.zip (upFrom 0 16)).flatMap fun e =>
    let k := w.shardBlocks a e.2
    [(e.1.ebase, k * w.bytes 16384), (e.1.tbase, 8 * k)] ++ if w.scaled then [(e.1.sbase, k * w.scaleBytes)] else []
/-- The footprint of a command of core u (R172). -/
def State.cmdFoot (s : State) (u : CoreId) (m : MCmd) : Foot :=
  let c : CtxId := ⟨u, 0⟩
  let up (k n : Nat) : Nat × Nat := (18446744073709551616 + k, n)
  let tiles := m.tiles.map fun j => up (s.tileKey u j) 65536
  let (rows, cols) := m.reach (if (s.core u).wide m then 64 else 128)
  let at_ := s.hndRanges c m m.h rows cols
  let size := if m.h.half ∨ m.f = 1 then 32768 else 16384
  let squares := (upFrom 0 m.n).map fun j => up (crownKey u (m.pos j * 16384)) size
  let seen := match s.master m.h.mid with
    | some a => match a.view m.h.view with
      | some w => w.ranges a
      | none => []
    | none => []
  let rd := at_ ++ if m.h.kind = 2 then seen else []
  match m.f with
  | 2 => { rd := rd ++ s.hndRanges c m m.hB (m.hB.rowsFrom (128 * m.kb0) (128 * m.n)) [0], wr := tiles }
  | 3 => { rd := rd, wr := squares }
  | 4 => { wr := tiles }
  | 5 => { rd := tiles, wr := at_ }
  | _ => { rd := rd ++ squares, wr := tiles }
/-- Reads of strips of a block (R380): rows of A, then those of B of MMA64; the rows of a square of MLDW, which is one read. -/
def MCmd.reads (m : MCmd) : Nat := if m.f = 2 then 192 else if m.f < 4 then 128 else 0
/-- What the engine has to read of a command, in the order of its reads (R150): the strips of block j, whose numbers begin at 256 × j,
and its crown square, with number 256 × j + 255. -/
def State.cmdHolds (s : State) (u : CoreId) (m : MCmd) : List (Nat × Nat × Nat) :=
  let c := m.ctx u
  let h := m.h
  let seen := (s.master h.mid).bind fun a => (a.view h.view).map (a, ·)
  let plain (va n : Nat) : List (Nat × Nat) :=
    match s.engPieces c m.asid va n false [0, 4, 5, 8] with
    | .ok (_, ps) => ps
    | .error _ => []
  let strip (g : Hnd) (r b : Nat) : List (Nat × Nat) :=
    if r ≥ g.rows ∨ 128 * b ≥ g.cols then []
    else if g.kind = 2 then match seen with
      | some (a, w) => w.places (w.elem a (r / 128) b (r % 128) 0) (w.bytes 128) ++
          if w.scaled then w.places (w.scaleAt a (r / 128) b + w.scaleRow (r % 128)) (w.scaleLen) else []
      | none => []
    else plain (m.rowVa g r b) (m.len g (g.width b)) ++
      if g.scaled && g.kind == 0 then plain (g.scaleVa r b).1 (g.scaleVa r b).2 else []
  let block (j : Nat) : List (List (Nat × Nat)) :=
    let b := m.kb0 + j
    match m.f with
    | 3 => [(upFrom (128 * b) 128).flatMap fun r => strip h r m.row0]
    | 2 => ((upFrom m.row0 64).map fun r => strip h r b) ++ (upFrom (128 * b) 128).map fun r => strip m.hB r 0
    | _ => (upFrom m.row0 128).map fun r => strip h r b
  if m.f < 4 then (upFrom 0 m.n).flatMap fun j =>
    ((block j).zip (upFrom (256 * j) 192)).flatMap (fun e => e.1.map fun k => (e.2, k)) ++
      if m.f < 2 then [(256 * j + 255, crownKey u (m.pos j * 16384), if m.h.half ∨ m.f = 1 then 32768 else 16384)] else []
  else []
/-- Put an accepted command into the queue of core u (R376): it captures handles, x value and descriptors. -/
def State.cmdAccept (s : State) (u : CoreId) (m : MCmd) : State :=
  let m := { m with
    id := s.nextId
    eid := if m.eid = 0 then s.nextId else m.eid
    foot := s.cmdFoot u m
    holds := if m.src.isSome then s.cmdHolds u m else [] }
  let k := s.core u
  (s.fresh.setCore u { k with mq := k.mq ++ [m] }).after 0 .matrixCommandRun { ctx := ⟨u, 0⟩, ns := [0] }
/-- The descriptors of a core as a command captures them. -/
def State.fdList (s : State) (u : CoreId) : List Nat := (upFrom 0 16).map (s.fdOf u)

/-- A field that names a handle register is complete and not poisoned (R404, R429). -/
def State.hndReady (s : State) (c : CtxId) (n : Nat) : Chk Unit := do
  if s.pending c 4 n then throw (.stall 4 n)
  if !s.poison.isEmpty then s.winPoison c (1024 + 64 * n) 64
/-- A command word of a context (R376, R418): its checks, then acceptance; it waits while the queue is full. -/
def mtxWord (b c : Option Opr) (handles : List Nat) (xv : Opnds → Nat) (s : State) : Host.Outcome State Fault Refusal :=
  word { b := b, c := c, deck := false, svc := false } s fun o t => do
    let x := t.cur
    let u := x.core
    let k := t.core u
    handles.foldlM (fun _ h => t.hndReady x h) ()
    let hs := handles.map (t.handle x)
    let m : MCmd := { id := 0, word := t.ir.toNat, xv := xv o, h0 := hs.getD 0 [], h1 := hs.getD 1 [], fds := t.fdList u,
                      src := some x, asid := t.spaceOf x, after := t.engineIds x, behind := t.engineNow x }
    match m.formatBad k with
    | some n => trap 7 0 (m.fd n + n * 4294967296)
    | none => pure ()
    match t.cmdReject u m (handles.headD 0) with
    | some (det, v) => trap 35 det v
    | none => pure ()
    if k.mq.length ≥ 8 then throw (.retry (.queue true))
    pure (.done (t.cmdAccept u m))

/-- MMA (R380). -/
def execMma (_ a b _ : Nat) (s : State) : Host.Outcome State Fault Refusal := mtxWord (rd .x b) none [a] (·.b) s
/-- MMAIV (R380, R72). -/
def execMmaiv (_ a b _ : Nat) (s : State) : Host.Outcome State Fault Refusal := mtxWord (rd .x b) none [a] (·.b) s
/-- MMA64 (R380, R55). -/
def execMma64 (_ a b c : Nat) (s : State) : Host.Outcome State Fault Refusal := mtxWord none (rd .x c) [a, b] (·.c) s
/-- MLDW (R379). -/
def execMldw (_ a b _ : Nat) (s : State) : Host.Outcome State Fault Refusal := mtxWord (rd .x b) none [a] (·.b) s
/-- MZERO (R381). -/
def execMzero (_ : Nat) (_ : Bool) (s : State) : Host.Outcome State Fault Refusal := mtxWord none none [] (fun _ => 0) s
/-- MDRAIN (R382). -/
def execMdrain (_ a b _ : Nat) (s : State) : Host.Outcome State Fault Refusal := mtxWord (rd .x b) none [a] (·.b) s

/-- MSYNC (R383): it waits for the commands of its context, or with `.all` for every one, that were in the queue at its issue. -/
def execMsync (all : Bool) (s : State) : Host.Outcome State Fault Refusal :=
  word { deck := false, svc := false } s fun _ t => do
    let c := t.cur
    let lim := (t.ctx c).syncTo.getD t.nextId
    let left := ((t.core c.core).mq.filter fun m => decide (m.id < lim) && (all || m.src == some c)).map (·.id)
    if left.isEmpty then pure (.done t)
    else
      if (t.ctx c).timed.isSome then throw (.retry (.msync left))
      pure (.left ((t.setCtx c { t.ctx c with syncTo := some lim }).sleep c (.msync left)))

/-- Unit status (R383). -/
def Core.unitStatus (k : Core) : Nat :=
  match k.mq with
  | m :: rest =>
    if m.started && !m.halted then (if m.f < 3 then m.kb % 256 else 0) * 65536 + rest.length * 256 + 8 + m.f
    else k.mq.length * 256
  | [] => 0
/-- MSTAT (R383): a reserved selector is MATRIX_REJECT 8, whose `tval` the manual does not give for it. -/
def execMstat (d a : Nat) (clr : Bool) (s : State) : Host.Outcome State Fault Refusal :=
  word { d := wr .x d, a := rd .x a, deck := false, svc := false } s fun o t => do
    let c := t.cur
    let k := t.core c.core
    let sel := o.a % 64
    if sel = 0 then retX t c o d k.unitStatus
    else if 4 ≤ sel ∧ sel < 8 then
      let v := (Tab.get k.tiles (sel - 4) 0).toNat
      let t := if clr then t.setCore c.core { k with tiles := Tab.set k.tiles (sel - 4) (BitVec.ofNat 20 (v % 65536)) } else t
      retX t c o d v
    else if 16 ≤ sel ∧ sel < 32 then retX t c o d (k.crownTag (sel - 16))
    else throw (.late { s with free := s.free + 1 } { cause := 35, detail := 8, val := Config.outcome s.free })

/-! ### What the engine reads and writes -/

/-- Why a command cannot go on: a kind of MATRIX_FAULT, a poisoned unit that it read, a view cause, a view-checked read that waits, or
pieces that it cannot access yet. -/
inductive MErr where
  | kind (detail : Nat)
  | poison (unit : Nat)
  | view (cause detail val : Nat)
  | wait
  | held (ps : List (Nat × Nat))
  deriving DecidableEq, Repr
/-- DETAIL of R437. -/
def EngErr.matrix : EngErr → MErr
  | .xlate => .kind 1
  | .hole => .kind 3
  | _ => .kind 2
/-- Read pieces of the module for a command. -/
def State.mGet (s : State) (c : CtxId) (ps : List (Nat × Nat)) (peer : List Nat) : Except MErr (State × List Nat × Nat) :=
  match s.reach c ps with
  | .hole => .error (.kind 3)
  | .go t => match t.poisonIn ps with
    | some u => .error (.poison u)
    | none => .ok (t, peer, t.rdPieces ps)
  | _ => .error (.held ps)
/-- Read n bytes at an address for a command; a peer's answer comes with the step, and its failure is that none does. -/
def State.mRead (s : State) (c : CtxId) (asid va n : Nat) (peer : List Nat) : Except MErr (State × List Nat × Nat) := do
  let (t, ps) ← (s.engPieces c asid va n false [0, 4, 5, 8]).mapError (·.matrix)
  if farPieces ps then
    match t.answers ((ps.headD (0, 0)).1) peer with
    | v :: rest => pure (t, rest, v % 256 ^ n)
    | [] => throw (.kind 5)
  else t.mGet c ps peer
/-- A poisoned unit of the destination that a write does not cover as a whole. -/
def State.poisonLeft (s : State) (key n : Nat) : Bool := ((s.poison.isEmpty == false) && ((s.clearPoison key n (2 ^ n - 1)).poisoned key n).isSome)
/-- A cluster of pieces that has failed to wake (R457). -/
def State.failedAt (s : State) (ps : List (Nat × Nat)) : Bool :=
  ps.any fun p => (placeCluster p.1).any fun k => (s.cluster k).power == .failed
/-- The contexts for which a command's write is their own, or which wait for the command in MSYNC: their loads after it return what it
wrote (R383). -/
def State.drainReaders (s : State) (u : CoreId) (m : MCmd) : List CtxId :=
  let waits (c : CtxId) : Bool := match (s.ctx c).wait with
    | .msync l => l.contains m.id
    | _ => false
  (m.src.toList ++ u.ctxs.filter waits).eraseDups
/-- Write n bytes of a command (R382); `stamp` tells that the write counts by itself for a master. -/
def State.mWrite (s : State) (u : CoreId) (m : MCmd) (va n val : Nat) (stamp : Bool) (peer : List Nat) :
    Except MErr (State × List Nat × List (Nat × Nat)) := do
  let c := m.ctx u
  let asid := m.asid
  let (t, ps) ← (s.engPieces c asid va n true [0, 4, 5, 8]).mapError (·.matrix)
  let key := (ps.headD (0, 0)).1
  if ps.any fun p => isPeer p.1 then
    match t.answers key peer with
    | _ :: rest => pure (t, rest, ps)
    | [] => throw (.kind 5)
  else if t.failedAt ps then throw (.kind 3)
  else if ps.any fun p => t.poisonLeft p.1 p.2 then throw (.kind 4)
  else
    let put (r : State × Nat) (p : Nat × Nat) : State × Nat :=
      let v := r.2 % 256 ^ p.2
      let mask := 2 ^ p.2 - 1
      let s := (s.drainReaders u m).foldl (fun s c => s.unsnap c p.1 p.2 mask) r.1
      let s := if isDevice p.1 then s.overtake p.1 p.2 mask none else s
      (if stamp then s.wrMem p.1 p.2 v mask m.src else s.wrPlain p.1 p.2 v mask m.src, r.2 / 256 ^ p.2)
    pure ((ps.foldl put (t.arbitrate c key none, val)).1, peer, ps)
/-- Read n bytes of a view's memory by the directory of its registration (R206, R441); a peer's shard is read by a peer's answers
(notes/assumptions/87). -/
def State.vRead (s : State) (c : CtxId) (w : View) (va n : Nat) (peer : List Nat) : Except MErr (State × List Nat × Nat) :=
  if bits va 63 60 = 8 then
    match s.answers va peer with
    | v :: rest => .ok (s, rest, v % 256 ^ n)
    | [] => .error (.kind 5)
  else match w.pieces va n with
    | none => .error (.kind 1)
    | some ps => s.mGet c ps peer
/-- Steps over a list, each with the state and the answers that the last has left. -/
def overRows {α : Type} (f : Nat → State → List Nat → Except MErr (State × List Nat × α)) : List Nat → State → List Nat → Except MErr (State × List Nat × (List α))
  | [], s, peer => .ok (s, peer, [])
  | r :: rs, s, peer => do
    let (s, peer, x) ← f r s peer
    let (s, peer, xs) ← overRows f rs s peer
    pure (s, peer, x :: xs)

/-- The check of a view-checked read of a view block (R196, R438), and its view and master. -/
def State.viewCheck (s : State) (c : CtxId) (h : Hnd) (bi bj : Nat) (peer : List Nat) : Except MErr (State × List Nat × (Master × View)) := do
  let (m, w) ← match s.master h.mid with
    | some m => match m.view h.view with
      | some w => if w.slot = h.slot then pure (m, w) else throw (.view 38 8 (viewVal h.mid h.view 0))
      | none => throw (.view 38 8 (viewVal h.mid h.view 0))
    | none => throw (.view 38 8 (viewVal h.mid h.view 0))
  let blk := bi * w.nbc m + bj
  if bi ≥ w.nbr m ∨ bj ≥ w.nbc m then throw (.view 38 11 (viewVal h.mid h.view blk))
  let (s, peer, t) ← s.vRead c w (w.tagAt m bi bj) 8 peer
  match viewSees t (m.stamp (w.master m bi bj)) h.polo with
  | .current => pure (s, peer, m, w)
  | .stale => pure (s.countStale c, peer, m, w)
  | .wait => throw .wait
  | .fault cause det => throw (.view cause det (viewVal h.mid h.view blk))
/-- Codes of a strip, and the scale code of each element; none without scales. -/
abbrev Strip := List Nat × List Nat
/-- Spread one scale code, or four, over a strip. -/
def spread (geo v : Nat) : List Nat :=
  if geo = 2 then (lanes v 8 4).flatMap fun x => List.replicate 32 x else List.replicate 128 (v % 256)
/-- Row r of a view block, once its check has passed (R188). -/
def State.viewRow (s : State) (c : CtxId) (m : MCmd) (a : Master) (w : View) (bi bj r : Nat) (peer : List Nat) : Except MErr (State × List Nat × Strip) := do
  let (s, peer, v) ← s.vRead c w (w.elem a bi bj r 0) (w.bytes 128) peer
  let cs := codesOf m.fd w.slot v 128
  if !w.scaled then pure (s, peer, cs, [])
  else
    let (s, peer, sc) ← s.vRead c w (w.scaleAt a bi bj + w.scaleRow r) w.scaleLen peer
    pure (s, peer, cs, spread w.geo sc)
/-- Row r, block column b, of a plain or master handle. -/
def State.plainRow (s : State) (c : CtxId) (m : MCmd) (h : Hnd) (r b : Nat) (peer : List Nat) : Except MErr (State × List Nat × Strip) := do
  let n := h.width b
  let (s, peer, v) ← s.mRead c m.asid (m.rowVa h r b) (m.len h n) peer
  let cs := if m.f = 1 then lanes v 64 n else codesOf m.fd h.slot v n
  let cs := cs ++ List.replicate (128 - n) 0
  if !(h.scaled && h.kind == 0) then pure (s, peer, cs, [])
  else
    let (va, k) := h.scaleVa r b
    let (s, peer, sc) ← s.mRead c m.asid va k peer
    pure (s, peer, cs, spread h.geo sc)
/-- An A strip (R150, R380): rows and columns beyond the handle's count as 0 and are not read. -/
def State.stripOf (s : State) (c : CtxId) (m : MCmd) (h : Hnd) (r b : Nat) (peer : List Nat) : Except MErr (State × List Nat × Strip) :=
  if r ≥ h.rows ∨ 128 * b ≥ h.cols then .ok (s, peer, List.replicate 128 0, [])
  else if h.kind = 2 then do
    let (s, peer, a, w) ← s.viewCheck c h (r / 128) b peer
    let (s, peer, cs, scs) ← s.viewRow c m a w (r / 128) b (r % 128) peer
    let n := h.width b
    pure (s, peer, cs.take n ++ List.replicate (128 - n) 0, scs)
  else s.plainRow c m h r b peer
/-- The rows of the block at block row bi and block column b, as MLDW reads it (R379): one view-checked read of a view. -/
def State.blockRows (s : State) (c : CtxId) (m : MCmd) (h : Hnd) (bi b : Nat) (peer : List Nat) : Except MErr (State × List Nat × (List Strip)) :=
  let rows := upFrom (128 * bi) 128
  let none_ : Strip := (List.replicate 128 0, [])
  if 128 * bi ≥ h.rows ∨ 128 * b ≥ h.cols then .ok (s, peer, List.replicate 128 none_)
  else if h.kind = 2 then do
    let (s, peer, a, w) ← s.viewCheck c h bi b peer
    overRows (fun r s peer =>
      if r ≥ h.rows then .ok (s, peer, none_) else do
        let (s, peer, cs, scs) ← s.viewRow c m a w bi b (r % 128) peer
        let n := h.width b
        pure (s, peer, cs.take n ++ List.replicate (128 - n) 0, scs)) rows s peer
  else overRows (fun r s peer => if r ≥ h.rows then .ok (s, peer, none_) else s.plainRow c m h r b peer) rows s peer

/-! ### The commands at work -/

/-- The codes of a tile, row by row; poison is DETAIL 4. -/
def State.tileRows (s : State) (u : CoreId) (j w rows : Nat) : Except MErr (List (List Nat)) :=
  let k := s.tileKey u j
  if (s.poisoned k 65536).isSome then .error (.kind 4) else .ok (pieces 128 rows (lanes (s.rdMem k 65536) w (128 * rows)))
/-- Write a tile's codes, its tag and the summary bits that join it. -/
def State.putTile (s : State) (u : CoreId) (j w tag bits_ : Nat) (cs : List Nat) (by_ : Option CtxId) : State :=
  let s := s.wrMem (s.tileKey u j) 65536 (ofLanes w cs) (2 ^ 65536 - 1) by_
  let k := s.core u
  let old := (Tab.get k.tiles j 0).toNat / 65536
  s.setCore u { k with tiles := Tab.set k.tiles j (BitVec.ofNat 20 ((old ||| bits_) * 65536 + tag)) }
/-- Columns of the square at crown position p, as codes (R406). -/
def State.squareCols (s : State) (u : CoreId) (fd : Nat → Nat) (p slot : Nat) : Except MErr (List (List Nat)) :=
  let k := crownKey u (p * 16384)
  let n := 8192 * halfBytes fd slot
  if (s.poisoned k n).isSome then .error (.kind 4) else .ok (pieces 128 128 (codesOf fd slot (s.rdMem k n) 16384))
/-- Every element of rows against columns: the new codes in order, and the summary bits. -/
def gridMap {α β : Type} (f : α → β → Nat → Nat × Nat) (rows : List (List Nat × α)) (cols : List β) : List Nat × Nat :=
  let rs := rows.flatMap fun r => (r.1.zip cols).map fun e => f r.2 e.2 e.1
  (rs.map (·.1), rs.foldl (fun m r => m ||| r.2) 0)

/-- The next read of a command of the block that it reads (R150, R379, R380): one strip, or the rows of a square. -/
def State.readNext (s : State) (u : CoreId) (m : MCmd) (peer : List Nat) : Except MErr (State × List Nat × List Strip) :=
  let c := m.ctx u
  let b := m.kb0 + m.kb + if m.work.isSome then 1 else 0
  let i := m.got.length
  if m.f = 3 then s.blockRows c m m.h b m.row0 peer
  else do
    let (s, peer, x) ← if m.f = 2 ∧ 64 ≤ i then s.stripOf c m m.hB (128 * b + (i - 64)) 0 peer else s.stripOf c m m.h (m.row0 + i) b peer
    pure (s, peer, [x])
/-- One K-block of MMA (R51 to R54, R380) over its strips. A's elements beyond its columns count as 0 and are multiplied like any
other, so that an Inf or NaN of the square there gives NaN (notes/assumptions/68). -/
def State.mmaBlock (t : State) (u : CoreId) (m : MCmd) (strips : List Strip) : Except MErr State := do
  let h := m.h
  let tag := (t.core u).crownTag (m.pos m.kb)
  let kB := slotOf m.fd (tag % 32)
  let kA := slotOf m.fd h.slot
  let cols ← t.squareCols u m.fd (m.pos m.kb) (tag % 32)
  let cols := cols.map (·.map kB.decode)
  let sb := if bit tag 5 then bits tag 13 6 else 127
  let rows ← t.tileRows u m.d 32 128
  let joined := strips.map fun r =>
    let (cs, sa) := joinScales kA r.1 r.2
    (cs.map kA.decode, sa)
  let item (r : List Val × Nat) (col : List Val) (acc : Nat) :=
    mmaItem acc (if h.half then dotHalf r.1 col else blkNarrow r.2 sb (dotNarrow r.1 col))
  let (cs, bs) := gridMap item (rows.zip joined) cols
  pure (t.putTile u m.d 32 16410 bs cs m.src)
/-- One K-block of MMAIV (R72, R73, R380). -/
def State.mmaivBlock (t : State) (u : CoreId) (m : MCmd) (strips : List Strip) : Except MErr State := do
  let cols ← t.squareCols u m.fd (m.pos m.kb) 24
  let ws := cols.map (·.map (slotOf m.fd 24).decode)
  let lo ← t.tileRows u m.d 32 128
  let hi ← t.tileRows u (m.d + 1) 32 128
  let xs := strips.map fun r => r.1.map fun v => Ival.make false (v % 4294967296) (v / 4294967296)
  let rs := ((lo.zip hi).zip xs).flatMap fun r => ((r.1.1.zip r.1.2).zip ws).map fun e =>
    (r.2.zip e.2).foldl (fun a p => ivItem a p.1 p.2) (e.1, 0)
  let bs := rs.foldl (fun m r => m ||| r.2) 0
  let t := t.putTile u m.d 32 16410 bs (rs.map (·.1.1)) m.src
  pure (t.putTile u (m.d + 1) 32 16410 bs (rs.map (·.1.2)) m.src)
/-- One K-block of MMA64 (R55, R380). -/
def State.mma64Block (t : State) (u : CoreId) (m : MCmd) (got : List Strip) : Except MErr State := do
  let strips := got.take 64
  let bRows := got.drop 64
  let rows ← t.tileRows u m.d 64 64
  let cols := (upFrom 0 128).map fun n => bRows.map fun r => fp64.decode (r.1.getD n 0)
  let (cs, bs) := gridMap (fun (r : List Val) col acc => mma64Item acc (r.zip col))
    (rows.zip (strips.map fun r => r.1.map fp64.decode)) cols
  pure (t.putTile u m.d 64 16411 bs cs m.src)
/-- One square of MLDW (R379, R406): under the largest scale of the block, elements first and then the tag. -/
def State.mldwSquare (t : State) (u : CoreId) (m : MCmd) (rows : List Strip) : State :=
  let h := m.h
  let kA := slotOf m.fd h.slot
  let all := rows.flatMap (·.2)
  let top := match all with
    | [] => 127
    | x :: xs => xs.foldl max x
  let rs := rows.map fun r => if r.2.isEmpty then r.1 else (r.1.zip r.2).map fun e => rescale kA e.1 e.2 top
  let cs := (upFrom 0 128).flatMap fun n => rs.map fun r => r.getD n 0
  let p := m.pos m.kb
  let n := 8192 * halfBytes m.fd h.slot
  let t := t.wrMem (crownKey u (p * 16384)) n (packCodes m.fd h.slot cs) (2 ^ n - 1) m.src
  let tag := 16384 + h.slot + if h.half then 0 else 32 + 64 * top
  let k := t.core u
  let tags := Tab.set k.crownTags p (BitVec.ofNat 16 tag)
  t.setCore u { k with crownTags := if h.half then Tab.set tags (p + 1) (BitVec.ofNat 16 tag) else tags }
/-- MZERO (R381). -/
def State.mzeroRun (s : State) (u : CoreId) (m : MCmd) : State :=
  let s := s.wrMem (s.tileKey u m.d) 65536 0 (2 ^ 65536 - 1) m.src
  let k := s.core u
  s.setCore u { k with tiles := Tab.set k.tiles m.d (BitVec.ofNat 20 m.zeroTag) }

/-- The writes of one row of a drain: scale codes with their address, and element codes (R41, R42, R207). -/
def MCmd.drainRow (m : MCmd) (vs : List Val) (r : Nat) (square : Nat) : List (Nat × Nat × Nat) × List Nat :=
  let h := m.h
  match slotOf m.fd h.slot with
  | .narrow f =>
    let q (sc : Nat) (l : List Val) := l.map fun v => (quantise f sc v).1
    if h.scale = 0 then ([], q 127 vs)
    else if h.geo = 0 then
      let sc := scaleCode f vs
      ([((h.scaleVa r m.kb0).1, 1, sc)], q sc vs)
    else if h.geo = 1 then ([], q square vs)
    else
      let groups := (upFrom 0 ((vs.length + 31) / 32)).map fun g => (vs.drop (32 * g)).take 32
      let scs := groups.map (scaleCode f)
      ([((h.scaleVa r m.kb0).1, scs.length, ofLanes 8 scs)], (groups.zip scs).flatMap fun e => q e.2 e.1)
  | k => ([], vs.map fun v => (k.round (if m.c % 4 = 1 then .rdn else if m.c % 4 = 2 then .rup else .rne) v).1)
/-- Write the rows of a drain until one fails: the state, the places of a master's writes, and the failure. The half byte beyond the
last column of an odd row keeps what it holds (R382). -/
def State.drainRows (u : CoreId) (m : MCmd) (square : Nat) :
    List (Nat × List Val) → State → List Nat → List (Nat × Nat) → State × List (Nat × Nat) × Option MErr
  | [], s, _, at_ => (s, at_, none)
  | (r, vs) :: rest, s, peer, at_ =>
    let h := m.h
    let (scales, cs) := m.drainRow vs r square
    let plain := h.kind == 0
    let res : Except MErr (State × List Nat × List (Nat × Nat)) := do
      let (s, peer) ← scales.foldlM (fun (a : State × List Nat) e => do
        let (s, peer, _) ← a.1.mWrite u m e.1 e.2.1 e.2.2 true a.2
        pure (s, peer)) (s, peer)
      let va := m.rowVa h r m.kb0
      let n := m.len h cs.length
      let (s, peer, old) ← if m.hb h * cs.length % 2 = 1 then s.mRead (m.ctx u) m.asid (va + (n - 1)) 1 peer else .ok (s, peer, 0)
      s.mWrite u m va n (packCodes m.fd h.slot cs + old / 16 * 16 * 256 ^ (n - 1)) plain peer
    match res with
    | .error e => (s, at_, some e)
    | .ok (t, peer, ps) => State.drainRows u m square rest t peer (if plain then [] else at_ ++ ps)
/-- MDRAIN (R207, R382): rows and columns beyond the handle's are not written; a master counts one write for each block
that they fall in. -/
def State.mdrainRun (s : State) (u : CoreId) (m : MCmd) (peer : List Nat) : State × Option MErr :=
  let h := m.h
  let wide := (s.core u).tileTag m.d % 32 == 27
  let (w, n, k) := if wide then (64, 64, fp64) else (32, 128, fp32)
  match s.tileRows u m.d w n with
  | .error e => (s, some e)
  | .ok rows =>
    let cols := h.width m.kb0
    let vals := ((upFrom m.row0 n).zip rows).filter (fun e => decide (e.1 < h.rows) && decide (cols > 0)) |>.map fun e =>
      (e.1, (e.2.take cols).map k.decode)
    let square := match slotOf m.fd h.slot with
      | .narrow f => scaleCode f (vals.flatMap (·.2))
      | _ => 127
    let one := decide (h.slot ≤ 22) && h.scale != 0 && h.geo == 1 && !vals.isEmpty
    let first : Except MErr (State × List Nat × List (Nat × Nat)) :=
      if one then s.mWrite u m (h.scaleVa m.row0 m.kb0).1 1 square true peer else .ok (s, peer, [])
    match first with
    | .error e => (s, some e)
    | .ok (t, peer, _) =>
      let (t, at_, e) := State.drainRows u m square vals t peer []
      (t.stampAll (at_.filter fun p => isDevice p.1), e)

/-! ### The queue at work (R376, R377, R408) -/

/-- Round trip to the farthest strip of a block, 0 for the own pool, with what a miss of its home's cache adds (R147, R377, R466). -/
def State.cmdLat (s : State) (u : CoreId) (m : MCmd) (b : Nat) : Nat :=
  let c := m.ctx u
  let h := m.h
  let home (p : Nat × Nat) : Nat := latHome u (homeOf p.1) + lineMiss p.1 p.2 m.id
  let far (va n : Nat) : Nat :=
    match s.engPieces c m.asid va n false [0, 4, 5] with
    | .ok (_, ps) => if ps.all fun p => isDevice p.1 then (ps.map home).foldl max 0 else match s.localPlace c va true with
      | .ok p => if p.owner = some u then 0 else p.lat
      | .error _ => 0
    | .error _ => 0
  let rows := if m.f = 3 then h.rowsFrom (128 * b) 128 else h.rowsFrom m.row0 (if m.f = 2 then 64 else 128)
  let col := if m.f = 3 then m.row0 else b
  if 128 * col ≥ h.cols then 0
  else if h.kind = 2 then
    match s.master h.mid with
    | none => 0
    | some a => match a.view h.view with
      | none => 0
      | some w => ((rows.flatMap fun r => (w.pieces (w.elem a (r / 128) col (r % 128) 0) (w.bytes 128)).getD []).map home).foldl max 0
  else (rows.map fun r => far (m.rowVa h r col) (m.len h (h.width col))).foldl max 0
/-- Bytes of scale codes that a drain of n rows writes (R207). -/
def MCmd.drainScales (m : MCmd) (n : Nat) : Nat :=
  let h := m.h
  if !h.scaled ∨ n = 0 ∨ h.width m.kb0 = 0 then 0 else if h.geo = 0 then n else if h.geo = 1 then 1 else n * ((h.width m.kb0 + 31) / 32)
/-- Cycles of a K-block or a square (R377). -/
def State.cmdPer (s : State) (u : CoreId) (m : MCmd) : Nat :=
  let hb := halfBytes m.fd m.h.slot
  match m.f with
  | 0 => if m.h.half then 1024
         else if hb = 1 ∧ halfBytes m.fd ((s.core u).crownTag (m.pos m.kb) % 32) = 1 then 256 else 512
  | 1 => 8192
  | 2 => 131072
  | 3 => 64 * hb
  | 4 => 32
  | _ =>
    let wide := (s.core u).tileTag m.d % 32 == 27
    let n := (m.h.rowsFrom m.row0 (if wide then 64 else 128)).length
    64 + (n * m.len m.h (m.h.width m.kb0) + m.drainScales n) / 128
/-- Does the next part of a command reach a peer, whose answer an outside step brings? -/
def State.cmdPeer (s : State) (m : MCmd) : Bool :=
  let h := m.h
  let far (va : Nat) : Bool := bits va 63 60 == 8
  m.f != 4 && ((h.kind != 2 && (far h.base || (h.scaled && far h.scale))) || (m.f == 2 && far m.hB.base) ||
    (h.kind == 2 && match s.master h.mid with
      | none => false
      | some a => match a.view h.view with
        | none => false
        | some w => w.shards.any fun x => far x.ebase || far x.sbase || far x.tbase))
/-- Replace a command of the queue, or drop it. -/
def State.setCmd (s : State) (u : CoreId) (m : MCmd) : State :=
  let k := s.core u
  s.setCore u { k with mq := k.mq.map fun n => if n.id = m.id then m else n }
/-- The block that the engine reads: the one to begin, or the next while one is in work (R377). -/
def MCmd.block (m : MCmd) : Nat := m.kb + if m.work.isSome then 1 else 0
/-- Is part of that block still to be read? -/
def MCmd.reading (m : MCmd) : Bool := decide (m.block < m.n) && decide (m.got.length < m.reads)
/-- Set the next part of the head command going at its time, with the answers of peers that are left: the reads of a block are spread
over the cycles until it may begin (notes/assumptions/47), and a read that waits is tried again in the next cycle. -/
def State.cmdAt (s : State) (u : CoreId) (m : MCmd) (peer : List Nat) : State :=
  let end_ := max m.until_ s.cyc
  let left := if m.f = 3 then 1 else m.reads - m.got.length
  let t := if m.waited then s.cyc + 1 else if m.reading then s.cyc + (end_ - s.cyc) / left else end_
  s.at_ t .matrixCommandRun { ctx := ⟨u, 0⟩, ns := [1, m.id] ++ peer }
/-- The same where a part begins: a command that reaches a peer goes on from outside, with the peer's answers. -/
def State.cmdNext (s : State) (u : CoreId) (m : MCmd) : State :=
  let t := s.setCmd u m
  if s.cmdPeer m then t else t.cmdAt u m []
/-- A command has ended: the next begins, and a record that waits in the down FIFO is taken (R376, R384). -/
def State.cmdEnd (s : State) (u : CoreId) (m : MCmd) : State :=
  let k := s.core u
  let s := s.setCore u { k with mq := k.mq.filter (·.id != m.id) }
  let s := if k.down.isEmpty then s else s.after 0 .downFifoRecordTake { ctx := ⟨u, 0⟩ }
  s.after 0 .matrixCommandRun { ctx := ⟨u, 0⟩, ns := [0] }
/-- The position word of what a failed command leaves undone (R437). -/
def MCmd.rest (m : MCmd) : Nat :=
  if m.f < 3 then (m.n - m.kb - 1) * 281474976710656 + (m.kb0 + m.kb) % 65536 * 4294967296 + m.row0
  else if m.f = 3 then (m.kb0 + m.kb) % 65536 * 4294967296 + m.row0
  else m.xv
/-- A command fails at engine time (R437, R438): its source's commands behind it go with it, the source being its context, the
vertical FIFO, or the context that sent it. -/
def State.cmdFail (s : State) (u : CoreId) (m : MCmd) (e : MErr) : State :=
  let t : Trap := match e with
    | .view cause detail val => { cause := cause, detail := detail, val := val }
    | .kind d => { cause := 36, detail := d, val := m.rest }
    | .poison _ => { cause := 36, detail := 4, val := m.rest }
    | _ => { cause := 36, val := m.rest }
  let s := match e with
    | .poison p => s.countPoison p
    | _ => s
  let s := s.pendAsync (m.ctx u) t
  let k := s.core u
  let mine (n : MCmd) : Bool := n.src == m.src && n.fifo == m.fifo && (m.fifo || n.via == m.via)
  let keep (n : MCmd) : Bool := n.id == m.id || !mine n
  (s.setCore u { k with mq := k.mq.filter keep }).cmdEnd u m
/-- The head command begins, or goes on after a stop (R223, R388, R408), unless its context is stopped or about to stop. -/
def State.cmdKick (s : State) (u : CoreId) : State :=
  match (s.core u).mq with
  | [] => s
  | m :: _ =>
    if m.started && !m.halted then s
    else
      let x := s.ctx (m.ctx u)
      let again := s.after 1 .matrixCommandRun { ctx := ⟨u, 0⟩, ns := [0] }
      if x.st = .stopped then s
      else if !x.stops.isEmpty then again
      else if m.halted then
        let e := s.cyc + s.cmdLat u m (m.kb0 + m.kb)
        s.cmdNext u { m with halted := false, until_ := e, ready := e }
      else if (s.flight.any fun f => m.after.contains f.id && !f.performed) ||
          !((m.src.orElse fun _ => m.via).elim true fun c => s.engineClear c m.foot m.behind) then again
      else
        let lat := s.cmdLat u m m.kb0
        let e := s.cyc + if m.f < 3 then 16 + lat else if m.f = 3 then max lat 4 else s.cmdPer u m
        s.cmdNext u { m with started := true, until_ := e, ready := e }
/-- The work of a K-block or a square on its strips: the state, or why it fails. -/
def State.cmdWork (s : State) (u : CoreId) (m : MCmd) (strips : List Strip) : Except MErr State :=
  match m.f with
  | 0 => s.mmaBlock u m strips
  | 1 => s.mmaivBlock u m strips
  | 2 => s.mma64Block u m strips
  | _ => .ok (s.mldwSquare u m strips)
/-- A command halts at a K-block boundary (R223): what it read ahead is read again. -/
def State.cmdHalt (s : State) (u : CoreId) (m : MCmd) : State :=
  let holds := if m.src.isSome then (s.cmdHolds u m).filter fun h => decide (256 * m.kb ≤ h.1) else []
  s.setCmd u { m with halted := true, work := none, got := [], waited := false, holds := holds }
/-- A block that has been read begins. -/
def State.cmdBegin (s : State) (u : CoreId) (m : MCmd) (peer : List Nat) : State :=
  let m := { m with work := some m.got, got := [], until_ := max s.cyc m.ready + s.cmdPer u m }
  (s.setCmd u m).cmdAt u m peer
/-- The next read of a command: one that has waited for a tag delivers a load latency after the tag's write (R466). What cannot be read
while a block is in work is tried again, and fails once that block has ended. -/
def State.cmdRead (s : State) (u : CoreId) (m : MCmd) (peer : List Nat) : State :=
  match s.readNext u m peer with
  | .error e =>
    let again (s : State) : State :=
      let m := { m with waited := true }
      (s.setCmd u m).cmdAt u m peer
    let stop := m.f < 3 ∧ m.work.isNone ∧ !(s.ctx (m.ctx u)).stops.isEmpty
    match e with
    | .wait => if stop then s.cmdHalt u m else again s
    | .held ps => if stop then s.cmdHalt u m else match s.reach (m.ctx u) ps with
      | .wait t _ => again t
      | .never => s
      | _ => again s
    | _ => if m.work.isNone then s.cmdFail u m e else again s
  | .ok (t, peer, xs) =>
    let ready := if m.waited then max m.ready (s.cyc + s.cmdLat u m (m.kb0 + m.block)) else m.ready
    let no := 256 * m.block + m.got.length
    let m := { m with got := m.got ++ xs, ready := ready, waited := false, holds := m.holds.filter (·.1 != no)
                      until_ := if m.work.isNone then max m.until_ ready else m.until_ }
    if m.reading ∨ m.work.isSome then (t.setCmd u m).cmdAt u m peer else t.cmdBegin u m peer
/-- A K-block or a square ends: its results are in the tile or the crown, and the next begins once it has been read, unless a stop has
come (R223). -/
def State.cmdBlock (s : State) (u : CoreId) (m : MCmd) (strips : List Strip) (peer : List Nat) : State :=
  match s.cmdWork u m strips with
  | .error e => s.cmdFail u m e
  | .ok t =>
    let m := { m with kb := m.kb + 1, work := none, holds := m.holds.filter fun h => decide (256 * (m.kb + 1) ≤ h.1) }
    if m.n ≤ m.kb then t.cmdEnd u m
    else if m.f < 3 ∧ !(t.ctx (m.ctx u)).stops.isEmpty then t.cmdHalt u m
    else if m.reading then
      let m := { m with until_ := max s.cyc m.ready }
      (t.setCmd u m).cmdAt u m peer
    else t.cmdBegin u m peer
/-- The places that a drain writes, elements and scales, as far as they can be reached. -/
def State.drainPieces (s : State) (u : CoreId) (m : MCmd) : List (Nat × Nat) :=
  let at_ (va n : Nat) : List (Nat × Nat) := match s.engPieces (m.ctx u) m.asid va n true [0, 4, 5] with
    | .ok (_, ps) => ps
    | .error _ => []
  if m.h.width m.kb0 = 0 then []
  else (m.h.rowsFrom m.row0 (if (s.core u).tileTag m.d % 32 = 27 then 64 else 128)).flatMap fun r =>
    at_ (m.rowVa m.h r m.kb0) (m.len m.h (m.h.width m.kb0)) ++
      if m.h.kind = 0 ∧ m.h.scaled then at_ (m.h.scaleVa r m.kb0).1 (m.h.scaleVa r m.kb0).2 else []
/-- MZERO and MDRAIN, which have one part. -/
def State.cmdWhole (s : State) (u : CoreId) (m : MCmd) (peer : List Nat) : State :=
  if m.f = 4 then (s.mzeroRun u m).cmdEnd u m
  else
    let ps := s.drainPieces u m
    let run (s : State) : State := match s.mdrainRun u m peer with
      | (t, some e) => t.cmdFail u m e
      | (t, none) => t.cmdEnd u m
    match ps.findSome? fun p => s.holdOf p.1 p.2 with
    | some mid => s.holdWrite mid .matrixCommandRun
    | none => match s.reach (m.ctx u) ps with
      | .wait t n => t.after n .matrixCommandRun s.arg
      | .never => s
      | _ => run s
/-- MATRIX_COMMAND_RUN (R380 to R383, R437, R438): the next part of the head of the queue. With 0 the head begins or goes on; with 1
the number of the command follows, and then the answers of peers that it needs. -/
def execMatrixCommandRun (s : State) : Host.Outcome State Fault Refusal :=
  let u := s.arg.ctx.core
  if s.n 0 = 0 then done (s.cmdKick u)
  else match (s.core u).mq with
    | [] => done s
    | m :: _ =>
      let peer := s.arg.ns.drop 2
      if m.id ≠ s.n 1 ∨ !m.started ∨ m.halted then done s
      else match m.work with
        | some strips =>
          if m.until_ ≤ s.cyc ∧ (m.waited ∨ !m.reading) then done (s.cmdBlock u m strips peer)
          else if m.reading then done (s.cmdRead u m peer)
          else done (s.cmdAt u m peer)
        | none =>
          if m.f < 4 then done (s.cmdRead u m peer)
          else if m.until_ ≤ s.cyc then done (s.cmdWhole u m peer)
          else done (s.cmdAt u m peer)

/-! ### Records (R384 to R388, R400, R436) -/

/-- Does a record hold a reserved word (R384, R436 DETAIL 16)? -/
def recordBad (d : Nat → Nat) : Bool :=
  let w := d 0
  let f := w % 64
  decide (w / 4294967296 ≠ 0) || bits w 31 26 != 39 || !(f == 0 || f == 1 || f == 3 || f == 4 || f == 5) || bits w 20 16 != 0 ||
  (match decodeWord w with
   | .ok _ => false
   | .error _ => true) ||
  (upFrom 2 6).any (fun i => d i != 0) || (f == 4 && (upFrom 8 8).any fun i => d i != 0)
/-- The command of a record on core u. -/
def State.recordCmd (s : State) (u : CoreId) (r : List Nat) (via : Option CtxId) (behind : List Nat) : MCmd :=
  { id := 0, word := r.getD 0 0, xv := r.getD 1 0, h0 := (r.drop 8).take 8, fds := s.fdList u, via := via, behind := behind
    asid := (s.launchOf u).elim 0 (·.asid) }
/-- The command of a record in a vertical FIFO, which is an engine command of the context that pushed it (R400). -/
def State.fifoCmd (s : State) (u : CoreId) (v : LinkVal) : MCmd :=
  { s.recordCmd u (lanes v.val.toNat 64 16) v.via v.behind with fifo := true, eid := v.id, after := v.after }
/-- The first entry of a FIFO that does not show yet shows. -/
def showFirst : List LinkVal → List LinkVal
  | [] => []
  | v :: vs => if v.at_ = 0 then v :: showFirst vs else { v with at_ := 0 } :: vs
/-- FIFO_ENTRY_VISIBLE (R102, R384): the ends of a vertical FIFO have notice of an entry; 1 for `up`. A record shows its footprint, and
the engine has notice of it. -/
def execFifoEntryVisible (s : State) : Host.Outcome State Fault Refusal :=
  let u := s.arg.ctx.core
  let k := s.core u
  let k := if k.fifoAt = s.cyc + 1 then { k with fifoWas := k.fifoWas.modify (if s.n 0 = 1 then 3 else 2) (· + 1) } else k
  if s.n 0 = 1 then done (s.setCore u { k with up := showFirst k.up })
  else
    let foot (v : LinkVal) : LinkVal := if v.via.isSome then { v with foot := s.cmdFoot u (s.fifoCmd u v) } else v
    done ((s.setCore u { k with down := (showFirst k.down).map foot }).after 0 .downFifoRecordTake { ctx := s.arg.ctx })
/-- What refuses a record once its word is sound: FORMAT_INVALID or MATRIX_REJECT, with `tval` the word's D field. -/
def State.recordReject (s : State) (u : CoreId) (m : MCmd) : Option Trap :=
  match m.formatBad (s.core u) with
  | some n => some { cause := 7, val := m.fd n + n * 4294967296 }
  | none => (s.cmdReject u m 0).map fun e => { cause := 35, detail := e.1, val := m.d }
/-- DOWN_FIFO_RECORD_TAKE (R384, R400, R436): a record at the head of the down FIFO enters the queue when it has room; one that
fails a check is discarded, and its cause goes to context 0 of the deck core. -/
def execDownFifoRecordTake (s : State) : Host.Outcome State Fault Refusal :=
  let u := s.arg.ctx.core
  let k := s.core u
  match k.down with
  | [] => done s
  | v :: rest =>
    if v.at_ ≠ 0 ∨ v.tag ≠ 16447 ∨ k.mq.length ≥ 8 then done s
    else
      let r := lanes v.val.toNat 64 16
      let s := s.setCore u { k.noteFifo s.cyc with down := rest }
      let s := if rest.isEmpty then s else s.after 0 .downFifoRecordTake s.arg
      let m := s.fifoCmd u v
      let refuse (t : Trap) := s.pendAsync ⟨u.deck, 0⟩ t
      if recordBad (r.getD · 0) then done (refuse { cause := 35, detail := 16, val := m.d })
      else match s.recordReject u m with
        | some t => done (refuse t)
        | none => done (s.cmdAccept u m)

/-- CHK of the 40 bits below it, under a partition's key (R387). -/
def State.capCheck (s : State) (p low : Nat) : Nat :=
  let h := hmacSha512 (Tab.get s.capKeys p (List.replicate 64 0)) ((upFrom 0 5).map fun i => low / 256 ^ i % 256)
  ofLanes 8 (h.take 3)
/-- The capability epoch of a partition (R387). -/
def State.capEpoch (s : State) (p : Nat) : Nat := s.ctl (83886592 + p * 8) % 4096
/-- The partition whose key seals and checks a context's capabilities: the hypervisor's are its pylon's. -/
def State.capPart (s : State) (c : CtxId) : Nat := (s.partOf c).getD ((s.partition c.core.pyl).getD 8)
/-- MCAP (R387). -/
def execMcap (d a : Nat) (s : State) : Host.Outcome State Fault Refusal :=
  word { rr d a with level := .s } s fun o t =>
    let p := t.capPart t.cur
    let low := bits o.a 27 0 + t.capEpoch p * 268435456
    retX t t.cur o d (low + t.capCheck p low * 1099511627776)

/-- The core that a capability names (R386). -/
def capCore (cap : Nat) : CoreId := ⟨.span, bits cap 13 11, bits cap 10 5, bits cap 4 0⟩
/-- MSEND (R385, R172): the record is read as one access and travels to the core that the capability names, with what it is ordered
behind; the word waits. -/
def execMsend (a b : Nat) (s : State) : Host.Outcome State Fault Refusal :=
  word { a := rd .x a, b := rd .x b, da := true, db := true, scope := true, svc := false } s fun o t => do
    let c := t.cur
    let r ← t.ownWords c o.a 128
    if (t.ctx c).timed.isSome then throw (.retry .msend)
    let u := capCore o.b
    let w := t.sleep c .msend
    let no := (w.ctx c).waitNo
    let behind := w.engineNow c
    pure (.left ((w.wakeCluster u.cluster).after (latPool c.core u / 2) .msendRecordArrival
      { ctx := c, ns := [no, o.b] ++ r ++ [behind.length] ++ behind ++ o.engines w c }))
/-- The checks of R387 at the target, in its order, on the record's command: the DETAIL of R436. -/
def State.capReject (s : State) (c : CtxId) (cap : Nat) (m : MCmd) : Option Nat :=
  let u := capCore cap
  let p := s.capPart c
  let low := cap % 1099511627776
  let base := s.ownBase u + 18446744073709551616
  let foot := s.cmdFoot u m
  let lo := bits cap 24 22 * 32768
  let hi := (bits cap 27 25 + 1) * 32768
  let inside (e : Nat × Nat) : Bool :=
    let pool := decide (e.1 < base + s.ownSize u) && decide (base < e.1 + e.2)
    !pool || (decide (base + lo ≤ e.1) && decide (e.1 + e.2 ≤ base + hi))
  if !enabled u.pyl (u.y / 2) (u.x / 2) || !s.mayReach c u.pyl then some 15
  else if cap / 1099511627776 ≠ s.capCheck p low then some 11
  else if bits cap 39 28 ≠ s.capEpoch p then some 12
  else if !bit cap (14 + m.f) then some 13
  else if !(foot.rd ++ foot.wr).all inside then some 14
  else none
/-- MSEND_RECORD_ARRIVAL (R385, R387, R436): behind the accesses of the release order, the target checks the record and accepts
it into its queue, for which it waits, or refuses it; the answer travels back. At a cluster without power the record waits for the
wake (R216); where the wake fails, POOL_HOLE answers, whose address the manual leaves open (R457). -/
def execMsendRecordArrival (s : State) : Host.Outcome State Fault Refusal :=
  let c := s.arg.ctx
  let cap := s.n 1
  let r := (s.arg.ns.drop 2).take 16
  let u := capCore cap
  let behind := (s.arg.ns.drop 19).take (s.n 18)
  if s.flight.any fun f => (s.arg.ns.drop (19 + s.n 18)).contains f.id && !f.performed then done (s.after 1 .msendRecordArrival s.arg)
  else
    let m := s.recordCmd u r (some c) behind
    let answer (t : State) (cause detail val : Nat) :=
      t.after (latPool c.core u / 2) .msendAnswerArrival { ctx := c, ns := [s.n 0, cause, detail, val] }
    let s := s.wakeCluster u.cluster
    let p := (s.cluster u.cluster).power
    if p = .failed then done (answer { s with free := s.free + 1 } 18 6 (Config.outcome s.free % 18446744073709551616))
    else if p ≠ .awake then done (s.after 1 .msendRecordArrival s.arg)
    else if recordBad (r.getD · 0) then done (answer s 35 16 m.d)
    else match s.capReject c cap m with
      | some d => done (answer s 35 d m.d)
      | none => match s.recordReject u m with
        | some t => done (answer s t.cause t.detail t.val)
        | none =>
          if (s.core u).mq.length ≥ 8 then done (s.after 1 .msendRecordArrival s.arg)
          else done (answer (s.cmdAccept u m) 0 0 0)
/-- MSEND_ANSWER_ARRIVAL (R385, R436): MSEND completes, or takes the cause of its record. -/
def execMsendAnswerArrival (s : State) : Host.Outcome State Fault Refusal :=
  let c := s.arg.ctx
  done (s.heldIf c .msendAnswerArrival fun s =>
    if !s.inWait c (s.n 0) then s
    else if s.n 1 = 0 then s.wake c
    else s.takeTrap c { cause := s.n 1, detail := s.n 2, val := s.n 3 } (s.ctx c).resume (s.ctx c).waitIr.toNat)

/-! ### Handles and formats (R390 to R392, R404) -/

/-- HLD (R390); behind one of the same handle it waits (R404). -/
def execHld (d a : Nat) (s : State) : Host.Outcome State Fault Refusal :=
  word { a := rd .x a, da := true, other := 1, deck := false, svc := false } s fun o t => do
    let c := t.cur
    let sp := bits o.a 63 60
    let kind : AccKind := if sp = 4 ∨ sp = 5 then .l else if sp = 7 then .w else .f
    if t.pending c 4 d then throw (.stall 4 d)
    let p ← t.aim c o.a 64 0 64 kind false false
    let f := { p.access c .load kind o.a 64 with dcls := 4, dreg := d }
    if ← t.atOnce p f then
      if (t.poisoned p.key 64).isSome then pure (.done (t.pendAsync c (eccTrap o.a 4 d)))
      else pure (.done (((t.markSeen c p.key 64).wh c d (t.rdMem p.key 64)).later c 4 d))
    else pure (.done (t.load c p f))
/-- HQRY (R391): a doubleword of the descriptor, or for a view handle the tag of a view block, read fresh. The manual gives no
value for a block that the view has not. -/
def execHqry (d a b : Nat) (s : State) : Host.Outcome State Fault Refusal :=
  word { d := wr .x d, b := rd .x b, dd := true, db := true, other := 2, deck := false, svc := false } s fun o t => do
    let c := t.cur
    let sel := o.b % 16
    if sel > 8 then trap 1 0 o.b 4
    t.hndReady c a
    let w := t.handle c a
    if sel < 8 then retX t c o d (w.getD sel 0)
    else
      let h := Hnd.of w
      if h.kind ≠ 2 then retX t c o d 0
      else
        match t.master h.mid, (t.master h.mid).bind (·.view h.view) with
        | some m, some v =>
          let n := bits o.b 63 16
          if n ≥ v.nbr m * v.nbc m then retX { t with free := t.free + 1 } c o d (Config.outcome t.free % 18446744073709551616)
          else
            let va := v.tagAt m (n / v.nbc m) (n % v.nbc m)
            let kind : AccKind := if bits va 63 60 = 8 then .s else .f
            let p ← t.aim c va 8 0 8 kind false false
            let (cls, reg) := ldDest o d
            let f : Access := { p.access c .load kind va 8 with dcls := cls, dreg := reg }
            t.loadAim c p f
            let t := if cls = 1 then t.cancel c 1 d else t
            pure (.done (t.load c p f))
        | _, _ => trap 38 8 (viewVal h.mid h.view 0)
/-- HCLR (R390); behind an HLD of the same handle it waits (R404). -/
def execHclr (d : Nat) (s : State) : Host.Outcome State Fault Refusal :=
  word { other := 1, deck := false, svc := false } s fun _ t => do
    if t.pending t.cur 4 d then throw (.stall 4 d)
    pure (.done (t.wh t.cur d 0))
/-- FMTSET (R25, R392): no validity check. No element that a stream has read ahead outlives it (R151). -/
def execFmtset (d a : Nat) (s : State) : Host.Outcome State Fault Refusal :=
  word { a := rd .x a, da := true, other := 1, deck := false, svc := false } s fun o t =>
    let u := t.cur.core
    let t := t.setCore u { t.core u with fd := Tab.set (t.core u).fd d (BitVec.ofNat 32 o.a) }
    .ok (.done (u.ctxs.foldl (fun t c => ({ t with flight := t.flight.map fun f => if f.ctx = c then f.unread else f } : State).setCtx c
      { t.ctx c with ahead := [] }) t))
/-- FMTGET (R392). -/
def execFmtget (d a : Nat) (s : State) : Host.Outcome State Fault Refusal :=
  word { d := wr .x d, dd := true, other := 2, deck := false, svc := false } s fun o t =>
    retX t t.cur o d (t.fdOf t.cur.core a)

end Sys2Proof.Machine
end

