-- ==== Sys2Proof/Machine/Save.lean ====
section
/-! DEFINITION. Core saves and restores (09_system R226, 23_faults_system R456): what is copied, and how one ends. -/

namespace Sys2Proof.Machine

/-- A page of the save area as the partition's system space maps it. DESIGN CHOICE: the manual names no space. -/
def State.savePage (s : State) (k va : Nat) (wr : Bool) : Option (State × Nat) :=
  match s.partition (k / 512) with
  | none => none
  | some p => match s.engineWalk (s.sysAsid p) va wr with
    | .error _ => none
    | .ok (t, e) => some (t, e.addr va)
/-- Items of a core beside pool and crown slice: offset from 0x8_0000, bytes, value (R226). DESIGN CHOICE: `bdom`, `sstep`,
memberships and arrivals are four doublewords in that order. -/
def State.saveItems (s : State) (u : CoreId) : List (Nat × Nat × Nat) :=
  let k := s.core u
  let arrived := match s.launchOf u with
    | none => 0
    | some l => l.barriers.foldl (fun m b => if b.2.cores.any (·.1 == u) then m ||| 2 ^ b.1 else m) 0
  let fifo (base : Nat) (l : List LinkVal) := (upFrom 0 8).flatMap fun j =>
    let v := l.getD j {}
    [(base + 256 * j, 128, v.val.toNat), (base + 256 * j + 128, 2, v.tag.toNat)]
  let dws (base n : Nat) (l : List Nat) : List (Nat × Nat × Nat) := (upFrom 0 n).map fun j => (base + 8 * j, 8, l.getD j 0)
  (upFrom 0 16).map (fun j => (4 * j, 4, (Tab.get k.fd j 0).toNat)) ++
  (upFrom 0 4).map (fun j => (64 + 2 * j, 2, (Tab.get k.tiles j 0).toNat % 65536)) ++
  (upFrom 0 16).map (fun j => (72 + 2 * j, 2, (Tab.get k.crownTags j 0).toNat)) ++
  dws 256 4 [k.bdom, k.sstep.toNat, k.memb.toNat, arrived] ++
  (upFrom 0 11).flatMap (fun c => (upFrom 0 64).map fun j =>
    (512 + 512 * c + 8 * j, 8, (Tab.get (s.ctx ⟨u, c⟩).cp (512 + j) 0).toNat)) ++
  (upFrom 0 11).flatMap (fun c => dws (6144 + 512 * c) 64 (((s.ctx ⟨u, c⟩).resend.elim [] (·.words)))) ++
  fifo 12288 k.up ++ fifo 14336 k.down ++
  (upFrom 0 8).flatMap fun j =>
    let b := 16384 + 256 * j
    match k.mq[j]? with
    | none => dws b 32 []
    | some m => dws b 8 [m.word, m.xv, m.kb] ++ dws (b + 64) 8 m.h0 ++ dws (b + 128) 8 m.h1 ++
        (upFrom 0 16).map fun i => (b + 192 + 4 * i, 4, m.fds.getD i 0)
/-- The core as a restore sets it from the saved items; `g` reads one. -/
def Core.restored (k : Core) (g : Nat → Nat → Nat) : Core :=
  let fifo (base : Nat) (l : List LinkVal) := (l.zip (upFrom 0 l.length)).map fun e =>
    { e.1 with val := BitVec.ofNat 1024 (g (base + 256 * e.2) 128), tag := BitVec.ofNat 16 (g (base + 256 * e.2 + 128) 2) }
  let dws (b n : Nat) := (upFrom 0 n).map fun i => g (b + 8 * i) 8
  { k with
    fd := (upFrom 0 16).map fun j => (j, BitVec.ofNat 32 (g (4 * j) 4))
    tiles := (upFrom 0 4).map fun j => (j, BitVec.ofNat 20 ((Tab.get k.tiles j 0).toNat / 65536 * 65536 + g (64 + 2 * j) 2))
    crownTags := (upFrom 0 16).map fun j => (j, BitVec.ofNat 16 (g (72 + 2 * j) 2))
    bdom := g 256 8 % 64, sstep := Word.ofN (g 264 8), memb := BitVec.ofNat 64 (g 272 8)
    up := fifo 12288 k.up, down := fifo 14336 k.down
    mq := (k.mq.zip (upFrom 0 k.mq.length)).map fun e =>
      let b := 16384 + 256 * e.2
      { e.1 with word := g b 8, xv := g (b + 8) 8, kb := g (b + 16) 8,
                 h0 := if e.1.h0.isEmpty then [] else dws (b + 64) 8
                 h1 := if e.1.h1.isEmpty then [] else dws (b + 128) 8
                 fds := (upFrom 0 16).map fun i => g (b + 192 + 4 * i) 4 } }
/-- The arrivals that a restore brings back: bit d for the domain of its launch (R226). -/
def State.restoreArrivals (s : State) (u : CoreId) (m : Nat) : State :=
  match s.launchOf u with
  | none => s
  | some l =>
    let upd (d : Nat) (b : Barrier) : Barrier :=
      if bit m d then (if b.closedFor u then b else { b with cores := b.cores ++ [(u, s.cyc)], first := some (b.first.getD s.cyc) })
      else { b with cores := b.cores.filter (·.1 != u) }
    (setBits m 64).foldl (fun s d => match s.launch l.id with
      | some l => s.tryRelease l d
      | none => s)
      (s.setLaunch { l with barriers := (setBits m 64).foldl (fun bs d => Tab.set bs d (upd d (Tab.get bs d {})))
                                          (l.barriers.map fun e => (e.1, upd e.1 e.2)) })
/-- A range of bytes copied to another place, with what a write of it sets off: the source's
poison is the destination's, whose units need not be of one size (R429, R456). -/
def State.bulkCopy (s : State) (src dst n : Nat) : State :=
  let inSrc (k : Nat) : Bool := decide (src ≤ k) && decide (k < src + n)
  let inDst (k : Nat) : Bool := decide (dst ≤ k) && decide (k < dst + n)
  let seg := s.mem.filter fun e => inSrc e.1
  let m := seg.foldl (fun m e => Mem.set m (e.1 - src + dst) e.2) (s.mem.filter fun e => !inDst e.1)
  let units (u : Nat) : List Nat := if isDevice u then (upFrom 0 8).map fun i => u + 8 * i else [u]
  let psn := (((s.poison.flatMap units).filter inSrc).map fun u => poisonUnit (u - src + dst)).eraseDups
  let s := ({ s with mem := m, poison := s.poison.filter (fun u => !inDst u) ++ psn,
                     marks := s.marks.filter fun u => !inDst u } : State).fireWatch dst n (2 ^ n - 1)
  if isDevice dst then
    let t := (upFrom 0 ((n + 16383) / 16384)).foldl (fun t j => t.stamp (dst + 16384 * j) (min 16384 (n - 16384 * j))) s
    (t.overtake dst n (2 ^ n - 1) none).counterWrite dst n none
  else s
/-- The places of a core's nine pages of the save area, or none when one of them cannot be reached. -/
def State.savePages (s : State) (k base : Nat) (wr : Bool) : List Nat → Option (State × List Nat)
  | [] => some (s, [])
  | j :: js => match s.savePage k (base + 65536 * j) wr with
    | none => none
    | some (t, p) => match State.savePages t k base wr js with
      | none => none
      | some (t, ps) => some (t, p :: ps)
/-- What the incoming launch's footprint meets of a saved launch's (R226, R213): pool bytes, the crown weight slice. -/
structure Meets where
  pool : Bool
  crown : Bool
/-- Does it meet anything? -/
def Meets.some_ (m : Meets) : Bool := m.pool || m.crown
/-- Ranges of a core that a save copies: key and offset in the save area, in pieces of one 64 KB page. -/
def State.saveRanges (s : State) (u : CoreId) (m : Meets) : List (Nat × Nat × Nat) :=
  if u.kind = .deck then [(deckKey u 0, 0, 65536)] else
  let cut (r : Nat × Nat) := (upFrom 0 4).filterMap fun j =>
    let lo := max r.1 (65536 * j)
    let hi := min r.2 (65536 * j + 65536)
    if lo < hi then some (poolKey u lo, lo, hi - lo) else none
  (if m.pool then (s.coreFoot u).flatMap cut else []) ++
    if m.crown then (upFrom 0 4).map (fun j => (crownKey u (65536 * j), 262144 + 65536 * j, 65536)) else []
/-- Copy one core's items out or in. The result tells whether a poisoned unit was copied. -/
def State.saveCore (s : State) (u : CoreId) (pages : List Nat) (m : Meets) (out : Bool) : State × Bool :=
  let at_ (o : Nat) := pages.getD (o / 65536) 0 + o % 65536
  let rs := s.saveRanges u m
  let bad := (rs.any fun r => (s.poisoned (if out then r.1 else at_ r.2.1) r.2.2).isSome) ||
    (!out && (s.saveItems u).any fun i => (s.poisoned (at_ (524288 + i.1)) i.2.1).isSome)
  let s := rs.foldl (fun s r => if out then s.bulkCopy r.1 (at_ r.2.1) r.2.2 else s.bulkCopy (at_ r.2.1) r.1 r.2.2) s
  if out then ((s.saveItems u).foldl (fun s i => s.wrMem (at_ (524288 + i.1)) i.2.1 i.2.2 (2 ^ i.2.1 - 1) none) s, bad)
  else
    let g (o n : Nat) := s.rdMem (at_ (524288 + o)) n
    let s := (s.setCore u ((s.core u).restored g)).restoreArrivals u (g 280 8)
    let s := u.ctxs.foldl (fun s c =>
      let x := s.ctx c
      let words (p : Packet) : Packet := { p with words := (upFrom 0 p.words.length).map fun j => g (6144 + 512 * c.k + 8 * j) 8 }
      let y := (upFrom 0 64).foldl (fun y j => y.csrPut u.kind (512 + j) (g (512 + 512 * c.k + 8 * j) 8)) x
      s.setCtx c { y with resend := x.resend.map words }) s
    (s, bad)

/-- The launches that wait to be placed on a cluster (R215, R226): the plan, the units their footprint may take, and the command. One that
holds a placement with it has its unit; another may have a rectangle with it. -/
def State.awaited (s : State) (k : Nat) : List (Plan × List Nat × Nat × Cmd) :=
  (upFrom 0 8).filterMap fun p => match (s.pylon p).placing with
    | none => none
    | some pl =>
      let has (ox oy : Nat) : Bool := (rectClusters pl.plan.pyls ox oy pl.plan.extW pl.plan.extH).contains k
      if pl.reads ≠ 0 then none
      else match s.launch pl.lid with
        | some l => if has l.orgX l.orgY then some (pl.plan, [l.unit], p, pl.cmd) else none
        | none => if pl.plan.origins.any fun o => has o.1 o.2 then some (pl.plan, upFrom 0 (5 - pl.plan.fp), p, pl.cmd) else none
/-- The incoming launch of a save: one of those that wait, by a free value (notes/assumptions/28). -/
def State.incomingAt (s : State) (k : Nat) : Option (Plan × List Nat × Nat × Cmd) :=
  (s.awaited k)[Config.outcome s.free % (s.awaited k).length]?
/-- What the footprint of the incoming launch meets of the one on a core, at every unit that it may take (R213, R226). Whether firmware
expects one that meets it when no launch waits is free (notes/assumptions/28). -/
def State.saveMeets (s : State) (k : Nat) (u : CoreId) : Meets :=
  match s.incomingAt k with
  | none => { pool := (s.core u).lid != 0 && Config.outcome s.free % 2 == 1, crown := (s.core u).crn && Config.outcome s.free / 2 % 2 == 1 }
  | some (p, us, _) =>
    { pool := us.all fun i => footMeet (s.coreFoot u) (footprintOf p.pw p.fp p.slim i), crown := (s.core u).crn && p.crn }
/-- A save or restore ends: busy reads 0 and SST has the result (R226, R456). -/
def State.saveEnd (s : State) (k sst : Nat) : State :=
  ((s.setCluster k { s.cluster k with saving := none }).setCtl (saveWord k + 16) 0).setCtl (saveWord k + 24) sst
/-- The launches that a failed save leaves without their place are refused with SPACE (R456): their commands are marked. -/
def State.saveFailed (s : State) (k sst : Nat) : State :=
  (s.awaited k).foldl (fun s e => s.after 0 .placementWaitExpiry { ns := [e.2.2.1, e.2.2.2.seq, 22, k] }) (s.saveEnd k sst)
/-- The core as the launch that a restore brings back left it: the one put aside, or the core's own. -/
def State.savedCore (s : State) (u : CoreId) : Core := ((s.away.find? (·.1 == u)).map (·.2.1)).getD (s.core u)
/-- Is a restore of a core's saved launch over a footprint that the launch running there holds (R456)? -/
def State.footHeld (s : State) (u : CoreId) : Bool :=
  let saved := s.savedCore u
  (u.ctxs.any fun c => (s.ctx c).live && (s.ctx c).st != .stopped) &&
    (footMeet (s.coreFoot u) (s.footOf saved) || ((s.core u).crn && saved.crn))
/-- The state of a core that a restore brings back, when another launch has taken its turn since (R215). -/
def State.swapIn (s : State) (u : CoreId) : State :=
  match s.away.find? (·.1 == u) with
  | none => s
  | some e =>
    let now := (u, s.core u, u.ctxs.map (s.ctx ·))
    let live := u.ctxs.any fun c => (s.ctx c).live
    let rest := s.away.erase e
    let s : State := { s with away := if live then rest ++ [now] else rest }
    (u.ctxs.zip e.2.2).foldl (fun s p => s.setCtx p.1 p.2) (s.setCore u e.2.1)

/-- Every core of a list copied out or in, with a cluster's save area; none when a page of it cannot be reached. -/
def State.copyCores (s : State) (k : Nat) (m : Meets) (out : Bool) : List (CoreId × Nat) → Option (State × Bool)
  | [] => some (s, false)
  | (u, j) :: us => match s.savePages k (s.ctl (saveWord k + 8) + 589824 * j) out (upFrom 0 9) with
    | none => none
    | some (t, ps) =>
      let (t, bad) := t.saveCore u ps m out
      (t.copyCores k m out us).map fun r => (r.1, bad || r.2)
/-- CORE_SAVE_DONE (R226, R456): the items are copied once every context is Stopped, and the status is written. A deck core's own
launch state goes behind those of the span cores when its firmware has stopped its contexts; a restore waits while contexts of a launch
whose footprint the saved one does not meet run on its cores (notes/assumptions/28). -/
def execCoreSaveDone (s : State) : Host.Outcome State Fault Refusal :=
  let k := s.n 0
  match (s.cluster k).saving with
  | none => done s
  | some began =>
    let us := clusterCores k
    let dk := clusterDeck k
    let free_ (c : CtxId) : Bool := let x := s.ctx c; x.st == .free || x.st == .stopped || x.halting
    let running (c : CtxId) : Bool := let x := s.ctx c; x.live && x.st != .stopped
    let copyAll (s : State) (m : Meets) (deck out : Bool) : State :=
      match s.copyCores k m out ((us ++ if deck then [dk] else []).zip (upFrom 0 5)) with
      | none => s.saveFailed k 1
      | some (t, bad) =>
        (t.setCluster k { t.cluster k with copied := m.some_, copiedPool := m.pool, copiedCrown := m.crown, copiedDeck := deck }).saveEnd k
          (if bad then 2 else 0)
    if s.n 1 = 1 then
      let s : State := { s with free := s.free + 1 }
      if !(us.all fun u => u.ctxs.all free_) then
        if began + 65536 ≤ s.cyc then done (s.saveFailed k 4) else done (s.after 1 .coreSaveDone s.arg)
      else
        let ms := us.map (s.saveMeets k)
        let m : Meets := { pool := ms.any (·.pool), crown := ms.any (·.crown) }
        if m.some_ then done (copyAll s m (dk.ctxs.all free_ && (s.core dk).lid != 0) true)
        else done ((s.setCluster k { s.cluster k with copied := false, copiedPool := false, copiedCrown := false, copiedDeck := false }).saveEnd k 0)
    else if us.any s.footHeld then done (s.saveFailed k 3)
    else if us.any fun u => u.ctxs.any running then done (s.after 1 .coreSaveDone s.arg)
    else
      let cl := s.cluster k
      let t := (us ++ if dk.ctxs.any running then [] else [dk]).foldl (fun s u => s.swapIn u) s
      if cl.copied then done (copyAll t { pool := cl.copiedPool, crown := cl.copiedCrown } (cl.copiedDeck && dk.ctxs.all free_ && (s.core dk).lid != 0) false)
      else done (t.saveEnd k 0)

end Sys2Proof.Machine
end

