-- ==== Sys2Proof/Machine/Views.lean ====
section
/-! DEFINITION. The view engine and the VIEW words (07_views R183 to R204; 15_isa_engines R389; 22_faults_memory R439 to R441;
23_faults_system R466). -/

namespace Sys2Proof.Machine

/-! ### Masters and tags -/

/-- A master replaced in its engine. -/
def State.setMaster (s : State) (m : Master) : State :=
  let p := m.mid / 256 % 8
  let y := s.pylon p
  s.setPylon p { y with masters := y.masters.map fun k => if k.mid = m.mid then m else k }
/-- A view replaced in its master. -/
def Master.setView (m : Master) (w : View) : Master := { m with views := m.views.map fun v => if v.num = w.num then w else v }
/-- Is a view's shard in a peer module at an address (R186)? -/
def isFar (va : Nat) : Bool := decide (bits va 63 60 = 8)
/-- The tag of a view for master block b: at its home, or as the engine last wrote it to a peer module (R195). -/
def State.tagOf (s : State) (m : Master) (w : View) (b : Nat) : Nat :=
  let (bi, bj) := w.ofMaster m b
  if isFar (w.tagAt m bi bj) then Tab.get w.farTags b 0
  else (w.paOf (w.tagAt m bi bj)).elim 0 fun k => s.rdMem k 8
/-- Write the tag of view num of master mid for block b; reads that wait on a tag look again (R195, R196). A peer's tag is what its
module has acknowledged, or FAULTED. -/
def State.putTag (s : State) (mid num b v : Nat) : State :=
  match s.master mid with
  | none => s
  | some m => match m.views.find? (·.num == num) with
    | none => s
    | some w =>
      let (bi, bj) := w.ofMaster m b
      if isFar (w.tagAt m bi bj) then s.setMaster (m.setView { w with farTags := Tab.set w.farTags b v })
      else match w.paOf (w.tagAt m bi bj) with
        | none => s
        | some k => (s.wrPlain k 8 v 255 none).viewWake
/-- Does a peer acknowledge the stores of the engine to its memory (R186, R234)? Whether and when it does is the peer's to say; here
it is free. -/
def State.peerTakes (s : State) (va : Nat) : State × Bool :=
  if isFar va then ({ s with free := s.free + 1 }, s.carried (peerOf va) && Config.outcome s.free % 2 == 0) else (s, true)
/-- Cycles until it does. -/
def State.peerTime (s : State) (va : Nat) : Nat := if isFar va then Config.outcome s.free else 0
/-- Mark blocks of a master dirty; of each that was clean the engine has notice 130 cycles later (R191, R466). -/
def State.markDirty (s : State) (mid : Nat) (bs : List Nat) : State :=
  match s.master mid with
  | none => s
  | some m =>
    let new := bs.filter fun b => !m.dirty.contains b
    new.foldl (fun s b => s.after 130 .dirtyNotice { ns := [mid, b] }) (s.setMaster { m with dirty := m.dirty ++ new })

/-! ### Refresh (R192 to R194, R203, R204, R439) -/

/-- Cycles that the engine's share of the channels takes to move bytes (R204): 102.4 GB/s × VSH / 256 for each home. -/
def State.shareTime (s : State) (ps : List (Nat × Nat)) : Nat :=
  let rate := 8 * max 1 (s.ctl 117440528)
  let of (h : Nat) := (ps.filter fun p => homeOf p.1 == h).foldl (fun n p => n + p.2) 0
  ps.foldl (fun t p => max t ((21 * of (homeOf p.1) + rate - 1) / rate)) 1
/-- The value of element (r, c) of a view's block, from the bytes of its master block (R188). -/
def viewElem (m : Master) (w : View) (data r c : Nat) : Val :=
  (slotOf (fun _ => 0) m.slot).decode (lane data (8 * m.ms) (if w.lay = 1 then c * 128 + r else r * 128 + c))
/-- Row r of a view's block. -/
def viewRowVals (m : Master) (w : View) (data r : Nat) : List Val := (upFrom 0 128).map (viewElem m w data r)
/-- The scale codes of a view's block in their order (R188, R194): by strip, one, or by 32 elements. -/
def viewScales (m : Master) (w : View) (data : Nat) : List Nat :=
  match slotOf (fun k => w.fd.getD k 0) w.slot with
  | .narrow f =>
    let row (r : Nat) := viewRowVals m w data r
    match w.geo with
    | 0 => (upFrom 0 128).map fun r => scaleCode f (row r)
    | 1 => [scaleCode f ((upFrom 0 128).flatMap row)]
    | _ => (upFrom 0 128).flatMap fun r => (upFrom 0 4).map fun g => scaleCode f (((row r).drop (32 * g)).take 32)
  | _ => []
/-- The codes of row r of a view's block (R194): R42 under the scales, or R34 with rne. -/
def viewRowCodes (m : Master) (w : View) (data : Nat) (scales : List Nat) (r : Nat) : List Nat :=
  let sc (c : Nat) := scales.getD (if w.geo = 0 then r else if w.geo = 1 then 0 else 4 * r + c / 32) 127
  let k := slotOf (fun k => w.fd.getD k 0) w.slot
  ((viewRowVals m w data r).zip (upFrom 0 128)).map fun e =>
    match k with
    | .narrow f => (quantise f (sc e.2) e.1).1
    | k => (k.round .rne e.1).1
/-- The element rows of a view's block: address, bytes, contents. -/
def viewRows (m : Master) (w : View) (b data : Nat) : List (Nat × Nat × Nat) :=
  let (bi, bj) := w.ofMaster m b
  let sc := viewScales m w data
  (upFrom 0 128).map fun r =>
    (w.elem m bi bj r 0, w.bytes 128, packCodes (fun k => w.fd.getD k 0) w.slot (viewRowCodes m w data sc r))
/-- The scales of a view's block likewise. -/
def viewScaleBytes (m : Master) (w : View) (b data : Nat) : List (Nat × Nat × Nat) :=
  let (bi, bj) := w.ofMaster m b
  if w.scaled then [(w.scaleAt m bi bj, w.scaleBytes, ofLanes 8 (viewScales m w data))] else []

/-- The pieces that ranges of a view's memory occupy, or the DETAIL of R439. -/
def State.viewPieces (s : State) (asid : Nat) : List (Nat × Nat × Nat) → Except Nat (State × List (List (Nat × Nat)))
  | [] => .ok (s, [])
  | (va, n, _) :: rest => do
    let (s, ps) ← (s.engPieces ⟨⟨.service, 0, 0, 0⟩, 0⟩ asid va n true [0, 8]).mapError fun | .perm => 2 | .hole => 3 | _ => 1
    let (s, qs) ← State.viewPieces s asid rest
    pure (s, ps :: qs)
/-- Write ranges of a view's memory, or the DETAIL of R439: 4 poison that a write does not cover, 5 a peer that does not
acknowledge, which is the peer's to say. A refresh is no write that counts for a master (R190). -/
def State.viewWrite (s : State) (asid : Nat) (l : List (Nat × Nat × Nat)) : Except Nat State := do
  let (s, qs) ← s.viewPieces asid l
  let all := qs.flatMap id
  if all.any fun p => !isPeer p.1 && s.poisonLeft p.1 p.2 then throw 4
  let (s, ok) := match all.find? fun p => isPeer p.1 with
    | some p => s.peerTakes p.1
    | none => (s, true)
  if !ok then throw 5
  let put (r : State × Nat) (p : Nat × Nat) : State × Nat :=
    (if isPeer p.1 then r.1 else r.1.wrPlain p.1 p.2 (r.2 % 256 ^ p.2) (2 ^ p.2 - 1) none, r.2 / 256 ^ p.2)
  pure ((qs.zip l).foldl (fun s e => (e.1.foldl put (s, e.2.2.2)).1) s)

/-- The master that the engine of pylon p serves next, and its block (R192). -/
def State.nextRefresh (s : State) (p : Nat) : Option (Nat × Nat) :=
  let y := s.pylon p
  let due (m : Master) := m.dirty.filter m.noticed.contains
  let able := y.masters.filter fun m => m.live && !(due m).isEmpty && m.views.any (·.live)
  let least (l : List Master) := l.foldl (fun b m => match b with
    | none => some m
    | some k => if m.mid < k.mid then some m else some k) none
  ((least (able.filter fun m => decide (y.nextMid ≤ m.mid))).orElse fun _ => least able).map fun m =>
    (m.mid, (due m).foldl min ((due m).headD 0))
/-- Is the engine of pylon p at work on a refresh? -/
def State.refreshing (s : State) (p : Nat) : Bool := s.agenda.any fun e => e.2.1 == .viewBlockRefresh && e.2.2.ns.headD 0 == p
/-- Clear dirty and take the stamp, in one access at the stamp home (R193). -/
def State.takeDirty (s : State) (m : Master) (b : Nat) : State :=
  s.setMaster { m with dirty := m.dirty.filter (· != b), noticed := m.noticed.filter (· != b) }
/-- The homes of a block hold new writes to it (R193). -/
def State.holdBlock (s : State) (mid b : Nat) : State :=
  match s.master mid with
  | some m => s.setMaster { m with hold := some b }
  | none => s
/-- The bytes of a master block, and a poisoned unit of them. -/
def State.masterBytes (s : State) (m : Master) (b : Nat) : Nat × Option Nat :=
  let g := m.granules b
  (g.foldr (fun p v => s.rdMem p.1 p.2 + 256 ^ p.2 * v) 0, s.poisonIn g)
/-- The refresh of one view block fails (R439): its tag, the view fault log, and on to the next view. -/
def State.refreshFail (s : State) (m : Master) (w : View) (b det : Nat) : State :=
  let t := s.tagOf m w b
  let t := t - (if bit t 24 then 16777216 else 0) + (if bit t 23 then 0 else 8388608)
  let (bi, bj) := w.ofMaster m b
  (s.putTag m.mid w.num b t).faultLog (m.mid / 256) 38 det true (homeOf (m.blockPa b)) (viewVal m.mid w.num (bi * w.nbc m + bj)) (m.stamp b)

/-- The engine's store of a tag: one that a peer does not acknowledge makes the block FAULTED (R189, R439). -/
def State.storeTag (s : State) (m : Master) (w : View) (b v : Nat) : State × Bool :=
  let (bi, bj) := w.ofMaster m b
  let (s, ok) := s.peerTakes (w.tagAt m bi bj)
  if ok then (s.putTag m.mid w.num b v, true) else (s.refreshFail m w b 5, false)
/-- DIRTY_NOTICE (R191, R466): the engine of the master's pylon knows of a dirty block, and begins unless it is at work. -/
def execDirtyNotice (s : State) : Host.Outcome State Fault Refusal :=
  match s.master (s.n 0) with
  | none => done s
  | some m =>
    let b := s.n 1
    let p := m.mid / 256 % 8
    let s := if m.dirty.contains b && !m.noticed.contains b then s.setMaster { m with noticed := m.noticed ++ [b] } else s
    done (if s.refreshing p then s else s.after 0 .viewBlockRefresh { ns := [p] })

/-- A phase of a refresh after the pick, of a master that exists: 1 the stamp is taken, 2 the read of the block ends, and is
taken again when the stamp has moved; for the fifth read the homes hold new writes, which proceed at its end; 3 the next view: it is
skipped, or its tag made busy; 4 its elements, 5 its scales, 6 its tag are written. -/
def State.refreshPhase (s : State) (m : Master) : State :=
  let p := s.n 0
  let b := s.n 3
  let st := s.n 4
  let k := s.n 5
  let data := s.n 6
  let views := s.arg.ns.drop 7
  let go (s : State) (n phase st k data : Nat) (vs : List Nat) : State := s.after n .viewBlockRefresh (viewStep p phase m.mid b st k data vs)
  let read := 260 + s.shareTime (m.granules b)
  let next (s : State) := go s 0 3 st k data (views.drop 1)
  match s.n 1 with
  | 1 => go (s.takeDirty m b) read 2 (m.stamp b) 0 0 []
  | 2 =>
    let live := (m.views.filter (·.live)).map (·.num)
    let (d, bad) := s.masterBytes m b
    let poison := if bad.isSome then 1 else 0
    let s := bad.elim s s.countPoison
    if m.stamp b = st ∨ k = 4 then go (s.letWrites m.mid) 130 3 st poison d live
    else
      let s := s.takeDirty m b
      go (if k = 3 then s.holdBlock m.mid b else s) read 2 (m.stamp b) (k + 1) 0 []
  | _ =>
    match views with
    | [] => s.after 0 .viewBlockRefresh { ns := [p] }
    | n :: _ =>
      match m.view n with
      | none => next s
      | some w =>
        let (bi, bj) := w.ofMaster m b
        let t := s.tagOf m w b
        let fail (s : State) (det : Nat) := next (s.refreshFail m w b det)
        match s.n 1 with
        | 3 =>
          if bit t 22 && !bit t 23 && bits t 63 32 == st then next s
          else if k = 1 then fail s 6
          else match (w.paOf (w.tagAt m bi bj)).bind fun q => s.poisoned q 8 with
          | some u => fail (s.countPoison u) 4
          | none => match s.viewPieces w.asid (viewRows m w b data ++ viewScaleBytes m w b data) with
            | .error det => fail s det
            | .ok (s, qs) => match s.storeTag m w b (t ||| 16777216) with
              | (s, true) => go s (s.shareTime ((qs.take 128).flatMap id) + s.peerTime (w.elem m bi bj 0 0)) 4 st k data views
              | (s, false) => next s
        | 4 => match s.viewWrite w.asid (viewRows m w b data) with
          | .error det => fail s det
          | .ok s => go s (s.shareTime ((w.paOf (w.scaleAt m bi bj)).elim [] fun q => [(q, w.scaleBytes)]) + s.peerTime (w.scaleAt m bi bj)) 5
              st k data views
        | 5 => match s.viewWrite w.asid (viewScaleBytes m w b data) with
          | .error det => fail s det
          | .ok s => go s 1 6 st k data views
        | _ => next (s.storeTag m w b (tagWord st false false true w.pol n m.mid)).1

/-- VIEW_BLOCK_REFRESH (R192, R193): the engine of pylon p picks a dirty block, or takes the next phase of its refresh;
its accesses are ordered with those of others (R399). -/
def execViewBlockRefresh (s : State) : Host.Outcome State Fault Refusal :=
  let p := s.n 0
  if s.n 1 = 0 then
    match s.nextRefresh p with
    | none => done s
    | some (mid, b) =>
      done ((s.setPylon p { s.pylon p with nextMid := mid + 1 }).after 130 .viewBlockRefresh (viewStep p 1 mid b 0 0 0 []))
  else match s.master (s.n 2) with
    | some m =>
      let ks := s.viewKeys s.arg
      if ks.any fun k => s.yields (viewAgent p) k none then done (s.after 0 .viewBlockRefresh s.arg)
      else done ((ks.foldl (fun s k => s.arbitrate (viewAgent p) k none) s).refreshPhase m)
    | none => done (s.after 0 .viewBlockRefresh { ns := [p] })
/-- Is a refresh of a view in flight: from its busy tag to its last (R202)? -/
def State.viewInFlight (s : State) (mid num : Nat) : Bool :=
  s.agenda.any fun e => e.2.1 == .viewBlockRefresh && decide (4 ≤ e.2.2.ns.getD 1 0) && e.2.2.ns.getD 2 0 == mid && e.2.2.ns.getD 7 8 == num

/-! ### Registration (R184 to R189, R405, R418) -/

/-- A VIEW_FAULT of a registration: the manual gives `tval` as the view identifier, and there is none. -/
def viewReject {α : Type} (s : State) (det : Nat) : Chk α :=
  throw (.late { s with free := s.free + 1 } { cause := 38, detail := det, val := Config.outcome s.free })
/-- Reserved values and fields of the registration block (R185). -/
def regReserved (w : Nat → Nat) : Bool :=
  let g := w 2
  bits g 63 32 != 0 || bits g 27 26 != 0 || bits g 23 22 != 0 || bits g 19 18 != 0 || bits g 15 13 != 0 || bits g 7 5 != 0 ||
  bits g 25 24 == 3 || bits g 21 20 == 3 || bits g 17 16 == 3 || !(decide (24 ≤ bits g 4 0) && decide (bits g 4 0 ≤ 26)) ||
  bits (w 0) 63 48 != 0 || bits (w 3) 63 48 != 0 || w 3 % 32 != 0 || w 4 != 0 || w 5 != 0 || w 6 != 0 || w 7 != 0
/-- A dimension of a master (R183). -/
def dimBad (n : Nat) : Bool := n % 128 != 0 || decide (n < 128) || decide (65536 < n)
/-- Do format and geometry go together (R187)? -/
def viewFmtOk (fd : Nat → Nat) (slot geo : Nat) : Bool :=
  if 24 ≤ slot ∧ slot ≤ 26 then geo == 0
  else decide (slot ≤ 22) && (decide (16 ≤ slot) || descValid (fd slot)) && narrowOk fd slot && (geo != 2 || [16, 18, 19, 20, 21, 22].contains slot)
/-- The shard that 32 bytes of the list give; none when a field is reserved (R186). -/
def shardOf (scaled : Bool) (e : List Nat) : Option Shard :=
  let v (i : Nat) := e.getD i 0
  let far (a : Nat) := !(bits a 63 48 == 0 || bits a 63 56 == 128)
  if far (v 0) || (scaled && far (v 1)) || far (v 2) || v 2 % 8 != 0 || v 3 != 0 then none else some ⟨v 0, v 1, v 2⟩
/-- An engine's translation of an address for the word in issue: precise XLATE or ACCESS with the address. -/
def State.viewWalk (s : State) (asid va : Nat) (wr : Bool) : Chk (State × Tlb) :=
  if 281474976710656 ≤ va then trap 17 4 va
  else match s.engineWalk asid va wr with
    | .error (c, d) => trap c d va
    | .ok r => .ok r
/-- The pages of a range of a view's memory in this module, which need V and W (R189). -/
def State.viewPages (s : State) (asid va n : Nat) (have_ : List (Nat × Nat)) : Chk (State × List (Nat × Nat)) :=
  if n = 0 ∨ isFar va then .ok (s, have_)
  else (upFrom (va / 65536) ((va + n - 1) / 65536 - va / 65536 + 1)).foldlM (fun r p =>
    if r.2.any (·.1 == p) then pure r
    else do
      let (t, e) ← r.1.viewWalk asid (max va (p * 65536)) true
      pure (t, r.2 ++ [(p, e.addr (p * 65536) / 65536)])) (s, have_)
/-- Every page of a view's shards. -/
def State.shardPages (s : State) (asid : Nat) (m : Master) (w : View) : Chk (State × List (Nat × Nat)) :=
  (w.shards.zip (upFrom 0 16)).foldlM (fun r e => do
    let k := w.shardBlocks m e.2
    let (t, l) ← r.1.viewPages asid e.1.ebase (k * w.bytes 16384) r.2
    let (t, l) ← t.viewPages asid e.1.sbase (k * w.scaleBytes) l
    t.viewPages asid e.1.tbase (k * 8) l) (s, [])
/-- The granules of a master; VIEW_FAULT 4 for a page without VSRC (R183). -/
def State.masterPages (s : State) (asid base n : Nat) : Chk (State × List Nat) :=
  (upFrom 0 (n / 16384)).foldlM (fun r i => do
    let (t, e) ← r.1.viewWalk asid (base + 16384 * i) false
    if !e.vsrc then viewReject s 4
    pure (t, r.2 ++ [e.addr (base + 16384 * i)])) (s, [])
/-- Shard n of the list at an address, for a word that was issued in state s, read once the release covers have been performed (R186). -/
def readShard (s : State) (c : CtxId) (asid base : Nat) (scaled : Bool) (r : State × List Shard) (n : Nat) : Chk (State × List Shard) := do
  let va := base + 32 * n
  let (t, e) ← r.1.viewWalk asid va false
  match t.poisoned (e.addr va) 32 with
  | some u => throw (.quit (t.pendAsync c (eccTrap (va + (u - e.addr va)) 0 0)))
  | none => pure ()
  match shardOf scaled ((upFrom 0 4).map fun i => t.rdMem (e.addr va + 8 * i) 8) with
  | none => viewReject s 1
  | some h => pure (t, r.2 ++ [h])
/-- The lowest number below lim that a list does not hold. -/
def lowestFree (lim : Nat) (l : List Nat) : Option Nat := (upFrom 0 lim).find? fun n => !l.contains n
/-- The master that a registration names, or the one it creates in the engine of pylon p, without its granules (R184, R405). The MID is the
lowest index that is free, and ranges overlap by virtual address in one address space (notes/assumptions/86). -/
def State.regMaster (s : State) (p asid base rows cols slot : Nat) : Chk (Master × Bool) :=
  let all := s.pylons.flatMap (·.2.masters)
  let size (m : Master) := m.rows * m.cols * m.ms
  match all.find? fun m => m.asid == asid && m.base == base with
  | some m =>
    if m.views.length ≥ 8 then viewReject s 5
    else if m.rows ≠ rows ∨ m.cols ≠ cols ∨ m.slot ≠ slot then viewReject s 7
    else .ok (m, false)
  | none =>
    let mine := ((s.pylon p).masters.map fun m => m.mid % 256)
    match lowestFree 256 mine with
    | none => viewReject s 6
    | some i =>
      let m : Master := { mid := p * 256 + i, base := base, pa := [], rows := rows, cols := cols, slot := slot, asid := asid }
      if all.any fun k => k.asid == asid && decide (k.base < base + size m) && decide (base < k.base + size k) then viewReject s 7
      else .ok (m, true)

/-- A request of a VIEW word to the engine (R389, R466): function, number of the wait, phase, master, view, argument, and what is
performed first. -/
def State.viewAsk (s : State) (c : CtxId) (f mid view arg : Nat) (ids : List Nat) : State :=
  s.after 130 .viewRequestArrival { ctx := c, ns := [f, (s.ctx c).waitNo, 0, mid, view, arg] ++ ids }

/-- VWREG (R389, R185 to R189): every check at issue, the shard list read once the release covers have been performed; the master,
the view and their numbers are held from then on. -/
def execVwreg (d a : Nat) (s : State) : Host.Outcome State Fault Refusal :=
  word { rr d a with scope := true, svc := false } s fun o t => do
    let c := t.cur
    let asid := t.spaceOf c
    let ws ← t.ownWords c o.a 64
    let w (i : Nat) := ws.getD i 0
    let g := w 2
    let slot := bits g 4 0
    let rows := bits (w 1) 31 0
    let cols := bits (w 1) 63 32
    let ms := if slot = 26 then 4 else 2
    if regReserved w then viewReject s 1
    if dimBad rows ∨ dimBad cols ∨ w 0 % (16384 * ms) ≠ 0 then viewReject s 2
    if !viewFmtOk (t.fdOf c.core) (bits g 12 8) (bits g 17 16) then viewReject s 3
    let (m, new) ← t.regMaster c.core.pyl asid (w 0) rows cols slot
    t.sfuAim c o.m.dst 0 t.cyc false
    if (t.ctx c).timed.isSome then throw (.retry .view)
    awaitIds (o.engines t c)
    let (t, pa) ← if new then t.masterPages asid (w 0) (rows * cols * ms) else pure (t, m.pa)
    let m := { m with pa := pa }
    let v : View := { num := (lowestFree 8 (m.views.map (·.num))).getD 0, pol := bits g 25 24, lay := bits g 21 20, geo := bits g 17 16,
                      slot := bits g 12 8, fd := t.fdList c.core, shards := [], asid := asid }
    let (t, shards) ← (upFrom 0 (bits g 31 28 + 1)).foldlM (readShard s c asid (w 3) v.scaled) (t, [])
    let v := { v with shards := shards }
    let (t, pages) ← t.shardPages asid m v
    let m := { m with views := m.views ++ [{ v with pages := pages }] }
    let p := m.mid / 256
    let t := if new then t.setPylon p { t.pylon p with masters := (t.pylon p).masters ++ [m] } else t.setMaster m
    let t := t.sleep c .view
    pure (.left (t.viewAsk c 0 m.mid v.num 0 []))

/-- The view that an identifier names: VIEW_FAULT 8 when none is registered (R389, R418). -/
def State.namedView (s : State) (x : Nat) : Chk (Master × View) :=
  if x / 2097152 ≠ 0 ∨ bits x 20 19 ≠ 2 ∨ bits x 15 11 ≠ 0 then trap 38 8 x
  else match s.master (x % 65536) with
    | none => trap 38 8 x
    | some m => match m.view (bits x 18 16) with
      | none => trap 38 8 x
      | some w => .ok (m, w)
/-- A VIEW word that waits for its answer, with what is performed first. -/
def viewWord (f a : Nat) (b : Option Nat) (first : Opnds → State → CtxId → List Nat) (s : State) : Host.Outcome State Fault Refusal :=
  word { a := rd .x a, da := true, b := b.bind fun r => rd .x r, db := b.isSome, scope := true, svc := false } s fun o t => do
    let c := t.cur
    if b.isSome ∧ o.b % 4 = 3 then trap 1 0 (o.b % 4) 4
    let (m, w) ← t.namedView o.a
    if (t.ctx c).timed.isSome then throw (.retry .view)
    let t := t.sleep c .view
    pure (.left (t.viewAsk c f m.mid w.num (o.b % 4) (first o t c)))
/-- VWDEL (R389, R202). -/
def execVwdel (a : Nat) (s : State) : Host.Outcome State Fault Refusal := viewWord 1 a none Opnds.engines s
/-- What VWSYNC waits for (R201): every earlier eager store, peer store, anchored store, atomic and drain of the context. -/
def State.syncIds (s : State) (c : CtxId) : List Nat :=
  (s.flight.filter fun f => f.ctx == c && !f.performed && f.act != .load && (f.ordered || f.kind == .s)).map (·.id) ++
  ((s.core c.core).mq.filter fun m => m.src == some c && m.f == 5).map (·.id)
/-- VWSYNC (R389, R201). -/
def execVwsync (a : Nat) (s : State) : Host.Outcome State Fault Refusal := viewWord 2 a none (fun o t c => t.syncIds c ++ if o.m.scope = 5 then t.releaseIds c true else []) s
/-- VWPOL (R389, R202): the reserved policy 3 is ILLEGAL, FIELD 4. -/
def execVwpol (a b : Nat) (s : State) : Host.Outcome State Fault Refusal := viewWord 3 a (some b) Opnds.engines s
/-- VWSTAT (R389): as a load, its destination is written when the answer is back. -/
def execVwstat (d a : Nat) (s : State) : Host.Outcome State Fault Refusal :=
  word { rr d a with svc := false } s fun o t => do
    let c := t.cur
    let (m, w) ← t.namedView o.a
    t.sfuAim c o.m.dst 0 (t.cyc + 260) false
    let dst := o.m.dst
    let t := if dst = 0 then t.cancel c 1 d else t
    let f : Access := { id := t.nextId, ctx := c, act := .load, kind := .f, key := 0, va := o.a, n := 8, performed := true,
                        dcls := if dst ≠ 0 then 7 else if d = 0 then 0 else 1, dreg := if dst = 0 then d else dst, lat := 260 }
    pure (.done ({ t.fresh with flight := t.flight ++ [f] }.viewAsk c 4 m.mid w.num f.id []))
/-- VWKICK (R389, R202). -/
def execVwkick (a : Nat) (s : State) : Host.Outcome State Fault Refusal := viewWord 5 a none Opnds.engines s

/-! ### At the engine and at the homes -/

/-- The answer of the engine sets off: number of the wait, cause, DETAIL, value. -/
def State.viewReply (s : State) (c : CtxId) (n cause det val : Nat) : State :=
  s.after n .viewAnswerArrival { ctx := c, ns := [s.n 1, cause, det, val] }
/-- Every tag of a view rewritten by a function of what it holds. -/
def State.mapTags (s : State) (m : Master) (num : Nat) (f : Nat → Nat) : State :=
  (upFrom 0 m.blocks).foldl (fun s b => match s.master m.mid with
    | none => s
    | some k => match k.views.find? (·.num == num) with
      | none => s
      | some w => (s.storeTag k w b (f (s.tagOf k w b))).1) s
/-- A registration is installed (R189): the master counts writes, the directory stands, the tags are not valid, and every block
is dirty. -/
def State.viewInstall (s : State) (m : Master) (num : Nat) : State :=
  let on (w : View) : View := if w.num = num then { w with live := true } else w
  let s := s.setMaster { m with live := true, views := m.views.map on }
  let pol := ((m.views.find? (·.num == num)).map (·.pol)).getD 0
  (s.mapTags m num fun _ => tagWord 0 false false false pol num m.mid).markDirty m.mid (upFrom 0 m.blocks)
/-- A view is deleted (R184, R202, R441): its directory goes with it, and the master with its last view. -/
def State.viewDelete (s : State) (m : Master) (num : Nat) : State :=
  let left := m.views.filter (·.num != num)
  let p := m.mid / 256 % 8
  if left.isEmpty then (s.letWrites m.mid).setPylon p { s.pylon p with masters := (s.pylon p).masters.filter (·.mid != m.mid) }
  else s.setMaster { m with views := left }
/-- Status of a view (R389). -/
def State.viewStatus (s : State) (m : Master) (w : View) : Nat :=
  m.dirty.length * 4294967296 + ((upFrom 0 m.blocks).filter fun b => bit (s.tagOf m w b) 23).length
/-- What VWSYNC finds in a view with the stamps it has read (R201, R440): none while a block is short of its target, else whether
one is FAULTED. -/
def State.syncSees (s : State) (m : Master) (w : View) (targets : List Nat) : Option Bool :=
  let tag (b : Nat) := s.tagOf m w b
  let met (b : Nat) : Bool :=
    let t := tag b
    bit t 23 || (bit t 22 && !bit t 24 && decide ((bits t 63 32 + 4294967296 - targets.getD b 0) % 4294967296 < 2147483648))
  let bs := upFrom 0 m.blocks
  if bs.all met then some (bs.any fun b => bit (tag b) 23) else none

/-- VIEW_REQUEST_ARRIVAL (R466): phase 0 at the engine, once what is performed first is; phase 1 at the homes, where the request
acts; phase 2 VWSYNC's wait. A view that has ceased meanwhile leaves nothing to do. -/
def execViewRequestArrival (s : State) : Host.Outcome State Fault Refusal :=
  let c := s.arg.ctx
  let f := s.n 0
  let num := s.n 4
  let move (n phase : Nat) (l : List Nat) : State :=
    s.after n .viewRequestArrival { s.arg with ns := [f, s.n 1, phase, s.n 3, num, s.n 5] ++ l }
  let found := (s.master (s.n 3)).bind fun m => (m.views.find? (·.num == num)).map fun w => (m, w)
  match found with
  | none =>
    done (if f = 4 then s.after 130 .viewAnswerArrival { ctx := c, ns := [0, 0, 0, s.n 5] } else s.viewReply c 130 0 0 0)
  | some (m, w) =>
    if f = 4 then
      match s.access (s.n 5) with
      | none => done s
      | some g => done ((s.setAccess { g with got := s.viewStatus m w }).after 130 .viewAnswerArrival { ctx := c, ns := [0, 0, 0, s.n 5] })
    else match s.n 2 with
      | 0 => if s.waitsFor c.core (s.arg.ns.drop 6) then done (move 1 0 (s.arg.ns.drop 6)) else done (move 130 1 [])
      | 1 => match f with
        | 0 =>
          let t := s.viewInstall m num
          let wait := (w.shards.map fun h => t.peerTime h.tbase).foldl max 0
          done ({ t with free := t.free + 1 }.viewReply c (260 + wait) 0 0 (viewVal m.mid num 0))
        | 1 => if s.viewInFlight m.mid num then done (move 1 1 []) else done ((s.viewDelete m num).viewReply c 260 0 0 0)
        | 2 => done (move 130 2 ((upFrom 0 m.blocks).map m.stamp))
        | 3 =>
          let pol := s.n 5 % 4
          let s' := s.setMaster (m.setView { w with pol := pol })
          let set (t : Nat) : Nat := t - bits t 21 20 * 1048576 + pol * 1048576
          done ((s'.mapTags m num set).viewReply c 260 0 0 0)
        | _ => done ((s.markDirty m.mid (upFrom 0 m.blocks)).viewReply c 260 0 0 0)
      | _ => match s.syncSees m w (s.arg.ns.drop 6) with
        | none => done (move 1 2 (s.arg.ns.drop 6))
        | some bad => done (if bad then s.viewReply c 130 38 10 (viewVal m.mid num 0) else s.viewReply c 130 0 0 0)

/-- VIEW_ANSWER_ARRIVAL (R389, R440, R466): the word completes, with its result for VWREG and acquire order for VWSYNC, or takes its
cause; VWSTAT's answer is delivered as a load's. -/
def execViewAnswerArrival (s : State) : Host.Outcome State Fault Refusal :=
  let c := s.arg.ctx
  if s.n 0 = 0 then done (s.after 0 .loadValueReturn { ctx := c, ns := [s.n 3] })
  else done (s.heldIf c .viewAnswerArrival fun s =>
    if !s.inWait c (s.n 0) then s
    else if s.n 1 ≠ 0 then s.takeTrap c { cause := s.n 1, detail := s.n 2, val := s.n 3 } (s.ctx c).resume (s.ctx c).waitIr.toNat
    else if s.n 3 ≠ 0 then (s.answer c (s.n 3)).getD (s.after 1 .viewAnswerArrival s.arg)
    else s.wake c)

end Sys2Proof.Machine
end

