-- ==== Sys2Proof/Machine/Dispatch.lean ====
section
/-! DEFINITION. One arm for every row of the opcode table. -/

namespace Sys2Proof.Machine

/-- The meaning of a step. -/
def exec (i : Instr) (s : State) : Host.Outcome State Fault Refusal :=
  match i with
  | .start a b n keep => Sys2Proof.Machine.execStart a b n keep s
  | .joinh n => Sys2Proof.Machine.execJoinh n s
  | .wfi d a => Sys2Proof.Machine.execWfi d a s
  | .pgate d a => Sys2Proof.Machine.execPgate d a s
  | .cstop a b => Sys2Proof.Machine.execCstop a b s
  | .cresume a b => Sys2Proof.Machine.execCresume a b s
  | .launch a => Sys2Proof.Machine.execLaunch a s
  | .qpost a => Sys2Proof.Machine.execQpost a s
  | .tlbinvAsid b => Sys2Proof.Machine.execTlbinvAsid b s
  | .tlbinvPage a b => Sys2Proof.Machine.execTlbinvPage a b s
  | .add d a b => Sys2Proof.Machine.execAdd d a b s
  | .sub d a b => Sys2Proof.Machine.execSub d a b s
  | .and d a b => Sys2Proof.Machine.execAnd d a b s
  | .or d a b => Sys2Proof.Machine.execOr d a b s
  | .xor d a b => Sys2Proof.Machine.execXor d a b s
  | .shl d a b => Sys2Proof.Machine.execShl d a b s
  | .shr d a b => Sys2Proof.Machine.execShr d a b s
  | .sra d a b => Sys2Proof.Machine.execSra d a b s
  | .mul d a b => Sys2Proof.Machine.execMul d a b s
  | .mulh d a b => Sys2Proof.Machine.execMulh d a b s
  | .mulhu d a b => Sys2Proof.Machine.execMulhu d a b s
  | .div d a b => Sys2Proof.Machine.execDiv d a b s
  | .divu d a b => Sys2Proof.Machine.execDivu d a b s
  | .rem d a b => Sys2Proof.Machine.execRem d a b s
  | .remu d a b => Sys2Proof.Machine.execRemu d a b s
  | .min d a b => Sys2Proof.Machine.execMin d a b s
  | .max d a b => Sys2Proof.Machine.execMax d a b s
  | .minu d a b => Sys2Proof.Machine.execMinu d a b s
  | .maxu d a b => Sys2Proof.Machine.execMaxu d a b s
  | .slt d a b => Sys2Proof.Machine.execSlt d a b s
  | .sltu d a b => Sys2Proof.Machine.execSltu d a b s
  | .seq d a b => Sys2Proof.Machine.execSeq d a b s
  | .sel d a b c => Sys2Proof.Machine.execSel d a b c s
  | .clz d a => Sys2Proof.Machine.execClz d a s
  | .ctz d a => Sys2Proof.Machine.execCtz d a s
  | .popc d a => Sys2Proof.Machine.execPopc d a s
  | .addw d a b => Sys2Proof.Machine.execAddw d a b s
  | .subw d a b => Sys2Proof.Machine.execSubw d a b s
  | .mkpa d a b => Sys2Proof.Machine.execMkpa d a b s
  | .mkpaRel d a b => Sys2Proof.Machine.execMkpaRel d a b s
  | .addi d a imm => Sys2Proof.Machine.execAddi d a imm s
  | .andi d a imm => Sys2Proof.Machine.execAndi d a imm s
  | .ori d a imm => Sys2Proof.Machine.execOri d a imm s
  | .xori d a imm => Sys2Proof.Machine.execXori d a imm s
  | .shli d a n n5 => Sys2Proof.Machine.execShli d a n n5 s
  | .shri d a n n5 => Sys2Proof.Machine.execShri d a n n5 s
  | .srai d a n n5 => Sys2Proof.Machine.execSrai d a n n5 s
  | .movi d imm => Sys2Proof.Machine.execMovi d imm s
  | .movk d pos imm => Sys2Proof.Machine.execMovk d pos imm s
  | .slti d a imm => Sys2Proof.Machine.execSlti d a imm s
  | .ld d a k sz sg off => Sys2Proof.Machine.execLd d a k sz sg off s
  | .st d a k sz off => Sys2Proof.Machine.execSt d a k sz off s
  | .aadd d a b ord scope anch => Sys2Proof.Machine.execAadd d a b ord scope anch s
  | .aand d a b ord scope anch => Sys2Proof.Machine.execAand d a b ord scope anch s
  | .aor d a b ord scope anch => Sys2Proof.Machine.execAor d a b ord scope anch s
  | .axor d a b ord scope anch => Sys2Proof.Machine.execAxor d a b ord scope anch s
  | .amin d a b ord scope anch => Sys2Proof.Machine.execAmin d a b ord scope anch s
  | .amax d a b ord scope anch => Sys2Proof.Machine.execAmax d a b ord scope anch s
  | .aminu d a b ord scope anch => Sys2Proof.Machine.execAminu d a b ord scope anch s
  | .amaxu d a b ord scope anch => Sys2Proof.Machine.execAmaxu d a b ord scope anch s
  | .aswp d a b ord scope anch => Sys2Proof.Machine.execAswp d a b ord scope anch s
  | .acas d a b ord scope anch => Sys2Proof.Machine.execAcas d a b ord scope anch s
  | .ainc d a ord scope anch => Sys2Proof.Machine.execAinc d a ord scope anch s
  | .afadd d a b ord scope anch => Sys2Proof.Machine.execAfadd d a b ord scope anch s
  | .beq a b off => Sys2Proof.Machine.execBeq a b off s
  | .bne a b off => Sys2Proof.Machine.execBne a b off s
  | .blt a b off => Sys2Proof.Machine.execBlt a b off s
  | .bge a b off => Sys2Proof.Machine.execBge a b off s
  | .bltu a b off => Sys2Proof.Machine.execBltu a b off s
  | .bgeu a b off => Sys2Proof.Machine.execBgeu a b off s
  | .bz a off => Sys2Proof.Machine.execBz a off s
  | .bnz a off => Sys2Proof.Machine.execBnz a off s
  | .j off => Sys2Proof.Machine.execJ off s
  | .jal off => Sys2Proof.Machine.execJal off s
  | .jr a => Sys2Proof.Machine.execJr a s
  | .jalr d a => Sys2Proof.Machine.execJalr d a s
  | .loop d imm => Sys2Proof.Machine.execLoop d imm s
  | .csrr d csr => Sys2Proof.Machine.execCsrr d csr s
  | .csrw d a csr => Sys2Proof.Machine.execCsrw d a csr s
  | .csrs d a csr => Sys2Proof.Machine.execCsrs d a csr s
  | .csrc d a csr => Sys2Proof.Machine.execCsrc d a csr s
  | .fenceX a b => Sys2Proof.Machine.execFenceX a b s
  | .phase b ex => Sys2Proof.Machine.execPhase b ex s
  | .parrive b ex => Sys2Proof.Machine.execParrive b ex s
  | .bdom a => Sys2Proof.Machine.execBdom a s
  | .bexp a b => Sys2Proof.Machine.execBexp a b s
  | .mon d a b n => Sys2Proof.Machine.execMon d a b n s
  | .mwait d => Sys2Proof.Machine.execMwait d s
  | .waitt a => Sys2Proof.Machine.execWaitt a s
  | .ewait a => Sys2Proof.Machine.execEwait a s
  | .xbegin b ex => Sys2Proof.Machine.execXbegin b ex s
  | .preduce a b ex ty op => Sys2Proof.Machine.execPreduce a b ex ty op s
  | .tpost a b => Sys2Proof.Machine.execTpost a b s
  | .tpostC a b => Sys2Proof.Machine.execTpostC a b s
  | .tsteal d a b => Sys2Proof.Machine.execTsteal d a b s
  | .tjoin a b => Sys2Proof.Machine.execTjoin a b s
  | .twait d a => Sys2Proof.Machine.execTwait d a s
  | .pcall a => Sys2Proof.Machine.execPcall a s
  | .qinfo d a b => Sys2Proof.Machine.execQinfo d a b s
  | .send d a => Sys2Proof.Machine.execSend d a s
  | .sende d a => Sys2Proof.Machine.execSende d a s
  | .recv d => Sys2Proof.Machine.execRecv d s
  | .rpeek d => Sys2Proof.Machine.execRpeek d s
  | .gpost a => Sys2Proof.Machine.execGpost a s
  | .msend a b => Sys2Proof.Machine.execMsend a b s
  | .mcap d a => Sys2Proof.Machine.execMcap d a s
  | .vld d a fs k off => Sys2Proof.Machine.execVld d a fs k off s
  | .vst d a fs k off => Sys2Proof.Machine.execVst d a fs k off s
  | .vadd d a b => Sys2Proof.Machine.execVadd d a b s
  | .vsub d a b => Sys2Proof.Machine.execVsub d a b s
  | .vmul d a b => Sys2Proof.Machine.execVmul d a b s
  | .vfma d a b c => Sys2Proof.Machine.execVfma d a b c s
  | .vfms d a b c => Sys2Proof.Machine.execVfms d a b c s
  | .vmin d a b => Sys2Proof.Machine.execVmin d a b s
  | .vmax d a b => Sys2Proof.Machine.execVmax d a b s
  | .vminp d a b => Sys2Proof.Machine.execVminp d a b s
  | .vmaxp d a b => Sys2Proof.Machine.execVmaxp d a b s
  | .vabs d a => Sys2Proof.Machine.execVabs d a s
  | .vneg d a => Sys2Proof.Machine.execVneg d a s
  | .vand d a b => Sys2Proof.Machine.execVand d a b s
  | .vor d a b => Sys2Proof.Machine.execVor d a b s
  | .vxor d a b => Sys2Proof.Machine.execVxor d a b s
  | .vnot d a => Sys2Proof.Machine.execVnot d a s
  | .vshl d a b => Sys2Proof.Machine.execVshl d a b s
  | .vshr d a b => Sys2Proof.Machine.execVshr d a b s
  | .vsra d a b => Sys2Proof.Machine.execVsra d a b s
  | .vadds d a b => Sys2Proof.Machine.execVadds d a b s
  | .vsubs d a b => Sys2Proof.Machine.execVsubs d a b s
  | .vmov d a => Sys2Proof.Machine.execVmov d a s
  | .vcmpeq d a b => Sys2Proof.Machine.execVcmpeq d a b s
  | .vcmplt d a b => Sys2Proof.Machine.execVcmplt d a b s
  | .vcmple d a b => Sys2Proof.Machine.execVcmple d a b s
  | .vcmpne d a b => Sys2Proof.Machine.execVcmpne d a b s
  | .vsel d a b c => Sys2Proof.Machine.execVsel d a b c s
  | .vperm d a b => Sys2Proof.Machine.execVperm d a b s
  | .vslide d a b c => Sys2Proof.Machine.execVslide d a b c s
  | .vzip d a b h => Sys2Proof.Machine.execVzip d a b h s
  | .vunzip d a b h => Sys2Proof.Machine.execVunzip d a b h s
  | .pand d a b => Sys2Proof.Machine.execPand d a b s
  | .por d a b => Sys2Proof.Machine.execPor d a b s
  | .pnot d a => Sys2Proof.Machine.execPnot d a s
  | .pcnt d a => Sys2Proof.Machine.execPcnt d a s
  | .vcvt d a p c => Sys2Proof.Machine.execVcvt d a p c s
  | .vquant d a c => Sys2Proof.Machine.execVquant d a c s
  | .vdeq d a p c => Sys2Proof.Machine.execVdeq d a p c s
  | .vretag d a b ireg => Sys2Proof.Machine.execVretag d a b ireg s
  | .vtagr d a ireg => Sys2Proof.Machine.execVtagr d a ireg s
  | .vscale d a b => Sys2Proof.Machine.execVscale d a b s
  | .vpack d a b => Sys2Proof.Machine.execVpack d a b s
  | .vunpk d a h c => Sys2Proof.Machine.execVunpk d a h c s
  | .vexp2 d a b c => Sys2Proof.Machine.execVexp2 d a b c s
  | .vlog2 d a => Sys2Proof.Machine.execVlog2 d a s
  | .vrcp d a => Sys2Proof.Machine.execVrcp d a s
  | .vrsqrt d a => Sys2Proof.Machine.execVrsqrt d a s
  | .vsqrt d a => Sys2Proof.Machine.execVsqrt d a s
  | .vdiv d a b => Sys2Proof.Machine.execVdiv d a b s
  | .vtanh d a => Sys2Proof.Machine.execVtanh d a s
  | .vsigm d a => Sys2Proof.Machine.execVsigm d a s
  | .vrsum d a => Sys2Proof.Machine.execVrsum d a s
  | .vrmax d a => Sys2Proof.Machine.execVrmax d a s
  | .vrmin d a => Sys2Proof.Machine.execVrmin d a s
  | .vbcast d a c => Sys2Proof.Machine.execVbcast d a c s
  | .vmovx d a b => Sys2Proof.Machine.execVmovx d a b s
  | .vins d a b => Sys2Proof.Machine.execVins d a b s
  | .vrsump d a => Sys2Proof.Machine.execVrsump d a s
  | .sbind d a => Sys2Proof.Machine.execSbind d a s
  | .sfree d => Sys2Proof.Machine.execSfree d s
  | .sstat d a => Sys2Proof.Machine.execSstat d a s
  | .ild d a fs k off => Sys2Proof.Machine.execIld d a fs k off s
  | .ist d a fs k off => Sys2Proof.Machine.execIst d a fs k off s
  | .iadd d a b => Sys2Proof.Machine.execIadd d a b s
  | .isub d a b => Sys2Proof.Machine.execIsub d a b s
  | .imul d a b => Sys2Proof.Machine.execImul d a b s
  | .idiv d a b => Sys2Proof.Machine.execIdiv d a b s
  | .isqr d a => Sys2Proof.Machine.execIsqr d a s
  | .isqrt d a => Sys2Proof.Machine.execIsqrt d a s
  | .iexp2 d a => Sys2Proof.Machine.execIexp2 d a s
  | .ilog2 d a => Sys2Proof.Machine.execIlog2 d a s
  | .imin d a b => Sys2Proof.Machine.execImin d a b s
  | .imax d a b => Sys2Proof.Machine.execImax d a b s
  | .irelu d a => Sys2Proof.Machine.execIrelu d a s
  | .ineg d a => Sys2Proof.Machine.execIneg d a s
  | .iabs d a => Sys2Proof.Machine.execIabs d a s
  | .ifma d a b c => Sys2Proof.Machine.execIfma d a b c s
  | .iscale d a b => Sys2Proof.Machine.execIscale d a b s
  | .cadd d a b => Sys2Proof.Machine.execCadd d a b s
  | .csub d a b => Sys2Proof.Machine.execCsub d a b s
  | .cmul d a b => Sys2Proof.Machine.execCmul d a b s
  | .cdiv d a b => Sys2Proof.Machine.execCdiv d a b s
  | .csqr d a => Sys2Proof.Machine.execCsqr d a s
  | .csqrt d a => Sys2Proof.Machine.execCsqrt d a s
  | .cexp2 d a => Sys2Proof.Machine.execCexp2 d a s
  | .cmax d a b => Sys2Proof.Machine.execCmax d a b s
  | .cmin d a b => Sys2Proof.Machine.execCmin d a b s
  | .crelu d a => Sys2Proof.Machine.execCrelu d a s
  | .cabs d a => Sys2Proof.Machine.execCabs d a s
  | .ihull d a b => Sys2Proof.Machine.execIhull d a b s
  | .imeet d a b => Sys2Proof.Machine.execImeet d a b s
  | .isplit d a b => Sys2Proof.Machine.execIsplit d a b s
  | .imid d a h => Sys2Proof.Machine.execImid d a h s
  | .irad d a h => Sys2Proof.Machine.execIrad d a h s
  | .iwid d a h => Sys2Proof.Machine.execIwid d a h s
  | .imk d a b h => Sys2Proof.Machine.execImk d a b h s
  | .ilo d a h => Sys2Proof.Machine.execIlo d a h s
  | .ihi d a h => Sys2Proof.Machine.execIhi d a h s
  | .iempty d w => Sys2Proof.Machine.execIempty d w s
  | .iclt d a b => Sys2Proof.Machine.execIclt d a b s
  | .icle d a b => Sys2Proof.Machine.execIcle d a b s
  | .iceq d a b => Sys2Proof.Machine.execIceq d a b s
  | .isubset d a b => Sys2Proof.Machine.execIsubset d a b s
  | .idisj d a b => Sys2Proof.Machine.execIdisj d a b s
  | .iisemp d a => Sys2Proof.Machine.execIisemp d a s
  | .qand d a b => Sys2Proof.Machine.execQand d a b s
  | .qor d a b => Sys2Proof.Machine.execQor d a b s
  | .qnot d a => Sys2Proof.Machine.execQnot d a s
  | .qall d a h => Sys2Proof.Machine.execQall d a h s
  | .qany d a h => Sys2Proof.Machine.execQany d a h s
  | .qsel d a b c => Sys2Proof.Machine.execQsel d a b c s
  | .iprog d => Sys2Proof.Machine.execIprog d s
  | .mma d a b sq => Sys2Proof.Machine.execMma d a b sq s
  | .mmaiv d a b sq => Sys2Proof.Machine.execMmaiv d a b sq s
  | .mma64 d a b c => Sys2Proof.Machine.execMma64 d a b c s
  | .mldw d a b n => Sys2Proof.Machine.execMldw d a b n s
  | .mzero d w => Sys2Proof.Machine.execMzero d w s
  | .mdrain d a b r => Sys2Proof.Machine.execMdrain d a b r s
  | .msync l => Sys2Proof.Machine.execMsync l s
  | .mstat d a l => Sys2Proof.Machine.execMstat d a l s
  | .vwreg d a => Sys2Proof.Machine.execVwreg d a s
  | .vwdel a => Sys2Proof.Machine.execVwdel a s
  | .vwsync a => Sys2Proof.Machine.execVwsync a s
  | .vwpol a b => Sys2Proof.Machine.execVwpol a b s
  | .vwstat d a => Sys2Proof.Machine.execVwstat d a s
  | .vwkick a => Sys2Proof.Machine.execVwkick a s
  | .hld d a => Sys2Proof.Machine.execHld d a s
  | .hqry d a b => Sys2Proof.Machine.execHqry d a b s
  | .hclr d => Sys2Proof.Machine.execHclr d s
  | .fmtset d a => Sys2Proof.Machine.execFmtset d a s
  | .fmtget d a => Sys2Proof.Machine.execFmtget d a s
  | .vlds d a b c => Sys2Proof.Machine.execVlds d a b c s
  | .vsts d a b m => Sys2Proof.Machine.execVsts d a b m s
  | .vldm d a b n => Sys2Proof.Machine.execVldm d a b n s
  | .vstm d a b n => Sys2Proof.Machine.execVstm d a b n s
  | .vldi d a b c => Sys2Proof.Machine.execVldi d a b c s
  | .vsti d a b c => Sys2Proof.Machine.execVsti d a b c s
  | .nop => Sys2Proof.Machine.execNop s
  | .halt => Sys2Proof.Machine.execHalt s
  | .yield => Sys2Proof.Machine.execYield s
  | .trap => Sys2Proof.Machine.execTrap s
  | .scall => Sys2Proof.Machine.execScall s
  | .eret => Sys2Proof.Machine.execEret s
  | .tlbinvAll => Sys2Proof.Machine.execTlbinvAll s
  | .brk => Sys2Proof.Machine.execBrk s
  | .ret => Sys2Proof.Machine.execRet s
  | .fenceO => Sys2Proof.Machine.execFenceO s
  | .pwait => Sys2Proof.Machine.execPwait s
  | .snapinv => Sys2Proof.Machine.execSnapinv s
  | .xend => Sys2Proof.Machine.execXend s
  | .tret => Sys2Proof.Machine.execTret s
  | .tleave => Sys2Proof.Machine.execTleave s
  | .hintImm => Sys2Proof.Machine.execHintImm s
  | .hintMod => Sys2Proof.Machine.execHintMod s
  | .hintDly => Sys2Proof.Machine.execHintDly s
  | .hintPrf => Sys2Proof.Machine.execHintPrf s
  | .asyncTrapTake => Sys2Proof.Machine.execAsyncTrapTake s
  | .delayExpiry => Sys2Proof.Machine.execDelayExpiry s
  | .yieldEnd => Sys2Proof.Machine.execYieldEnd s
  | .cpGo => Sys2Proof.Machine.execCpGo s
  | .copyComplete => Sys2Proof.Machine.execCopyComplete s
  | .promiseMissed => Sys2Proof.Machine.execPromiseMissed s
  | .gatherDescriptorRun => Sys2Proof.Machine.execGatherDescriptorRun s
  | .matrixCommandRun => Sys2Proof.Machine.execMatrixCommandRun s
  | .downFifoRecordTake => Sys2Proof.Machine.execDownFifoRecordTake s
  | .msendRecordArrival => Sys2Proof.Machine.execMsendRecordArrival s
  | .sfuResult => Sys2Proof.Machine.execSfuResult s
  | .tlbWalkEnd => Sys2Proof.Machine.execTlbWalkEnd s
  | .accessAtOrderingPoint => Sys2Proof.Machine.execAccessAtOrderingPoint s
  | .loadValueReturn => Sys2Proof.Machine.execLoadValueReturn s
  | .storeAck => Sys2Proof.Machine.execStoreAck s
  | .feTimeout => Sys2Proof.Machine.execFeTimeout s
  | .streamReadAhead => Sys2Proof.Machine.execStreamReadAhead s
  | .mwaitTimeout => Sys2Proof.Machine.execMwaitTimeout s
  | .waittExpiry => Sys2Proof.Machine.execWaittExpiry s
  | .twaitTimeout => Sys2Proof.Machine.execTwaitTimeout s
  | .wfiTimeout => Sys2Proof.Machine.execWfiTimeout s
  | .linkValueArrival => Sys2Proof.Machine.execLinkValueArrival s
  | .fifoEntryVisible => Sys2Proof.Machine.execFifoEntryVisible s
  | .routedWordArrival => Sys2Proof.Machine.execRoutedWordArrival s
  | .scheduleLimit => Sys2Proof.Machine.execScheduleLimit s
  | .coreArrival => Sys2Proof.Machine.execCoreArrival s
  | .barrierRelease => Sys2Proof.Machine.execBarrierRelease s
  | .systemBarrierRelease => Sys2Proof.Machine.execSystemBarrierRelease s
  | .barrierTimeout => Sys2Proof.Machine.execBarrierTimeout s
  | .tpostArrival => Sys2Proof.Machine.execTpostArrival s
  | .counterReport => Sys2Proof.Machine.execCounterReport s
  | .watchReread => Sys2Proof.Machine.execWatchReread s
  | .taskUrgentDue => Sys2Proof.Machine.execTaskUrgentDue s
  | .tstealArrival => Sys2Proof.Machine.execTstealArrival s
  | .tstealAnswerArrival => Sys2Proof.Machine.execTstealAnswerArrival s
  | .offerArrival => Sys2Proof.Machine.execOfferArrival s
  | .tjoinArrival => Sys2Proof.Machine.execTjoinArrival s
  | .tleaveArrival => Sys2Proof.Machine.execTleaveArrival s
  | .qinfoArrival => Sys2Proof.Machine.execQinfoArrival s
  | .tretArrival => Sys2Proof.Machine.execTretArrival s
  | .tretAnswerArrival => Sys2Proof.Machine.execTretAnswerArrival s
  | .pierJobEnd => Sys2Proof.Machine.execPierJobEnd s
  | .pcallAccept => Sys2Proof.Machine.execPcallAccept s
  | .pcallAcceptNews => Sys2Proof.Machine.execPcallAcceptNews s
  | .refreshDue => Sys2Proof.Machine.execRefreshDue s
  | .governorSample => Sys2Proof.Machine.execGovernorSample s
  | .dirtyNotice => Sys2Proof.Machine.execDirtyNotice s
  | .viewBlockRefresh => Sys2Proof.Machine.execViewBlockRefresh s
  | .computeCommandTake => Sys2Proof.Machine.execComputeCommandTake s
  | .placementWaitExpiry => Sys2Proof.Machine.execPlacementWaitExpiry s
  | .copyJobTake => Sys2Proof.Machine.execCopyJobTake s
  | .inMemoryJobTake => Sys2Proof.Machine.execInMemoryJobTake s
  | .commandAging => Sys2Proof.Machine.execCommandAging s
  | .startCapture => Sys2Proof.Machine.execStartCapture s
  | .stopCapture => Sys2Proof.Machine.execStopCapture s
  | .launchCompletion => Sys2Proof.Machine.execLaunchCompletion s
  | .clusterGate => Sys2Proof.Machine.execClusterGate s
  | .packIdleGate => Sys2Proof.Machine.execPackIdleGate s
  | .clusterWakeDone => Sys2Proof.Machine.execClusterWakeDone s
  | .wakeFailure => Sys2Proof.Machine.execWakeFailure s
  | .cstopRequestArrival => Sys2Proof.Machine.execCstopRequestArrival s
  | .contextStop => Sys2Proof.Machine.execContextStop s
  | .stopAckArrival => Sys2Proof.Machine.execStopAckArrival s
  | .packetStopLimit => Sys2Proof.Machine.execPacketStopLimit s
  | .coreSave => Sys2Proof.Machine.execCoreSave s
  | .coreRestore => Sys2Proof.Machine.execCoreRestore s
  | .preciseStopArm => Sys2Proof.Machine.execPreciseStopArm s
  | .preciseStopLift => Sys2Proof.Machine.execPreciseStopLift s
  | .replayControlWrite => Sys2Proof.Machine.execReplayControlWrite s
  | .capabilityEpochAdvance => Sys2Proof.Machine.execCapabilityEpochAdvance s
  | .pierQuiesceWrite => Sys2Proof.Machine.execPierQuiesceWrite s
  | .rowRepair => Sys2Proof.Machine.execRowRepair s
  | .startGoodWrite => Sys2Proof.Machine.execStartGoodWrite s
  | .controlWordWrite => Sys2Proof.Machine.execControlWordWrite s
  | .attestationSign => Sys2Proof.Machine.execAttestationSign s
  | .powerOnReset => Sys2Proof.Machine.execPowerOnReset s
  | .warmReset => Sys2Proof.Machine.execWarmReset s
  | .bootStart => Sys2Proof.Machine.execBootStart s
  | .startWatchdog => Sys2Proof.Machine.execStartWatchdog s
  | .recoveryImageMessage => Sys2Proof.Machine.execRecoveryImageMessage s
  | .hostRingHeadWrite => Sys2Proof.Machine.execHostRingHeadWrite s
  | .hostRingTailWrite => Sys2Proof.Machine.execHostRingTailWrite s
  | .peerRequestArrival => Sys2Proof.Machine.execPeerRequestArrival s
  | .peerTimeout => Sys2Proof.Machine.execPeerTimeout s
  | .flitCrcFail => Sys2Proof.Machine.execFlitCrcFail s
  | .uncorrectableError => Sys2Proof.Machine.execUncorrectableError s
  | .commandBlockArrival => Sys2Proof.Machine.execCommandBlockArrival s
  | .commandQueuedNews => Sys2Proof.Machine.execCommandQueuedNews s
  | .viewRequestArrival => Sys2Proof.Machine.execViewRequestArrival s
  | .viewAnswerArrival => Sys2Proof.Machine.execViewAnswerArrival s
  | .msendAnswerArrival => Sys2Proof.Machine.execMsendAnswerArrival s
  | .counterReadAnswer => Sys2Proof.Machine.execCounterReadAnswer s
  | .coreSaveDone => Sys2Proof.Machine.execCoreSaveDone s
  | .rowRepairDone => Sys2Proof.Machine.execRowRepairDone s
  | .stagingRegionWrite => Sys2Proof.Machine.execStagingRegionWrite s
  | .debugHaltBegin => Sys2Proof.Machine.execDebugHaltBegin s
  | .debugHaltEnd => Sys2Proof.Machine.execDebugHaltEnd s

end Sys2Proof.Machine
end

