-- ==== Sys2Proof/Machine/Step.lean ====
section
/-! DEFINITION. One step of the module: the next move, else the next step that is due, else the next word, else time. -/

namespace Sys2Proof.Machine

/-- Context c issues the word at its pc (R219, R243). -/
def issueWord (c : CtxId) (s : State) : Host.Outcome State Fault Refusal :=
  match s.fetch c with
  | .error t => .next t
  | .ok w =>
    match decodeWord w.toNat with
    | .ok i => exec i (s.issue c w)
    | .error f => match nearest 6 w.toNat with
      | some i => exec i { s.issue c w with bad := some f }
      | none => .next ((s.issue c w).reserved f)

/-- Does the word at a context's pc, with the word that its hints apply to, take a cause of its own (R418)? -/
def trapsNext (c : CtxId) : Nat → State → Bool
  | 0, _ => false
  | n + 1, s => match issueWord c s with
    | .next t =>
      let x := t.ctx c
      if x.traps ≠ (s.ctx c).traps then decide ((if x.level = .h then x.trapH else x.trapS).cause.toNat % 256 < 61)
      else x.chainPc.isSome && x.st == .ready && trapsNext c n t
    | _ => false
/-- A stop comes after the cause of the word at its boundary; in a wait there is none (R418). -/
def trapsFirst (s : State) (c : CtxId) : Bool :=
  ((s.ctx c).st == .ready || s.stalls c) && trapsNext c 4 s

/-- What happens when nothing is due and no move is chosen. -/
def ownStep (s : State) : Host.Outcome State Fault Refusal :=
  match s.turn (trapsFirst s) with
  | some (.due c) => .next (s.noteDue c)
  | some (.step i a) => exec i { s with arg := a }
  | some (.issue c) => issueWord c s
  | none => .next s.tick

/-- One step. A chosen issue is that of a context that its core may select. -/
def step (s : State) : Host.Outcome State Fault Refusal :=
  match s.moves with
  | .event i a :: ms => exec i { s with moves := ms, arg := a }
  | .issue c :: ms => if s.mayIssue c then issueWord c { s with moves := ms } else .next { s with moves := ms }
  | .fill k line :: ms => .next (({ s with moves := ms } : State).fillLine k line)
  | .correct h :: ms => .next (({ s with moves := ms } : State).countCorrected h)
  | [] =>
    match s.agenda with
    | (t, i, a) :: rest => if t ≤ s.cyc then exec i { s with agenda := rest, arg := a } else ownStep s
    | [] => ownStep s

/-- The state whose next step fetches and runs the word w: it stands at the pc of service core 0's context 0, which is ready
at once, its page is in the TLB with X and W, and the boot ROM's start is not pending (notes/assumptions/4). -/
def State.withFetchWord (s : State) (nbits w : Nat) : State :=
  if nbits > 32 then s else
  let c : CtxId := ⟨⟨.service, 0, 0, 0⟩, 0⟩
  let x := s.ctx c
  let pc := x.pc.toNat
  let e : Tlb := { asid := x.asid.toNat, page := pc / 65536, big := false, pa := pc / 65536 * 65536 % 1099511627776,
                   w := true, x := true, vsrc := false, d := true }
  let s := s.setCtx c { x with st := .ready, wait := .none, notBefore := 0, async := [], stops := [], halted := false }
  { (s.setCluster 4096 { s.cluster 4096 with tlb := [e] }) with
    agenda := [], moves := [.issue c],
    mem := Mem.write s.mem (e.addr pc) 4 w }

end Sys2Proof.Machine
end

