-- ==== Sys2Proof/Certificates/Slice0/Obligations.lean ====
section
/-! DEFINITION. The statements about the model, for the provers. A statement about a word says `prep g s = .ok (o, t)` for
"the word in issue in state s passes the checks that come first (R418) and has its operands o; t is the state once a link, FIFO or
stream has given one up": so it holds for every form of the word, with hints and without. -/

namespace Sys2Proof.Claims
open Sys2Proof Sys2Proof.Machine

/-- `wrap64` of an integer (R8). -/
def wrap64 (n : Int) : Nat := (n % 18446744073709551616).toNat
/-- A register's value as an unsigned number (R268). -/
def uns (n : Nat) : Nat := n % 18446744073709551616
/-- A register's value as two's complement (R268). -/
def sgn (n : Nat) : Int := sext n 64
/-- Word i, of fields g, completes with v in x[D], whatever form D has (R255): its register, or a link, FIFO or stream takes v; the
context of the word goes on at the next word. -/
def GivesX (i : Instr) (g : Sig) (d : Nat) (v : Opnds → State → Nat) : Prop :=
  ∀ s o t t', prep g s = .ok (o, t) → t.putX t.cur o d (v o t) = .ok t' → exec i s = .next (t'.advance s.cur)
/-- Word i, of fields g, completes under a condition on its operands and state, with an effect on the state. -/
def Does (i : Instr) (g : Sig) (cond : Opnds → State → Prop) (eff : Opnds → State → State) : Prop :=
  ∀ s o t, prep g s = .ok (o, t) → cond o t → exec i s = .next ((eff o t).advance s.cur)
/-- Word i, of fields g, leaves the state that its own effect makes, in which it waits, has moved elsewhere or has ended. -/
def Leaves (i : Instr) (g : Sig) (cond : Opnds → State → Prop) (eff : Opnds → State → State) : Prop :=
  ∀ s o t, prep g s = .ok (o, t) → cond o t → exec i s = .next (eff o t)
/-- Word i, of fields g, goes on at an address. -/
def GoesTo (i : Instr) (g : Sig) (cond : Opnds → State → Prop) (eff : Opnds → State → State) (pc : Opnds → State → Nat) : Prop :=
  ∀ s o t, prep g s = .ok (o, t) → cond o t → exec i s = .next ((eff o t).goOn s.cur (Word.ofN (pc o t)))
/-- Word i, of fields g, takes a trap and has no other effect: the context resumes at the word, or at the first hint of its chain. -/
def Traps (i : Instr) (g : Sig) (cond : Opnds → State → Prop) (why : Opnds → State → Trap) : Prop :=
  ∀ s o t, prep g s = .ok (o, t) → cond o t →
    exec i s = .next (s.takeTrap s.cur (why o t) (s.ctx s.cur).resume s.ir.toNat)
/-- The address of the word in issue. -/
def here (t : State) : Nat := (t.ctx t.cur).pc.toNat

end Sys2Proof.Claims

open Sys2Proof Sys2Proof.Machine Sys2Proof.Claims

/-! ### Scalar words -/

/-- R269, R271: the words of the ALU group but for DIV, DIVU, REM and REMU write x[D] as the table of R269 says; MKPA and MKPA.REL
build a pool address. -/
def Sys2Proof.Claims.AluResults : Prop := ∀ d a b c : Nat,
  GivesX (.add d a b) (rrr d a b) d (fun o _ => wrap64 (o.a + o.b)) ∧
  GivesX (.sub d a b) (rrr d a b) d (fun o _ => wrap64 (o.a - o.b)) ∧
  GivesX (.and d a b) (rrr d a b) d (fun o _ => uns o.a &&& uns o.b) ∧
  GivesX (.or d a b) (rrr d a b) d (fun o _ => uns o.a ||| uns o.b) ∧
  GivesX (.xor d a b) (rrr d a b) d (fun o _ => uns o.a ^^^ uns o.b) ∧
  GivesX (.shl d a b) (rrr d a b) d (fun o _ => uns (o.a * 2 ^ (o.b % 64))) ∧
  GivesX (.shr d a b) (rrr d a b) d (fun o _ => uns o.a / 2 ^ (o.b % 64)) ∧
  GivesX (.sra d a b) (rrr d a b) d (fun o _ => wrap64 (sgn o.a / (2 : Int) ^ (o.b % 64))) ∧
  GivesX (.mul d a b) (rrr d a b) d (fun o _ => wrap64 (o.a * o.b)) ∧
  GivesX (.mulh d a b) (rrr d a b) d (fun o _ => wrap64 (sgn o.a * sgn o.b / 18446744073709551616)) ∧
  GivesX (.mulhu d a b) (rrr d a b) d (fun o _ => uns o.a * uns o.b / 18446744073709551616) ∧
  GivesX (.min d a b) (rrr d a b) d (fun o _ => if sgn o.a ≤ sgn o.b then uns o.a else uns o.b) ∧
  GivesX (.max d a b) (rrr d a b) d (fun o _ => if sgn o.a ≤ sgn o.b then uns o.b else uns o.a) ∧
  GivesX (.minu d a b) (rrr d a b) d (fun o _ => Nat.min (uns o.a) (uns o.b)) ∧
  GivesX (.maxu d a b) (rrr d a b) d (fun o _ => Nat.max (uns o.a) (uns o.b)) ∧
  GivesX (.slt d a b) (rrr d a b) d (fun o _ => if sgn o.a < sgn o.b then 1 else 0) ∧
  GivesX (.sltu d a b) (rrr d a b) d (fun o _ => if uns o.a < uns o.b then 1 else 0) ∧
  GivesX (.seq d a b) (rrr d a b) d (fun o _ => if uns o.a = uns o.b then 1 else 0) ∧
  GivesX (.sel d a b c) { rrr d a b with c := rd .x c } d (fun o _ => if uns o.c ≠ 0 then o.a else o.b) ∧
  GivesX (.clz d a) (rr d a) d (fun o _ => if uns o.a = 0 then 64 else 63 - Nat.log2 (uns o.a)) ∧
  GivesX (.ctz d a) (rr d a) d (fun o _ => (((List.range 64).find? fun n => bit o.a n)).getD 64) ∧
  GivesX (.popc d a) (rr d a) d (fun o _ => ((List.range 64).filter fun n => bit o.a n).length) ∧
  GivesX (.addw d a b) (rrr d a b) d (fun o _ => wrap64 (sext (o.a + o.b) 32)) ∧
  GivesX (.subw d a b) (rrr d a b) d (fun o _ => wrap64 (sext (wrap64 (o.a - o.b)) 32)) ∧
  GivesX (.mkpa d a b) (rrr d a b) d (fun o _ =>
    4 * 2 ^ 60 + bits o.a 17 15 * 2 ^ 57 + bits o.a 14 9 * 2 ^ 51 + bits o.a 8 4 * 2 ^ 46 + bits o.b 17 0) ∧
  GivesX (.mkpaRel d a b) (rrr d a b) d (fun o _ =>
    5 * 2 ^ 60 + bits o.a 14 9 * 2 ^ 51 + bits o.a 8 4 * 2 ^ 46 + bits o.b 17 0)

/-- R270, R413, R418: a nonzero divisor gives quotient or remainder, toward zero; a zero one traps DIV_ZERO with the dividend in `tval`
and x[D] unchanged, behind the causes of a destination stream. -/
def Sys2Proof.Claims.DivisionResults : Prop := ∀ d a b : Nat,
  (∀ e ∈ ([(.div d a b, fun x y => wrap64 ((sgn x).tdiv (sgn y))),
           (.rem d a b, fun x y => wrap64 (sgn x - sgn y * (sgn x).tdiv (sgn y))),
           (.divu d a b, fun x y => uns x / uns y),
           (.remu d a b, fun x y => uns x - uns y * (uns x / uns y))] : List (Instr × (Nat → Nat → Nat))),
    (∀ s o t t', prep (rrr d a b) s = .ok (o, t) → uns o.b ≠ 0 → t.putX t.cur o d (e.2 o.a o.b) = .ok t' →
      exec e.1 s = .next (t'.advance s.cur)) ∧
    Traps e.1 (rrr d a b) (fun o t => uns o.b = 0 ∧ t.dstCheck t.cur o false = .ok ()) (fun o _ => { cause := 9, val := uns o.a }) ∧
    (∀ w : Trap, Traps e.1 (rrr d a b) (fun o t => t.dstCheck t.cur o false = .error (.trap w)) (fun _ _ => w)))

/-- R272, R273, R274, R253: the immediate forms take imm, sign-extended from 16 bits or widened by HINT.IMM; MOVK replaces one
halfword; the shifts by a constant. -/
def Sys2Proof.Claims.ImmediateResults : Prop := ∀ d a imm pos n n5 : Nat, pos < 4 → n < 32 → n5 < 2 →
  GivesX (.addi d a imm) { rr d a with imm := true } d (fun o _ => wrap64 (o.a + immI o imm)) ∧
  GivesX (.andi d a imm) { rr d a with imm := true } d (fun o _ => uns o.a &&& wrap64 (immI o imm)) ∧
  GivesX (.ori d a imm) { rr d a with imm := true } d (fun o _ => uns o.a ||| wrap64 (immI o imm)) ∧
  GivesX (.xori d a imm) { rr d a with imm := true } d (fun o _ => uns o.a ^^^ wrap64 (immI o imm)) ∧
  GivesX (.slti d a imm) { rr d a with imm := true } d (fun o _ => if sgn o.a < immI o imm then 1 else 0) ∧
  GivesX (.movi d imm) { d := wr .x d, dd := true, imm := true } d (fun o _ => wrap64 (immI o imm)) ∧
  GivesX (.movk d pos imm) { d := rw .x d, dd := true } d (fun o _ =>
    o.d / 2 ^ (16 * pos + 16) * 2 ^ (16 * pos + 16) + imm % 65536 * 2 ^ (16 * pos) + o.d % 2 ^ (16 * pos)) ∧
  GivesX (.shli d a n n5) (rr d a) d (fun o _ => uns (o.a * 2 ^ (n + 32 * n5))) ∧
  GivesX (.shri d a n n5) (rr d a) d (fun o _ => uns o.a / 2 ^ (n + 32 * n5)) ∧
  GivesX (.srai d a n n5) (rr d a) d (fun o _ => wrap64 (sgn o.a / (2 : Int) ^ (n + 32 * n5)))

/-- R246, R253: the immediate of a word is IMM16 sign-extended, or with HINT.IMM the 38-bit value with PAY above it. -/
def Sys2Proof.Claims.WidenedImmediate : Prop := ∀ (o : Opnds) (imm : Nat), imm < 65536 →
  (o.imm = none → immI o imm = sext imm 16) ∧ (∀ p, o.imm = some p → immI o imm = sext (p * 65536 + imm) 38)

namespace Sys2Proof.Claims
/-- The conditional branches with their conditions on a and b (R275). -/
def branches (a b off : Nat) : List (Instr × Sig × (Nat → Nat → Bool)) :=
  [(.beq a b off, brr a b, fun x y => uns x == uns y), (.bne a b off, brr a b, fun x y => uns x != uns y),
   (.blt a b off, brr a b, fun x y => decide (sgn x < sgn y)), (.bge a b off, brr a b, fun x y => decide (sgn y ≤ sgn x)),
   (.bltu a b off, brr a b, fun x y => decide (uns x < uns y)), (.bgeu a b off, brr a b, fun x y => decide (uns y ≤ uns x)),
   (.bz a off, br a, fun x _ => uns x == 0), (.bnz a off, br a, fun x _ => uns x != 0)]
/-- A target of a transfer that R279 allows: in space 0x0 and aligned to 4. -/
def goodTarget (pc : Nat) : Prop := pc % 4 = 0 ∧ bits pc 63 60 = 0
/-- What a transfer to another target takes (R279, R418): ALIGN, else ACCESS 2, at the transfer word. -/
def badTarget (pc : Nat) : Trap := if pc % 4 ≠ 0 then { cause := 5, val := pc } else { cause := 17, detail := 2, val := pc }
end Sys2Proof.Claims

/-- R275, R279, R418: a branch whose condition holds goes to pc + 4 × off, one whose condition fails to the next word; a taken
branch to a bad target traps and goes nowhere. -/
def Sys2Proof.Claims.BranchTargets : Prop := ∀ a b off : Nat, ∀ e ∈ branches a b off,
  let g : Sig := { e.2.1 with imm := true }
  let dest (o : Opnds) (t : State) := wrap64 (here t + 4 * offB o off)
  GoesTo e.1 g (fun o t => e.2.2 o.a o.b = true ∧ goodTarget (dest o t)) (fun _ t => t) dest ∧
  Does e.1 g (fun o _ => e.2.2 o.a o.b = false) (fun _ t => t) ∧
  Traps e.1 g (fun o t => e.2.2 o.a o.b = true ∧ ¬ goodTarget (dest o t)) (fun o t => badTarget (dest o t))

/-- R276, R277: J and JAL go to pc + 4 × sext(OFF26), JAL with pc + 4 in x1; JR and RET to a register; JALR to the old value of its
register, with pc + 4 in x[D]. -/
def Sys2Proof.Claims.JumpTargets : Prop := ∀ d a off : Nat,
  let dest (_ : Opnds) (t : State) := wrap64 (here t + 4 * sext off 26)
  GoesTo (.j off) {} (fun o t => goodTarget (dest o t)) (fun _ t => t) dest ∧
  GoesTo (.jal off) {} (fun o t => goodTarget (dest o t))
    (fun _ t => (t.cancel t.cur 1 1).wx t.cur 1 (wrap64 (here t + 4))) dest ∧
  GoesTo (.jr a) { a := rd .x a, da := true } (fun o _ => goodTarget o.a) (fun _ t => t) (fun o _ => o.a) ∧
  (∀ s o t t', prep (rr d a) s = .ok (o, t) → t.putX t.cur o d (wrap64 (here t + 4)) = .ok t' → goodTarget o.a →
    exec (.jalr d a) s = .next (t'.goOn s.cur (Word.ofN o.a))) ∧
  GoesTo .ret {} (fun _ t => t.pending t.cur 1 1 = false ∧ t.poison = [] ∧ goodTarget (t.rx t.cur 1)) (fun _ t => t)
    (fun _ t => t.rx t.cur 1)

/-- R278: LOOP writes x[D] − 1, wrapped, and goes to pc + 4 × imm unless that is 0; `loop x0` always branches. -/
def Sys2Proof.Claims.LoopCountsDown : Prop := ∀ d imm : Nat, ∀ s o t t',
  prep { d := rw .x d, dd := true, imm := true } s = .ok (o, t) → t.putX t.cur o d (wrap64 (o.d - 1)) = .ok t' →
  (wrap64 (o.d - 1) = 0 → exec (.loop d imm) s = .next (t'.advance s.cur)) ∧
  (wrap64 (o.d - 1) ≠ 0 → goodTarget (wrap64 (here t + 4 * immI o imm)) →
    exec (.loop d imm) s = .next (t'.goOn s.cur (Word.ofN (wrap64 (here t + 4 * immI o imm)))))

/-- R280, R281: what the CSR words do, once the number is assigned, the level suffices (`csrLegal`) and earlier updates are made
(`csrWait`): CSRR reads; CSRW with D = 0 writes without a read, and otherwise reads, then writes; CSRS and CSRC write old or a, old and not a. -/
def Sys2Proof.Claims.CsrWords : Prop := ∀ d a n : Nat,
  (∀ s o t t', prep { d := wr .x d, dd := true } s = .ok (o, t) → s.csrLegal n false = .ok () → t.csrWait t.cur n = .ok () →
    (t.csrRead t.cur n).1.putX t.cur o d (t.csrRead t.cur n).2 = .ok t' → exec (.csrr d n) s = .next (t'.advance s.cur)) ∧
  (∀ s o t, prep (rr 0 a) s = .ok (o, t) → s.csrLegal n true = .ok () → t.csrWait t.cur n = .ok () → o.m.dst = 0 →
    exec (.csrw 0 a n) s = .next ((t.csrWrite t.cur n o.a).advance s.cur)) ∧
  (∀ e ∈ ([(.csrs d a n, fun old x => old ||| x), (.csrc d a n, fun old x => old &&& (18446744073709551615 - x)),
           (.csrw d a n, fun _ x => x)] : List (Instr × (Nat → Nat → Nat))),
    ∀ s o t t', prep (rr d a) s = .ok (o, t) → s.csrLegal n true = .ok () → t.csrWait t.cur n = .ok () → d ≠ 0 →
      ((t.csrRead t.cur n).1.csrWrite t.cur n (e.2 (t.csrRead t.cur n).2 o.a)).putX t.cur o d (t.csrRead t.cur n).2 = .ok t' →
      exec e.1 s = .next (t'.advance s.cur))

/-- R258, R415, R413, R418: an unassigned CSR number is ILLEGAL; a supervisor CSR at U, a hypervisor CSR below H and a write of CSR
0x009 at U are PRIV; both come before the causes of a stream that an operand names. -/
def Sys2Proof.Claims.CsrRefusals : Prop := ∀ (s : State) (n : Nat) (w : Bool),
  let x := s.ctx s.cur
  (csrKnown n = false → s.csrLegal n w = trap 1 0 s.ir.toNat) ∧
  (csrKnown n = true → ((x.level = .u ∧ 2048 ≤ n ∧ n ≤ 2303) ∨ (x.level ≠ .h ∧ 3072 ≤ n ∧ n ≤ 4095) ∨
      (x.level = .u ∧ n = 9 ∧ w = true)) → s.csrLegal n w = trap 2 0 s.ir.toNat) ∧
  (∀ d a : Nat, ∀ v why : Trap, prep (rr d a) s = .error (.trap v) → 4 < v.cause → s.csrLegal n true = .error (.trap why) →
    exec (.csrs d a n) s = .next (s.takeTrap s.cur why x.resume s.ir.toNat))

/-- R252 to R257: HINT.IMM and HINT.MOD, when the chain has room for them, keep their payload for the next word and remember where the
chain began; HINT.DLY delays the next issue, in timed exchange in place; HINT.PRF does nothing. -/
def Obligations.HintWords : Prop := ∀ s : State,
  let x := s.ctx s.cur
  s.bad = none →
  (x.chainImm = none → x.chainMod = none →
    exec .hintImm s = .next (s.setCtx s.cur { x with
      chainImm := some (s.ir.toNat % 4194304), chainPc := some x.resume, pc := x.pc + 4, st := .ready, wait := .none })) ∧
  (x.chainMod = none →
    exec .hintMod s = .next (s.setCtx s.cur { x with
      chainMod := some (s.ir.toNat % 4194304), chainPc := some x.resume, pc := x.pc + 4, st := .ready, wait := .none })) ∧
  (x.chainPc = none → exec .hintPrf s = .next (s.advance s.cur)) ∧
  (x.chainPc = none → (x.timed ≠ none ∨ s.ir.toNat % 4096 = 0) →
    exec .hintDly s = .next (s.setCtx s.cur { x with
      pc := x.pc + 4, resumeAt := 0, notBefore := max x.notBefore (s.cyc + s.ir.toNat % 4096 + 1) })) ∧
  (x.chainPc = none → x.timed = none → s.ir.toNat % 4096 ≠ 0 →
    exec .hintDly s = .next ((s.sleep s.cur .delay).after (s.ir.toNat % 4096 + 1) .delayExpiry { ctx := s.cur, ns := [x.waitNo + 1] }))

/-! ### The SYS group -/

/-- R282: NOP has no effect; YIELD without a ready sibling, or in timed exchange, is a NOP, and otherwise waits, by 11 cycles at most
(R285); JOINH of a provisioned number completes when the helper is free, its stores are performed and nothing is on its way to its
window, and waits until then (R78, R283). -/
def Sys2Proof.Claims.NopYieldJoin : Prop := ∀ n : Nat,
  let others (t : State) := t.cur.core.ctxs.filter fun o => o != t.cur && t.canIssue o
  Does .nop {} (fun _ _ => True) (fun _ t => t) ∧
  Does .yield {} (fun _ t => (t.ctx t.cur).timed.isSome ∨ others t = []) (fun _ t => t) ∧
  (∀ s o t, prep {} s = .ok (o, t) → (t.ctx t.cur).timed = none → others t ≠ [] →
    ∃ t' : State, exec .yield s = .next t' ∧ (t'.ctx s.cur).wait = .yield ∧ (t'.ctx s.cur).st = .waiting ∧
      (s.cyc + 11, .yieldEnd, { ctx := s.cur, ns := [(t'.ctx s.cur).waitNo] }) ∈ t'.agenda) ∧
  Does (.joinh n) {} (fun _ t => n ≠ t.cur.k ∧ n < t.nwin t.cur.core ∧ t.helperDone ⟨t.cur.core, n⟩ = true) (fun _ t => t) ∧
  (∀ s o t, prep {} s = .ok (o, t) → n ≠ t.cur.k → n < t.nwin t.cur.core → t.helperDone ⟨t.cur.core, n⟩ = false →
    (t.ctx t.cur).timed = none → exec (.joinh n) s = .next (s.sleep s.cur (.joinh n)))

/-- R282, R76, R412: START by context 0 of a provisioned helper that is free makes it ready at x[A], at the issuer's level and in its
address space, with its own vectors, x[B] in x2 and the parent's number in x3; without keep its other scalar registers and its CSRs
are zero. While a store or an atomic of the parent to the window has not been performed, the word waits. -/
def Sys2Proof.Claims.StartHelper : Prop := ∀ (a b n : Nat) (keep : Bool) (s : State) (o : Opnds) (t : State),
  prep { a := rd .x a, b := rd .x b, da := true, db := true } s = .ok (o, t) → Mem.wf t.mem = true →
  t.cur.k = 0 → n ≠ 0 → n < t.cur.core.kind.contexts → n < t.nwin t.cur.core → (t.ctx ⟨t.cur.core, n⟩).st = .free →
  let h : CtxId := ⟨t.cur.core, n⟩
  (t.windowIds t.cur h ≠ [] → (t.ctx t.cur).timed = none →
    exec (.start a b n keep) s = .next (s.sleepOr s.cur (.accesses (t.windowIds t.cur h)) 9)) ∧
  (t.windowIds t.cur h = [] → ∃ t' : State, exec (.start a b n keep) s = .next (t'.advance s.cur) ∧
    (t'.ctx h).st = .ready ∧ (t'.ctx h).pc = Word.ofN o.a ∧ (t'.ctx h).parent = 0 ∧
    (t'.ctx h).level = (t.ctx t.cur).level ∧ (t'.ctx h).asid = (t.ctx t.cur).asid ∧
    (t'.ctx h).trapS.vec = (t.ctx h).trapS.vec ∧ (t'.ctx h).trapH.vec = (t.ctx h).trapH.vec ∧
    t'.rx h 2 = uns o.b ∧ t'.rx h 3 = 0 ∧
    (keep = false → (t'.ctx h).fcsr = 0 ∧ (t'.ctx h).iflag = 0 ∧ (t'.ctx h).vstale = 0 ∧
      ∀ r, r < 32 → r ≠ 2 → r ≠ 3 → t'.rx h r = 0))

/-- R282, R283, R418: the WINDOW causes of START and JOINH. -/
def Sys2Proof.Claims.HelperMisuse : Prop := ∀ (a b n : Nat) (keep : Bool),
  let g : Sig := { a := rd .x a, b := rd .x b, da := true, db := true }
  Traps (.start a b n keep) g (fun _ t => t.cur.k ≠ 0) (fun _ _ => { cause := 10, detail := 2, val := n }) ∧
  Traps (.start a b n keep) g (fun _ t => t.cur.k = 0 ∧ (n = 0 ∨ t.cur.core.kind.contexts ≤ n ∨ t.nwin t.cur.core ≤ n))
    (fun _ _ => { cause := 10, detail := 1, val := n }) ∧
  Traps (.joinh n) {} (fun _ t => n = t.cur.k) (fun _ _ => { cause := 10, detail := 6, val := n })

/-- R284: HALT with no task, no open packet, its stores performed and, in context 0, its helpers free, makes the context free. -/
def Sys2Proof.Claims.HaltFrees : Prop := ∀ (s : State) (o : Opnds) (t : State), prep {} s = .ok (o, t) →
  (t.ctx t.cur).grant = none → (t.ctx t.cur).pkt = none → t.storesDone t.cur = true →
  (t.cur.k = 0 → ∀ h ∈ t.cur.core.ctxs, h ≠ t.cur → (t.ctx h).st = .free) →
  ∃ t' : State, exec .halt s = .next t' ∧ (t'.ctx s.cur).st = .free ∧ (t'.ctx s.cur).tgrp = 0

/-- R287, R411: TRAP, SCALL and BRK trap with their code, and the context will resume at the word after them. -/
def Obligations.TrapWords : Prop := ∀ e ∈ ([(.trap, 61), (.scall, 62), (.brk, 63)] : List (Instr × Nat)), ∀ s o t,
  prep {} s = .ok (o, t) →
  exec e.1 s = .next (s.takeTrap s.cur { cause := e.2, code := bits s.ir.toNat 15 6 } ((s.ctx s.cur).pc + 4) s.ir.toNat)

/-- R410, R411: what a trap saves and where it goes. At U it is handled at S; at S outside a handler at S too, but a SCALL or a trap
inside a handler at H; at H outside a handler at H. The record of the handling level takes the resume address, the cause with the
level before, the value and the information; INH is set and the old address space kept; the context is ready at the entry of its
vector, in the vector's address space. The information is the word, how far a group word had come, the FIELD and the DETAIL; DBL is set
in `hstat` by a trap inside a handler at S, which H takes, and is otherwise as it was. -/
def Sys2Proof.Claims.TrapEntry : Prop := ∀ (s : State) (c : CtxId) (w : Trap) (resume : Word) (insn : Nat) (lv : Level),
  let x := s.ctx c
  (x.level = .u ∧ lv = .s ∨ x.level = .s ∧ w.cause ≠ 62 ∧ x.trapS.inh = false ∧ lv = .s ∨
    x.level = .s ∧ (w.cause = 62 ∨ x.trapS.inh = true) ∧ lv = .h ∨ x.level = .h ∧ x.trapH.inh = false ∧ lv = .h) →
  let old := if lv = .h then x.trapH else x.trapS
  let y := (s.takeTrap c w resume insn).ctx c
  let r := if lv = .h then y.trapH else y.trapS
  y.level = lv ∧ y.st = .ready ∧ y.pc = old.entry w.cause ∧ y.asid = BitVec.ofNat 16 (bits old.vec.toNat 63 48) ∧
  r.epc = resume ∧ r.cause = w.causeWord x.level ∧ r.val = Word.ofN w.val ∧ bit r.stat.toNat 0 = true ∧
  (let prog := if w.async = true ∧ w.prog = 0 then x.resumeAt else w.prog
   r.info = Word.ofN (w.insn.getD insn + prog * 2 ^ 32 + w.field * 2 ^ 37 + w.detail * 2 ^ 40)) ∧
  bit r.stat.toNat 1 = (bit old.stat.toNat 1 || decide (lv = .h ∧ x.level = .s ∧ w.cause ≠ 62)) ∧
  bits r.stat.toNat 31 16 = x.asid.toNat ∧ r.vec = old.vec ∧ r.scr = old.scr ∧
  y.chainImm = none ∧ y.chainMod = none ∧ y.chainPc = none

/-- R410: a trap at H inside a handler stops the context for good, with its record in BAR 0 and MSI-X vector 2. -/
def Sys2Proof.Claims.FatalTrap : Prop := ∀ (s : State) (c : CtxId) (w : Trap) (resume : Word) (insn : Nat), Mem.wf s.mem = true →
  (s.ctx c).level = .h → (s.ctx c).trapH.inh = true →
  let t := s.takeTrap c w resume insn
  (t.ctx c).st = .stopped ∧ t.msix = s.msix ++ [2] ∧
  Mem.read t.mem (hostBase + 256) 8 = (w.causeWord .h).toNat ∧ Mem.read t.mem (hostBase + 264) 8 = resume.toNat ∧
  Mem.read t.mem (hostBase + 272) 8 = uns w.val

/-- R414: ERET in a handler returns to the level, the address space and the address of the level's record, and clears INH; outside a
handler, or to a level above, it is ILLEGAL; at U it is PRIV. -/
def Obligations.ReturnFromTrap : Prop :=
  (∀ (s : State) (o : Opnds) (t : State), prep { level := .s } s = .ok (o, t) →
    let x := t.ctx t.cur
    let r := if x.level = .h then x.trapH else x.trapS
    let plv := bits r.cause.toNat 23 22
    (bit r.stat.toNat 0 = true → plv ≤ x.level.code → plv ≠ 3 →
      ∃ t' : State, exec .eret s = .next t' ∧ (t'.ctx s.cur).level.code = plv ∧ (t'.ctx s.cur).pc = r.epc ∧
        (t'.ctx s.cur).asid = BitVec.ofNat 16 (bits r.stat.toNat 31 16) ∧
        bit (if x.level = .h then (t'.ctx s.cur).trapH else (t'.ctx s.cur).trapS).stat.toNat 0 = false)) ∧
  Traps .eret { level := .s } (fun _ t =>
      let x := t.ctx t.cur
      let r := if x.level = .h then x.trapH else x.trapS
      bit r.stat.toNat 0 = false ∨ x.level.code < bits r.cause.toNat 23 22)
    (fun _ t => { cause := 1, val := t.ir.toNat }) ∧
  (∀ s : State, s.bad = none → (s.ctx s.cur).level = .u → (s.ctx s.cur).chainImm = none → (s.ctx s.cur).chainMod = none →
    exec .eret s = .next (s.takeTrap s.cur { cause := 2, val := s.ir.toNat } (s.ctx s.cur).resume s.ir.toNat))

/-- R286, R288, R292: WFI with a cause returns its mask and clears the notices, and without one it waits; PGATE of a cluster that it
may name returns the state before and leaves a gate pending; TLBINV removes entries by address space, by page and all. -/
def Sys2Proof.Claims.SupervisorWords : Prop := ∀ d a b : Nat,
  (∀ s o t t', prep { rr d a with level := .s } s = .ok (o, t) → t.wfiMask t.cur false ≠ 0 →
    (t.setCtx t.cur (t.ctx t.cur).wfiClear).putX t.cur o d (t.wfiMask t.cur false) = .ok t' →
    exec (.wfi d a) s = .next (t'.advance s.cur)) ∧
  (∀ s o t, prep { rr d a with level := .s } s = .ok (o, t) → t.wfiMask t.cur false = 0 → (t.ctx t.cur).timed = none →
    (t.ctx t.cur).st ≠ .waiting →
    ∃ t' : State, exec (.wfi d a) s = .next t' ∧ (t'.ctx s.cur).wait = .wfi ∧ (t'.ctx s.cur).st = .waiting) ∧
  (∀ s o t t', prep { rr d a with level := .s } s = .ok (o, t) → o.a < 4096 →
    let p := bits o.a 11 9
    let k := clusterNo p (bits o.a 8 4) (bits o.a 3 0)
    enabled p (bits o.a 8 4) (bits o.a 3 0) = true → t.mayReach t.cur p = true →
    ((t.cluster k).power = .gated → t.putX t.cur o d 2 = .ok t' → exec (.pgate d a) s = .next (t'.advance s.cur)) ∧
    ((t.cluster k).power ≠ .gated → (t.cluster k).gateReq = true → t.putX t.cur o d 1 = .ok t' →
      exec (.pgate d a) s = .next (t'.advance s.cur)) ∧
    ((t.cluster k).power ≠ .gated → (t.cluster k).gateReq = false →
      ((t.setCluster k { t.cluster k with gateReq := true }).after 1 .clusterGate { ns := [k] }).putX t.cur o d 0 = .ok t' →
      exec (.pgate d a) s = .next (t'.advance s.cur))) ∧
  Does (.tlbinvAsid b) { b := rd .x b, db := true, scope := true, level := .s } (fun o t => o.releases t t.cur = [])
    (fun o t => t.tlbDrop fun e => e.asid % 65536 == o.b % 65536) ∧
  Does (.tlbinvPage a b) { a := rd .x a, b := rd .x b, da := true, db := true, scope := true, level := .s } (fun o t => o.releases t t.cur = [])
    (fun o t => t.tlbDrop fun e => e.maps (o.b % 65536) (bits o.a 47 0)) ∧
  Does .tlbinvAll { scope := true, level := .s } (fun o t => o.releases t t.cur = []) (fun _ t => t.tlbDrop fun _ => true)

/-- R289, R290, R355, R465: CSTOP, CRESUME and FENCE.X of a target that they may name wait for the acknowledgement, and the request is
on its way to the target's core, where it comes behind the accesses of the release order of CSTOP and CRESUME; the acknowledgement
ends the wait, and for a FENCE.X it is a snapshot boundary of the issuer (R153). -/
def Obligations.StopRequests : Prop := ∀ (a b kind : Nat) (s : State) (o : Opnds) (t : State) (u : CoreId),
  let g : Sig := { a := rd .x a, b := rd .x b, da := true, db := true, scope := decide (kind ≠ 2), level := if kind = 2 then .u else .s }
  let i : Instr := if kind = 0 then .cstop a b else if kind = 1 then .cresume a b else .fenceX a b
  kind < 3 → prep g s = .ok (o, t) → (t.ctx t.cur).timed = none → t.target t.cur o.a o.b (kind == 2) = .ok u →
  exec i s = .next (t.request t.cur kind u o.b (if kind = 2 then [] else o.releases t t.cur)) ∧
  ∀ r : State, r.arg.ctx = s.cur → r.n 0 = kind → (r.ctx s.cur).st = .waiting → r.n 1 = (r.ctx s.cur).waitNo →
    exec .stopAckArrival r = .next ((if kind = 2 then r.snapBoundary s.cur else r).wake s.cur)

/-- R291, R209: LAUNCH and QPOST of a well-formed command block in the issuer's own memory, at S or above or at U with LPERM, wait for
the news that the command is queued, and the command is on its way to its processor. Here the status address is 0 or translates, and
the header of a LAUNCH likewise. -/
def Sys2Proof.Claims.CommandWords : Prop := ∀ (a : Nat) (launch : Bool) (s : State) (o : Opnds) (t : State) (ws : List Nat),
  let w (i : Nat) := ws.getD i 0
  let x := t.ctx t.cur
  let part := (t.partOf t.cur).getD ((t.partition (firstPylon (bits (w 5) 15 8))).getD 8)
  let asid := if x.level ≠ .u then w 3 % 65536 + 65536 * part else t.spaceOf t.cur
  let t1 := if x.level ≠ .u then t.nameSpace asid (w 4) part else t
  prep { a := rd .x a, da := true, scope := true } s = .ok (o, t) → t.ownWords t.cur o.a 64 = .ok ws → x.timed = none →
  ((s.ctx s.cur).level ≠ .u ∨ (s.launchOf s.cur.core).elim false (·.lperm) = true) → blockBad w = false →
  (if launch then w 5 % 4 = 0 else w 5 % 4 = 1 ∨ w 5 % 4 = 2) → w 2 % 8 = 0 →
  ∀ t2, (w 2 = 0 ∧ t2 = t1 ∨ w 2 ≠ 0 ∧ ∃ k, t1.cmdPlace asid (w 2) true = .ok (t2, k)) →
  (launch = false ∨ w 0 = 0 ∨ (w 0 + 16) % 8 = 0 ∧ ∃ r, t2.cmdPlace asid (w 0 + 16) false = .ok r) →
  ∃ t' : State, exec (if launch then .launch a else .qpost a) s = .next t' ∧ (t'.ctx s.cur).wait = .command ∧
    ∃ e ∈ t'.agenda, e.2.1 = .commandBlockArrival ∧ e.2.2.ctx = s.cur ∧ e.2.2.ns.getD 1 0 = (t'.ctx s.cur).waitNo ∧
      e.2.2.ns.getD 4 0 = w 0 ∧ e.2.2.ns.getD 5 0 = w 1 ∧ e.2.2.ns.getD 6 0 = w 2


/-! ### Memory words -/

/-- R349, R350, R147, R148, R255, R81: LD of a place that `aim` finds. At the issuer's own pool, window or memory, with nothing on its
way that the load has to follow there, x[D] takes the bytes, little-endian, sign-extended or not, and nothing else of memory changes; a
link's value sets off at once; a poisoned unit leaves x[D] and pends ECC. At the own window a load that has to follow something waits in
its word (log 79, DEDUCED); elsewhere it is sent, with x[D] or the link as its destination. -/
def Obligations.ScalarLoads : Prop := ∀ (d a : Nat) (k : AccKind) (sz : Nat) (sg : Bool) (off : Nat) (s : State) (o : Opnds) (t : State)
    (p : Place),
  let g : Sig := { d := wr .x d, a := rd .x a, dd := true, imm := true, deck := !spanKind k, svc := !spanKind k }
  let c := t.cur
  let n := 2 ^ sz
  let ea := (Word.ofI ((o.a : Int) + offM o off sz)).toNat
  let f : Access := { id := 0, ctx := c, act := .load, kind := k, key := p.key, va := ea, n := n, lat := p.lat, ea := ea, post := if sg then 1 else 0,
                      word := t.ir.toNat, dcls := if o.m.dst ≠ 0 then 7 else if d = 0 then 0 else 1,
                      dreg := if o.m.dst ≠ 0 then o.m.dst else if d = 0 then 0 else d }
  let t0 := if o.m.dst = 0 ∧ d ≠ 0 then t.cancel c 1 d else t
  let got := t0.rdMem p.key n
  prep g s = .ok (o, t) → t.aim c ea n 0 n k false (sz == 3) = .ok p → t.loadAim c p f = .ok () →
  (o.m.dst = 0 → p.near c = true → t0.ahead f = [] →
    (t0.poisoned p.key n = none → ∃ t' : State, exec (.ld d a k sz sg off) s = .next t' ∧
      t'.mem = ((t0.markSeen c p.key n).wx c d (if sg then (Word.ofI (sext got (8 * n))).toNat else got)).mem) ∧
    (t0.poisoned p.key n ≠ none → ∃ t' : State, exec (.ld d a k sz sg off) s = .next t' ∧
      t' = (t0.pendAsync c { cause := 20, detail := if d = 0 then 0 else 64 + d, val := ea, async := true }).advance s.cur)) ∧
  (o.m.dst ≠ 0 → p.near c = true → t0.ahead f = [] → t0.poisoned p.key n = none →
    exec (.ld d a k sz sg off) s = .next (((t0.markSeen c p.key n).loadNow f got 4).advance s.cur)) ∧
  (p.near c = true → t0.ahead f ≠ [] → t0.ownWindow c p.key = true →
    exec (.ld d a k sz sg off) s = .next (s.sleepOr s.cur (.accesses (t0.ahead f)) 9)) ∧
  ((p.near c = false ∨ t0.ahead f ≠ [] ∧ t0.ownWindow c p.key = false) →
    exec (.ld d a k sz sg off) s = .next ((t0.load c p f).advance s.cur))

/-- R349, R350, R163, R165, R148, R122, R81: ST of the low bytes of x[D] to a place that `aim` finds. A near place has them at once, when
nothing is on its way that the store has to follow there; at the own window it waits in its word for that (log 79, DEDUCED). A deferred
store enters the publish buffer; an anchored one in SNAP mode the loan's buffer, which with the atomics under way holds 512 doublewords
at most; every other is sent, an eager or unbuffered anchored one behind what the publish buffer holds of the doublewords it reaches,
which leaves the buffer as stores of its own. -/
def Obligations.ScalarStores : Prop := ∀ (d a : Nat) (k : AccKind) (sz off : Nat) (s : State) (o : Opnds) (t : State) (p : Place),
  let g : Sig := { d := rd .x d, a := rd .x a, dd := true, imm := true, deck := !spanKind k, svc := !spanKind k }
  let c := t.cur
  let x := t.ctx c
  let n := 2 ^ sz
  let ea := (Word.ofI ((o.a : Int) + offM o off sz)).toNat
  let v := o.d % 2 ^ (8 * n)
  let f : Access := { id := 0, ctx := c, act := .store, kind := k, key := p.key, va := ea, n := n, lat := p.lat, ea := ea, val := v, mask := 2 ^ n - 1 }
  let away := p.near c = false ∨ t.ahead f ≠ [] ∧ t.ownWindow c p.key = false
  prep g s = .ok (o, t) → t.aim c ea n 0 n k true (sz == 3) = .ok p →
  (p.near c = true → t.ahead f = [] → ∃ t' : State, exec (.st d a k sz off) s = .next t' ∧
    t'.mem = ((t.signStore c v).wrMem p.key n v (2 ^ n - 1) (some c)).mem) ∧
  (p.near c = true → t.ahead f ≠ [] → t.ownWindow c p.key = true →
    exec (.st d a k sz off) s = .next (s.sleepOr s.cur (.accesses (t.ahead f)) 9)) ∧
  (away → k = .g →
    exec (.st d a k sz off) s =
      .next (((t.setCtx c { x.coverLoan p.key n (2 ^ n - 1) with
                            publish := heldPut x.publish p.key ea n v (2 ^ n - 1) }).unsnap c p.key n (2 ^ n - 1)).advance s.cur)) ∧
  (∀ gr, away → k = .a → x.grant = some gr → gr.snap = true → t.anchBusy c p.key n = [] →
    t.bufferNeed c (heldPut gr.buf p.key ea n v (2 ^ n - 1)) ≤ 512 →
    exec (.st d a k sz off) s =
      .next ((t.setCtx c { x.coverHeld p.key n (2 ^ n - 1) with
                           grant := some { gr with buf := heldPut gr.buf p.key ea n v (2 ^ n - 1) } }).advance s.cur)) ∧
  (∀ gr, away → k = .a → x.grant = some gr → gr.snap = true → t.anchBusy c p.key n = [] →
    512 < t.bufferNeed c (heldPut gr.buf p.key ea n v (2 ^ n - 1)) →
    exec (.st d a k sz off) s =
      .next (s.takeTrap s.cur { cause := 54, detail := 9, val := ea } (s.ctx s.cur).resume s.ir.toNat)) ∧
  (away → k ≠ .g → (k = .a → x.grant.elim True fun gr => gr.snap = false) →
    ∃ t' f', exec (.st d a k sz off) s = .next t' ∧ f' ∈ t'.flight ∧ f'.ctx = c ∧ f'.act = .store ∧ f'.kind = k ∧ f'.key = p.key ∧
      f'.n = n ∧ f'.val = v ∧ f'.mask = 2 ^ n - 1 ∧ f'.performed = false) ∧
  (away → (k = .f ∧ p.home.isSome = true ∧ p.owner = none ∨ ∃ gr, k = .a ∧ x.grant = some gr ∧ gr.snap = false) →
    (∃ u : State, u = (if k = .f then t.setCtx c (x.coverLoan p.key n (2 ^ n - 1)) else t) ∧
      exec (.st d a k sz off) s = .next (((u.flushRange c p.key n (2 ^ n - 1)).send f).advance s.cur)) ∧
    (∀ h ∈ x.publish, reachesWord h.key p.key n (2 ^ n - 1) = true →
      ∃ t' g, exec (.st d a k sz off) s = .next t' ∧ g ∈ t'.flight ∧ g.ctx = c ∧ g.act = .store ∧ g.kind = .g ∧ g.key = h.key ∧
        g.val = h.val ∧ g.mask = h.mask ∧ h ∉ (t'.ctx c).publish))

/-- R80, R153, R165: what writing n bytes of an array that holds no registered counter does: they read back, every other byte of memory
is as it was; the doubleword at offset 0 of a provisioned window takes nothing and reads as zero. -/
def Obligations.MemoryWrites : Prop := ∀ (s : State) (key n v mask : Nat) (w : Option CtxId), Mem.wf s.mem = true →
  (isDevice key = false ∨ (s.home (homeOf key)).regs = []) →
  let t := s.wrMem key n v mask w
  (∀ a, a < key ∨ key + n ≤ a → Mem.get t.mem a = Mem.get s.mem a) ∧
  (∀ j, j < n → bit mask j = false → Mem.get t.mem (key + j) = Mem.get s.mem (key + j)) ∧
  (s.hardZero key = false → mask = 2 ^ n - 1 → t.rdMem key n = v % 2 ^ (8 * n)) ∧
  (s.hardZero key = true → n ≤ 8 → t.rdMem key n = 0 ∧ (mask < 256 → t.mem = s.mem)) ∧
  (∀ c, (t.ctx c).pc = (s.ctx c).pc ∧ (t.ctx c).level = (s.ctx c).level ∧ (t.ctx c).fcsr = (s.ctx c).fcsr)

namespace Sys2Proof.Claims
/-- The new doubleword of an atomic, or none (R351): its number, old value, operand and comparand. -/
def atomics (d a b ord scope : Nat) (anch : Bool) : List (Instr × Nat × (Nat → Nat → Nat → Option Nat)) :=
  [(.aadd d a b ord scope anch, 0, fun m x _ => some (uns (m + x))),
   (.aand d a b ord scope anch, 1, fun m x _ => some (m &&& x)), (.aor d a b ord scope anch, 2, fun m x _ => some (m ||| x)),
   (.axor d a b ord scope anch, 3, fun m x _ => some (m ^^^ x)),
   (.amin d a b ord scope anch, 4, fun m x _ => some (if sgn x < sgn m then x else m)),
   (.amax d a b ord scope anch, 5, fun m x _ => some (if sgn m < sgn x then x else m)),
   (.aminu d a b ord scope anch, 6, fun m x _ => some (Nat.min m x)), (.amaxu d a b ord scope anch, 7, fun m x _ => some (Nat.max m x)),
   (.aswp d a b ord scope anch, 8, fun _ x _ => some x),
   (.acas d a b ord scope anch, 9, fun m x z => if m = z then some x else none),
   (.ainc d a ord scope anch, 10, fun m _ _ => some (uns (m + 1))),
   (.afadd d a b ord scope anch, 11, fun m x _ => some (afaddLane (m % 4294967296) (x % 4294967296) +
     afaddLane (m / 4294967296) (x / 4294967296) * 4294967296))]
/-- The fields of an atomic. -/
def atomicSig (f d a b : Nat) : Sig :=
  { d := if f = 9 then rw .x d else wr .x d, a := rd .x a, b := if f = 10 then none else rd .x b, scope := true }
end Sys2Proof.Claims

/-- R351, R352, R169, R148, R170: an atomic of a near doubleword, with nothing that must be performed first, returns the old doubleword in
x[D] and writes the new one, and nothing else of memory changes; at the own window it waits in its word for what must be performed first
(log 79, DEDUCED); elsewhere, outside a loan in SNAP mode, it is sent with its function, operand and comparand, behind what it has to
follow and what a release of it waits for. -/
def Obligations.AtomicWords : Prop := ∀ (d a b ord scope : Nat) (anch : Bool), ∀ e ∈ atomics d a b ord scope anch,
  ∀ (s : State) (o : Opnds) (t : State) (p : Place),
  let c := t.cur
  let sc := if o.m.scope = 0 then scope else o.m.scope - 1
  let k := amoKind o.a anch (c.core.kind == .service)
  let ids := if ord % 2 = 1 then t.releaseIds c (sc == 4) else []
  let f : Access := { id := 0, ctx := c, act := .atomic e.2.1, kind := k, key := p.key, va := o.a, n := 8, lat := p.lat, ea := o.a, val := o.b, cmp := o.d,
                      scope := sc, acq := decide (2 ≤ ord), rel := decide (ord % 2 = 1), after := ids
                      dcls := if d = 0 then 0 else 1, dreg := d, asid := t.spaceOf c }
  let old := t.rdMem p.key 8
  prep (atomicSig e.2.1 d a b) s = .ok (o, t) → t.aim c o.a 8 0 8 k true false = .ok p →
  (p.near c = true → t.ahead f = [] → ids = [] → (t.ownWindow c p.key = true → t.incoming c p.key 8 true = none) →
    t.poisoned p.key 8 = none →
    ∃ t' : State, exec e.1 s = .next t' ∧
      t'.mem = ((match e.2.2 old o.b o.d with
        | some v => (t.markSeen c p.key 8).wrMem p.key 8 v 255 (some c)
        | none => t.markSeen c p.key 8).wx c d old).mem) ∧
  (p.near c = true → t.ownWindow c p.key = true → (t.ahead f ≠ [] ∨ ids ≠ []) →
    exec e.1 s = .next (s.sleepOr s.cur (.accesses (if t.ahead f = [] then ids else t.ahead f)) 9)) ∧
  ((p.near c = false ∨ t.ahead f ≠ [] ∨ ids ≠ []) → t.ownWindow c p.key = false →
    (k = .a → (t.ctx c).grant.elim True fun gr => gr.snap = false) →
    ∃ t' f', exec e.1 s = .next t' ∧ f' ∈ t'.flight ∧ f'.ctx = c ∧ f'.act = .atomic e.2.1 ∧ f'.kind = k ∧ f'.key = p.key ∧ f'.n = 8 ∧
      f'.val = o.b ∧ f'.cmp = o.d ∧ f'.acq = decide (2 ≤ ord) ∧ f'.performed = false ∧
      (∀ i ∈ ids, i ∈ f'.after) ∧ (∀ h ∈ t.flight, h.before f = true → h.id ∈ f'.after) ∧ (d ≠ 0 → f'.dcls = 1 ∧ f'.dreg = d))

/-- R415, R418, R425: the causes of an access found before it is sent, in their order: control space at U, and a write at S of a word that
only H may write, is PRIV, then a misaligned
address is ALIGN, then for an access that is not a doubleword to control space ACCESS 3; reserved spaces and reserved bits of space
0x0 are ACCESS 4, a kind that the space does not take ACCESS 3. -/
def Obligations.AccessCauses : Prop := ∀ (t : State) (c : CtxId) (va n : Nat) (k : AccKind) (wr ctl : Bool), k ≠ .w → k ≠ .a →
  let sp := bits va 63 60
  let hOnly := wr = true ∧ (t.ctx c).level = .s ∧ ctlHOnly (bits va 59 0) = true
  (sp = 15 → ((t.ctx c).level = .u ∨ hOnly) → t.aim c va n 0 n k wr ctl = trap 2 0 t.ir.toNat) ∧
  (¬ (sp = 15 ∧ ((t.ctx c).level = .u ∨ hOnly)) → va % n ≠ 0 → t.aim c va n 0 n k wr ctl = trap 5 0 va) ∧
  (sp = 15 → (t.ctx c).level ≠ .u → ¬ hOnly → va % n = 0 → ctl = false → t.aim c va n 0 n k wr ctl = trap 17 3 va) ∧
  (sp ∈ [1, 2, 3, 9, 10, 11, 13, 14] → va % n = 0 → t.aim c va n 0 n k wr ctl = trap 17 4 va) ∧
  (sp = 0 → va % n = 0 → bits va 59 48 ≠ 0 → t.aim c va n 0 n k wr ctl = trap 17 4 va) ∧
  (sp = 0 → va % n = 0 → bits va 59 48 = 0 → k ≠ .g → k ≠ .f → (k ≠ .v ∨ wr = true) →
    t.aim c va n 0 n k wr ctl = trap 17 3 va)

/-- R160, R193, R351, R398, R140, R216, R457: ACCESS_AT_ORDERING_POINT. An access waits a cycle while one that comes before it is on its way.
At a cluster without power it waits too, and asks for the cluster's wake if none is under way; at a failed one it fails with POOL_HOLE 6.
A write that a refresh holds waits for the release. Then a store is performed: its bytes are written and its acknowledgement set off; an
atomic writes its new doubleword and its old one sets off, at an empty row as elsewhere (log 27, DEDUCED); a load takes its value; a load
of an empty row is parked. -/
def Obligations.OrderingPoint : Prop := ∀ (s : State) (f : Access), s.access (s.n 0) = some f → f.performed = false →
  let pw := (placeCluster f.key).elim Power.awake fun k => (s.cluster k).power
  let reach := s.waitsFor f.ctx.core f.after = false ∧ (f.act = .store ∨ s.rowSoon (f.key / 2048 * 2048) = false) ∧
    s.contended f.key (some f.ctx) = false ∧ (keyPylon f.key).any s.off = false
  let free := reach ∧ pw = .awake ∧ f.key < ctlBase
  let hold := if f.isLoad then none else s.holdOf f.key f.n
  (s.waitsFor f.ctx.core f.after = true →
    exec .accessAtOrderingPoint s = .next (s.after 1 .accessAtOrderingPoint s.arg)) ∧
  (∀ k, reach → placeCluster f.key = some k → (s.cluster k).power = .gated →
    exec .accessAtOrderingPoint s = .next ((s.wakeCluster k).after 1 .accessAtOrderingPoint s.arg)) ∧
  (∀ k b, reach → placeCluster f.key = some k → (s.cluster k).power = .waking b →
    exec .accessAtOrderingPoint s = .next (s.after 1 .accessAtOrderingPoint s.arg)) ∧
  (∀ k, reach → placeCluster f.key = some k → (s.cluster k).power = .failed →
    exec .accessAtOrderingPoint s = .next (s.failAccess f { cause := 18, detail := 6, val := f.ea })) ∧
  (∀ mid, free → hold = some mid → exec .accessAtOrderingPoint s = .next (s.holdWrite mid .accessAtOrderingPoint)) ∧
  (free → hold = none → f.act = .store →
    let mask := if f.mask = 0 then 2 ^ f.n - 1 else f.mask
    exec .accessAtOrderingPoint s =
      .next ((((s.signStore f.ctx f.val).wrMem f.key f.n f.val mask (some f.ctx)).unsnap f.ctx f.key f.n mask).performed f 0)) ∧
  (∀ fn, free → hold = none → f.act = .atomic fn → f.kind ≠ .a → s.poisoned f.key 8 = none →
    ∃ t' : State, exec .accessAtOrderingPoint s = .next (t'.performed f (s.rdMem f.key 8)) ∧
      t' = match amoNew fn (s.rdMem f.key 8) f.val f.cmp with
        | some v => ((s.markSeen f.ctx f.key 8).wrMem f.key 8 v 255 (some f.ctx)).unsnap f.ctx f.key 8 255
        | none => s.markSeen f.ctx f.key 8) ∧
  (free → f.act = .load → f.kind ≠ .v → s.emptyRow f.key = true →
    ∃ t' g, exec .accessAtOrderingPoint s = .next t' ∧ g ∈ t'.flight ∧ g.id = f.id ∧ g.parked = true ∧ g.performed = false ∧
      t'.mem = s.mem) ∧
  (free → f.act = .load → f.kind ≠ .v → s.emptyRow f.key = false → s.hitsPoison f = none →
    ∃ t' g, exec .accessAtOrderingPoint s = .next t' ∧ g ∈ t'.flight ∧ g.id = f.id ∧ g.performed = true ∧
      g.got = (s.overlay f (s.rdMem f.key f.n)).1 ∧ t'.mem = s.mem)

/-! ### Synchronisation, tasks and messages -/

namespace Sys2Proof.Claims
/-- The context is free to arrive at the next barrier of a domain of a launch (R90, R356, R454): its core is a member of the declared
domain, no PARRIVE of it is outstanding, and it is not in timed exchange. -/
def mayArrive (t : State) (l : Launch) (dom : Nat) : Prop :=
  t.launchOf t.cur.core = some l ∧ (dom = 0 ∨ bit l.dmask dom = true) ∧ bit (t.core t.cur.core).memb.toNat dom = true ∧
  (t.ctx t.cur).parrive = none ∧ (t.ctx t.cur).timed = none
/-- The domain of an arrival: explicit, or the core's current one (R357). -/
def domain (ex : Bool) (o : Opnds) (t : State) : Nat := if ex then o.b % 64 else (t.core t.cur.core).bdom
end Sys2Proof.Claims

/-- R356, R359, R360: PHASE arrives at the next barrier of the domain and waits for its release; PARRIVE arrives and goes on, and is
outstanding; XBEGIN, on a pylon domain and once for the core, arrives as PHASE does and will enter timed exchange; PREDUCE arrives with
the place of its payload, whose 64 bytes its core's arrival reads. -/
def Obligations.ArrivalWords : Prop := ∀ (a b ty op : Nat) (ex : Bool) (l : Launch),
  let bar (o : Opnds) (t : State) := Tab.get l.barriers (domain ex o t) {}
  let arm (dom : Nat) (x : Barrier) := { l with barriers := Tab.set l.barriers dom x }
  Leaves (.phase b ex) (phaseSig b ex) (fun o t => mayArrive t l (domain ex o t))
    (fun o t => (t.arrive t.cur l (domain ex o t)).sleep t.cur (.barrier (domain ex o t) false)) ∧
  Does (.parrive b ex) (phaseSig b ex) (fun o t => mayArrive t l (domain ex o t))
    (fun o t => (t.setCtx t.cur { t.ctx t.cur with parrive := some (domain ex o t, false) }).arrive t.cur l (domain ex o t)) ∧
  Leaves (.xbegin b ex) { phaseSig b ex with deck := false }
    (fun o t => mayArrive t l (domain ex o t) ∧ l.pylonDomain (domain ex o t) = true ∧ (bar o t).timed t.cur.core = false)
    (fun o t => (t.arrive t.cur (arm (domain ex o t) ((bar o t).addTimed t.cur.core))
      (domain ex o t)).sleep t.cur (.barrier (domain ex o t) true)) ∧
  (∀ s o t key, prep { phaseSig b ex with a := rd .x a, da := true } s = .ok (o, t) → mayArrive t l (domain ex o t) →
    t.payloadKey t.cur o.a = .ok key →
    exec (.preduce a b ex ty op) s = .next ((t.arrive t.cur (arm (domain ex o t) ((bar o t).addContrib t.cur.core
      { ctx := t.cur, op := op, ty := ty, key := key, va := o.a }))
      (domain ex o t)).sleep t.cur (.barrier (domain ex o t) false)))

/-- R454: BARRIER DETAIL 1 for an undeclared domain, 2 for a core that is no member, 4 for an arrival with a PARRIVE outstanding and
for PWAIT with none to wait for or to arrive again, 3 for XBEGIN on a domain that is no pylon domain. -/
def Sys2Proof.Claims.BarrierCauses : Prop := ∀ (b : Nat) (ex : Bool) (l : Launch),
  (∀ e ∈ ([(.phase b ex, phaseSig b ex), (.parrive b ex, phaseSig b ex),
           (.xbegin b ex, { phaseSig b ex with deck := false })] : List (Instr × Sig)),
    Traps e.1 e.2 (fun o t => t.launchOf t.cur.core = some l ∧ domain ex o t ≠ 0 ∧ bit l.dmask (domain ex o t) = false)
      (fun o t => { cause := 51, detail := 1, val := domain ex o t }) ∧
    Traps e.1 e.2 (fun o t => t.launchOf t.cur.core = some l ∧ (domain ex o t = 0 ∨ bit l.dmask (domain ex o t) = true) ∧
        bit (t.core t.cur.core).memb.toNat (domain ex o t) = false)
      (fun o t => { cause := 51, detail := 2, val := domain ex o t })) ∧
  (∀ e ∈ ([.phase b ex, .parrive b ex] : List Instr),
    Traps e (phaseSig b ex) (fun o t => t.launchOf t.cur.core = some l ∧ (domain ex o t = 0 ∨ bit l.dmask (domain ex o t) = true) ∧
        bit (t.core t.cur.core).memb.toNat (domain ex o t) = true ∧ (t.ctx t.cur).parrive ≠ none)
      (fun o t => { cause := 51, detail := 4, val := domain ex o t })) ∧
  Traps .pwait { svc := false } (fun _ t => (t.ctx t.cur).parrive = none ∧ (t.ctx t.cur).again = none)
    (fun _ t => { cause := 51, detail := 4, val := (t.core t.cur.core).bdom }) ∧
  Traps (.xbegin b ex) { phaseSig b ex with deck := false }
    (fun o t => mayArrive t l (domain ex o t) ∧ l.pylonDomain (domain ex o t) = false)
    (fun o t => { cause := 51, detail := 3, val := domain ex o t })

/-- R354, R356 to R359, R361 to R364, R177, R181, R182, R455: FENCE.O marks every access that it orders (which those are is log 75,
DEDUCED); SNAPINV passes a snapshot boundary; XEND leaves timed exchange; PWAIT completes once its barrier is released and waits until
then, and after a barrier that timed out it arrives afresh; BDOM sets the domain; BEXP posts the expectation and
registers its counter; MON of a near doubleword returns it and arms the entry; MWAIT returns the mask, an entry that was evicted among it (log 26, DEDUCED), disarms, and
passes a snapshot boundary if an entry fired on a copy's stamp, or waits; WAITT and EWAIT complete at once or wait. -/
def Obligations.SyncWords : Prop := ∀ d a b n : Nat,
  Does .fenceO {} (fun _ _ => True) (fun _ t => { t with flight := t.flight.map fun f =>
    if f.ctx = t.cur ∧ f.fenced = true then { f with fence := true } else f }) ∧
  Does .snapinv {} (fun _ _ => True) (fun _ t => t.snapBoundary t.cur) ∧
  Does .xend { deck := false, svc := false } (fun _ _ => True) (fun _ t => t.setCtx t.cur { t.ctx t.cur with timed := none }) ∧
  (∀ dom, Does .pwait { svc := false } (fun _ t => (t.ctx t.cur).parrive = some (dom, true))
    (fun _ t => t.setCtx t.cur { t.ctx t.cur with parrive := none })) ∧
  (∀ s o t dom, prep { svc := false } s = .ok (o, t) → (t.ctx t.cur).parrive = some (dom, false) → (s.ctx s.cur).timed = none →
    exec .pwait s = .next (s.sleep s.cur .pwait)) ∧
  (∀ dom l, Leaves .pwait { svc := false } (fun _ t => (t.ctx t.cur).again = some dom ∧ mayArrive t l dom)
    (fun _ t => ((t.setCtx t.cur { t.ctx t.cur with parrive := some (dom, false) }).arrive t.cur l dom).sleep t.cur .pwait)) ∧
  Does (.bdom a) { a := rd .x a, da := true, svc := false }
    (fun o t => ∀ l, t.launchOf t.cur.core = some l → o.a % 64 = 0 ∨ bit l.dmask (o.a % 64) = true)
    (fun o t => t.setCore t.cur.core { t.core t.cur.core with bdom := o.a % 64 }) ∧
  (∀ s o t l p, prep { a := rd .x a, b := rd .x b, da := true, db := true, scope := true, svc := false } s = .ok (o, t) →
    let dom := (t.core t.cur.core).bdom
    let bar := Tab.get l.barriers dom {}
    let v := Mem.read t.mem p.key 8
    let e : Expect := { core := t.cur.core, pa := p.key, thr := o.b, met := if o.b ≤ v then some t.cyc else none, at_ := t.cyc }
    t.launchOf t.cur.core = some l → (dom = 0 ∨ bit l.dmask dom = true) → bit (t.core t.cur.core).memb.toNat dom = true →
    bar.due = none → bar.sysArrived = false → (bar.exps.filter (·.core == t.cur.core)).length < 4 →
    t.aim t.cur o.a 8 0 8 .f false false = .ok p → o.releases t t.cur = [] →
    ∃ t' : State, exec (.bexp a b) s = .next (t'.advance s.cur) ∧ t'.mem = t.mem ∧
      t'.launches = (t.setLaunch { l with barriers := Tab.set l.barriers dom { bar with exps := bar.exps ++ [e] } }).launches ∧
      ({ pa := p.key, home := none, va := o.a, last := v } : Reg) ∈ (t'.home (homeOf p.key)).regs) ∧
  (∀ s o t p, n < 4 → prep { d := wr .x d, a := rd .x a, b := rd .x b, dd := true, da := true, db := true } s = .ok (o, t) →
    let k : AccKind := if bits o.a 63 60 = 4 ∨ bits o.a 63 60 = 5 ∨ bits o.a 63 60 = 12 then .l else .f
    t.aim t.cur o.a 8 0 8 k false false = .ok p → o.m.dst = 0 → p.near t.cur = true →
    (t.cancel t.cur 1 d).ahead {
      id := 0, ctx := t.cur, act := .mon n 0, kind := k, key := p.key, va := o.a, n := 8, lat := p.lat, ea := o.a
      dcls := if d = 0 then 0 else 1, dreg := d, asid := t.spaceOf t.cur } = [] → t.poisoned p.key 8 = none → o.b = 0 →
    (t.cluster t.cur.core.cluster).watchOrder.length < 32 →
    ∃ t' : State, exec (.mon d a b n) s = .next t' ∧ t'.mem = (t.wx t.cur d (t.rdMem p.key 8)).mem ∧
      ((t'.ctx s.cur).watchAt n) = { armed := true, key := p.key, va := o.a }) ∧
  (∀ s o t p, prep { d := wr .x d, a := rd .x a, b := rd .x b, dd := true, da := true, db := true } s = .ok (o, t) →
    let k : AccKind := if bits o.a 63 60 = 4 ∨ bits o.a 63 60 = 5 ∨ bits o.a 63 60 = 12 then .l else .f
    t.aim t.cur o.a 8 0 8 k false false = .ok p → p.near t.cur = false → o.m.dst = 0 →
    ∃ t' f, exec (.mon d a b n) s = .next t' ∧ f ∈ t'.flight ∧ f.ctx = t.cur ∧ f.key = p.key ∧ f.n = 8 ∧
      f.act = .mon n (if o.b = 0 then 0 else t.cyc + o.b) ∧ (d ≠ 0 → f.dcls = 1 ∧ f.dreg = d)) ∧
  (∀ s o t t', prep { d := wr .x d, dd := true } s = .ok (o, t) → t.mwaitDone t.cur = true →
    (let x := t.ctx t.cur
     let clr (w : Watch) : Watch := { w with fired := false, expired := false, evicted := false, mark := false }
     let u := t.setCtx t.cur { x with watch0 := clr x.watch0, watch1 := clr x.watch1, watch2 := clr x.watch2, watch3 := clr x.watch3,
                                      spurious := false }
     if (List.range 4).any fun n => (x.watchAt n).fired && (x.watchAt n).mark then u.snapBoundary t.cur else u).putX t.cur o d (t.ctx t.cur).watchMask = .ok t' →
    exec (.mwait d) s = .next (t'.advance s.cur)) ∧
  (∀ s o t, prep { d := wr .x d, dd := true } s = .ok (o, t) → t.mwaitDone t.cur = false → (s.ctx s.cur).timed = none →
    exec (.mwait d) s = .next (s.sleep s.cur .mwait)) ∧
  Does (.waitt a) { a := rd .x a, da := true } (fun o t => o.a ≤ t.cyc) (fun _ t => t) ∧
  Leaves (.waitt a) { a := rd .x a, da := true } (fun o t => t.cyc < o.a ∧ (t.ctx t.cur).timed = none)
    (fun o t => (t.sleep t.cur (.waitt o.a)).at_ o.a .waittExpiry { ctx := t.cur, ns := [(t.ctx t.cur).waitNo + 1] }) ∧
  Does (.ewait a) { other := 2, svc := false } (fun _ t => (t.ctx t.cur).raised = true) (fun _ t => t) ∧
  (let cl (t : State) := t.cluster t.cur.core.cluster
   Does (.ewait a) { other := 2, svc := false } (fun _ t => (t.ctx t.cur).raised = false ∧ Tab.get (cl t).ev a 0 ≠ 0)
    (fun _ t => t.setCluster t.cur.core.cluster { cl t with ev := Tab.set (cl t).ev a (Tab.get (cl t).ev a 0 - 1) }) ∧
   Leaves (.ewait a) { other := 2, svc := false }
    (fun _ t => (t.ctx t.cur).raised = false ∧ Tab.get (cl t).ev a 0 = 0 ∧ (t.ctx t.cur).timed = none)
    (fun _ t => (t.setCluster t.cur.core.cluster { cl t with evWait := (cl t).evWait ++ [(a, t.cur)] }).sleep t.cur (.ewait a)))

/-- R442, R418: the causes of a task's or call's descriptor, the lowest DETAIL first: a reserved mode, LEN8, a range over two granules,
reserved bits, the entry's alignment, that of an address, of which the first that is not aligned is named. -/
def Sys2Proof.Claims.AnchorCauses : Prop := ∀ (w0 w1 pc : Nat) (mode : Bool) (rest : List Nat) (vas : List (Nat × Nat)),
  let ava := bits w0 47 0
  let n := bits w0 59 48
  let r := anchorBad w0 w1 mode rest pc vas
  (mode = true → 2 ≤ bits w0 61 60 → r = trap 54 1 ava) ∧
  (let ok1 := mode = false ∨ bits w0 61 60 < 2
   (ok1 → n = 0 ∨ 2048 < n → r = trap 54 2 ava) ∧
   (let ok2 := ok1 ∧ 1 ≤ n ∧ n ≤ 2048
    (ok2 → ava / 16384 ≠ (ava + 8 * n - 1) / 16384 → r = trap 54 3 ava) ∧
    (let ok3 := ok2 ∧ ava / 16384 = (ava + 8 * n - 1) / 16384
     (ok3 → (bit w0 63 = true ∨ 128 ≤ w1 ∨ ∃ x ∈ rest, x ≠ 0) → r = trap 54 4 ava) ∧
     (let ok4 := ok3 ∧ bit w0 63 = false ∧ w1 < 128 ∧ ∀ x ∈ rest, x = 0
      (ok4 → pc % 4 ≠ 0 → r = trap 54 5 pc) ∧
      (ok4 → pc % 4 = 0 → (∀ e ∈ (ava, 8) :: vas, e.1 % e.2 = 0) → r = .ok ()) ∧
      (∀ pre e post, ok4 → pc % 4 = 0 → (ava, 8) :: vas = pre ++ e :: post → (∀ x ∈ pre, x.1 % x.2 = 0) → e.1 % e.2 ≠ 0 →
        r = trap 54 6 e.1)))))

/-- R365, R110, R369, R370: TPOST, TPOST.C within a granted task, and PCALL send what they have read to the home of the range, behind
what their release order covers; QINFO asks the home. -/
def Sys2Proof.Claims.PostingWords : Prop := ∀ (d a b : Nat) (child : Bool) (s : State) (o : Opnds) (t : State) (ws : List Nat) (p r : Place),
  let c := t.cur
  let w (i : Nat) := ws.getD i 0
  let gp : Sig := { a := rd .x a, b := rd .x b, da := true, db := true, scope := true, svc := false }
  (∀ deps dk, prep gp s = .ok (o, t) → (child = true → (t.ctx c).grant ≠ none) → t.ownWords c o.a 128 = .ok ws →
    anchorBad (w 0) (w 1) true [] (w 2) ((w 7, 8) :: (upFrom 0 4).map fun j => (w (8 + 2 * j), 8)) = .ok () →
    t.aim c (bits (w 0) 47 0) 8 0 8 .f true false = .ok p → t.depPlaces c w (upFrom 0 4) = .ok deps →
    (w 7 = 0 ∧ dk = 0 ∨ w 7 ≠ 0 ∧ ∃ q, t.aim c (w 7) 8 0 8 .f true false = .ok q ∧ dk = q.key + 1) →
    exec (if child then .tpostC a b else .tpost a b) s = .next ((t.fresh.after (latHome c.core (homeOf p.key) / 2) .tpostArrival
      { ctx := c, ns := [homeOf p.key, o.b % 64, if child then 1 else 0, t.nextId, (t.core c.core).lid, p.key, dk,
        t.spaceOf c] ++ ws ++ [deps.length] ++ deps.flatMap (fun e => [e.1, e.2]) ++ o.releases t c }).advance s.cur)) ∧
  Traps (.tpostC a b) gp (fun _ t => (t.ctx t.cur).grant = none) (fun o _ => { cause := 53, detail := 2, val := o.b % 64 }) ∧
  (prep { a := rd .x a, da := true, scope := true, svc := false } s = .ok (o, t) → t.ownWords c o.a 64 = .ok ws →
    anchorBad (w 0) (w 1) false [w 6, w 7] 0 [(w 5, 2048)] = .ok () → t.aim c (bits (w 0) 47 0) 8 0 8 .f true false = .ok p →
    t.aim c (w 5) 8 0 8 .f true false = .ok r →
    (homeOf r.key ≠ homeOf p.key →
      exec (.pcall a) s = .next (s.takeTrap s.cur { cause := 54, detail := 10, val := w 5 } (s.ctx s.cur).resume s.ir.toNat)) ∧
    (homeOf r.key = homeOf p.key → (t.ctx c).timed = none →
      ∃ t' e, exec (.pcall a) s = .next t' ∧ (t'.ctx s.cur).wait = .pcall ∧ e ∈ t'.agenda ∧ e.2.1 = .pcallAccept ∧ e.2.2.ctx = c ∧
        e.1 = t.cyc + latHome c.core (homeOf p.key) / 2 ∧ e.2.2.ns.take 3 = [homeOf p.key, r.key, (t'.ctx s.cur).waitNo] ∧
        (e.2.2.ns.drop 5).take 6 = [p.key, bits (w 0) 59 48, w 1 % 64, w 2, w 3, w 4])) ∧
  (∀ h, prep { rrr d a b with svc := false } s = .ok (o, t) → t.namedHome c o.a = .ok h → o.m.dst = 0 → d ≠ 0 →
    ∃ t' f, exec (.qinfo d a b) s = .next t' ∧ f ∈ t'.flight ∧ f.ctx = c ∧ f.dcls = 1 ∧ f.dreg = d ∧ f.performed = true ∧
      (t.cyc + latHome c.core h / 2, .qinfoArrival, { ctx := c, ns := [h, o.b % 64, f.id] }) ∈ t'.agenda)

/-- R366 to R368, R116, R443: TSTEAL asks the home and waits, and traps QUEUE 3 while a task is held; TRET sends what the publish buffer
holds and then tells the home, which waits for what the task has stored, and traps QUEUE 4 without a task; TJOIN leaves the old group, if
there is one, and is on its way to the new one, has no effect within the same group, and traps QUEUE 1 when the group's members, holders
and joins under way (log 35, DEDUCED) are 64; TLEAVE leaves; TWAIT returns an offer that is held, or waits. -/
def Sys2Proof.Claims.StealWords : Prop := ∀ d a b : Nat,
  (∀ s o t h, prep { rrr d a b with scope := true, svc := false } s = .ok (o, t) → (t.ctx t.cur).grant = none → t.namedHome t.cur o.a = .ok h →
    (t.ctx t.cur).timed = none → t.sfuAim t.cur o.m.dst 0 t.cyc false = .ok () →
    exec (.tsteal d a b) s = .next ((t.sleep t.cur .tsteal).after (latHome t.cur.core h / 2) .tstealArrival
      { ctx := t.cur, ns := [h, o.b % 64, (t.ctx t.cur).waitNo + 1, o.a] })) ∧
  (∀ s o t g, prep { rrr d a b with scope := true, svc := false } s = .ok (o, t) → (t.ctx t.cur).grant = some g →
    exec (.tsteal d a b) s = .next (s.takeTrap s.cur { cause := 53, detail := 3, val := queueVal g.home g.queue }
      (s.ctx s.cur).resume s.ir.toNat)) ∧
  Traps .tret { svc := false } (fun _ t => (t.ctx t.cur).grant = none) (fun _ _ => { cause := 53, detail := 4, val := 0 }) ∧
  (∀ s o t g v, prep { svc := false } s = .ok (o, t) → (t.ctx t.cur).grant = some g → t.readReg t.cur ⟨.x, .read, 1⟩ = .ok v →
    (t.ctx t.cur).timed = none →
    let u := (t.boundary t.cur).sleep t.cur .tret
    exec .tret s = .next (u.after (latHome t.cur.core g.home / 2) .tretArrival
      { ctx := t.cur, ns := [g.home, g.queue, g.seq, (u.ctx t.cur).waitNo, 0] ++ u.taskIds t.cur })) ∧
  (∀ s o t h, prep { a := rd .x a, b := rd .x b, da := true, db := true, svc := false } s = .ok (o, t) →
    t.namedHome t.cur o.a = .ok h →
    let x := t.queue h (o.b % 64)
    let coming := (t.agenda.filter fun e => match e.2.1 with
      | .tjoinArrival => e.2.2.ns.headD 0 == h && e.2.2.ns.getD 1 0 == o.b % 64
      | _ => false).length
    let g := (t.ctx t.cur).tgrp.toNat
    let old := bits g 17 9
    let u := if bit g 0 = true then t.after (latHome t.cur.core old / 2) .tleaveArrival { ctx := t.cur, ns := [old, bits g 8 3] } else t
    (bit g 0 = true → old = h → bits g 8 3 = o.b % 64 → exec (.tjoin a b) s = .next (t.advance s.cur)) ∧
    (¬ (bit g 0 = true ∧ old = h ∧ bits g 8 3 = o.b % 64) → 64 ≤ x.members.length + x.holders.length + coming →
      exec (.tjoin a b) s =
        .next (s.takeTrap s.cur { cause := 53, detail := 1, val := queueVal h (o.b % 64) } (s.ctx s.cur).resume s.ir.toNat)) ∧
    (¬ (bit g 0 = true ∧ old = h ∧ bits g 8 3 = o.b % 64) → x.members.length + x.holders.length + coming < 64 →
      ∃ v : State, exec (.tjoin a b) s = .next ((v.after (latHome t.cur.core h / 2) .tjoinArrival
          { ctx := t.cur, ns := [h, o.b % 64] }).advance s.cur) ∧
        v.agenda = u.agenda ∧ v.ctx t.cur = { t.ctx t.cur with tgrp := Word.ofN (1 + 8 * (o.b % 64) + 512 * h) } ∧
        v.mem = t.mem ∧ v.homes = t.homes)) ∧
  Does .tleave { svc := false } (fun _ t => bit (t.ctx t.cur).tgrp.toNat 0 = false) (fun _ t => t) ∧
  Does .tleave { svc := false } (fun _ t => bit (t.ctx t.cur).tgrp.toNat 0 = true)
    (fun _ t => (t.setCtx t.cur { t.ctx t.cur with tgrp := 0 }).after
      (latHome t.cur.core (bits (t.ctx t.cur).tgrp.toNat 17 9) / 2) .tleaveArrival
      { ctx := t.cur, ns := [bits (t.ctx t.cur).tgrp.toNat 17 9, bits (t.ctx t.cur).tgrp.toNat 8 3] }) ∧
  (∀ s o t t', prep { rr d a with svc := false } s = .ok (o, t) → bit (t.ctx t.cur).tgrp.toNat 2 = true →
    (t.setCtx t.cur { t.ctx t.cur with tgrp := (t.ctx t.cur).tgrp - 4 }).putX t.cur o d 1 = .ok t' →
    exec (.twait d a) s = .next (t'.advance s.cur)) ∧
  (∀ s o t, prep { rr d a with svc := false } s = .ok (o, t) → bit (t.ctx t.cur).tgrp.toNat 2 = false → (t.ctx t.cur).timed = none →
    t.sfuAim t.cur o.m.dst 0 t.cyc false = .ok () →
    exec (.twait d a) s = .next (if o.a = 0 then t.sleep t.cur .twait else (t.sleep t.cur .twait).after o.a .twaitTimeout
      { ctx := t.cur, ns := [(t.ctx t.cur).waitNo + 1] }))

/-- R372, R373, R452: SEND and SENDE add x[D] to the open packet, or open one to the core that x[A] names, and its word sets off; the
end closes the packet; MESSAGE 1 for a core that the launch does not have, 2 in a handler with a packet of the program it interrupted,
4 past 64 words; RECV returns the head of the queue, or waits; RPEEK describes the head. -/
def Sys2Proof.Claims.MessageWords : Prop := ∀ d a : Nat,
  (∀ (last : Bool) (s : State) (o : Opnds) (t : State) (p : Packet),
    prep { d := rd .x d, a := rd .x a, dd := true, da := true, svc := false } s = .ok (o, t) →
    ((∃ q, (t.ctx t.cur).pkt = some q ∧ (t.ctx t.cur).handlers ≤ q.depth ∧ p = { q with depth := (t.ctx t.cur).handlers }) ∧
        p.words.length < 64 ∨
      (t.ctx t.cur).pkt = none ∧ p = { dst := coreOfWord o.a, depth := (t.ctx t.cur).handlers } ∧
      (∃ l, t.launchOf t.cur.core = some l ∧ l.has (coreOfWord o.a) = true) ∧
      ((coreOfWord o.a).kind = .deck → (coreOfWord o.a).x % 2 = 0 ∧ (coreOfWord o.a).y % 2 = 0)) →
    (t.core p.dst).rxWait.length ≤ Config.meshRoom →
    let t1 := t.route t.cur p.dst (uns o.d) p.words.isEmpty last
    exec (if last then .sende d a else .send d a) s = .next ((t1.setCtx t.cur { t1.ctx t.cur with
      pkt := if last then none else some { p with words := p.words ++ [uns o.d] } }).advance s.cur)) ∧
  (∀ (last : Bool), Traps (if last then .sende d a else .send d a) { d := rd .x d, a := rd .x a, dd := true, da := true, svc := false }
    (fun o t => (t.ctx t.cur).pkt = none ∧ ∀ l, t.launchOf t.cur.core = some l → l.has (coreOfWord o.a) = false)
    (fun o _ => { cause := 50, detail := 1, val := o.a }) ∧
   Traps (if last then .sende d a else .send d a) { d := rd .x d, a := rd .x a, dd := true, da := true, svc := false }
    (fun _ t => ∃ q, (t.ctx t.cur).pkt = some q ∧ q.depth < (t.ctx t.cur).handlers)
    (fun o _ => { cause := 50, detail := 2, val := o.a }) ∧
   Traps (if last then .sende d a else .send d a) { d := rd .x d, a := rd .x a, dd := true, da := true, svc := false }
    (fun _ t => ∃ q, (t.ctx t.cur).pkt = some q ∧ (t.ctx t.cur).handlers ≤ q.depth ∧ 64 ≤ q.words.length)
    (fun o _ => { cause := 50, detail := 4, val := o.a })) ∧
  (∀ s o t e rest t', prep { d := wr .x d, dd := true, svc := false } s = .ok (o, t) →
    (t.core t.cur.core).rx = e :: rest → t.recvFirst t.cur = true →
    (t.setCore t.cur.core ({ t.core t.cur.core with rx := rest, recvOrder := (t.core t.cur.core).recvOrder.filter (· != t.cur.k)
    } : Core).drain).putX t.cur o d e.word = .ok t' →
    exec (.recv d) s = .next (t'.advance s.cur)) ∧
  (∀ s o t, prep { d := wr .x d, dd := true, svc := false } s = .ok (o, t) → (t.core t.cur.core).rx = [] →
    (t.ctx t.cur).timed = none →
    ∃ t' : State, exec (.recv d) s = .next t' ∧ (t'.ctx s.cur).wait = .recv ∧ (t'.ctx s.cur).st = .waiting) ∧
  GivesX (.rpeek d) { d := wr .x d, dd := true, svc := false } d (fun _ t => match (t.core t.cur.core).rx with
    | [] => 0
    | e :: _ => 2 ^ 63 + (if e.first then 2 ^ 62 else 0) + (if e.last then 2 ^ 61 else 0) + e.src.place)

/-- R374, R385, R387: GPOST queues the descriptor it has read while the queue holds fewer than 16, and waits otherwise; MSEND sends the
record it has read to the core that the capability names, and waits; MCAP seals a capability with epoch and check. -/
def Sys2Proof.Claims.EngineWords : Prop := ∀ d a b : Nat,
  (∀ s o t ws, prep { a := rd .x a, da := true, scope := true, svc := false } s = .ok (o, t) → t.ownWords t.cur o.a 64 = .ok ws →
    let k := t.cur.core.cluster
    let cl := t.cluster k
    (cl.gq.length < 16 → ∃ t' g, exec (.gpost a) s = .next t' ∧ (t'.cluster k).gq = cl.gq ++ [g] ∧ g.ctx = t.cur ∧ g.va = o.a ∧
      g.desc = ws ∧ t'.mem = t.mem ∧ (cl.gq = [] → (t.cyc + 1, .gatherDescriptorRun, { ns := [k] }) ∈ t'.agenda)) ∧
    (16 ≤ cl.gq.length → (s.ctx s.cur).timed = none → exec (.gpost a) s = .next (s.sleep s.cur (.queue false)))) ∧
  (∀ s o t ws, prep { a := rd .x a, b := rd .x b, da := true, db := true, scope := true, svc := false } s = .ok (o, t) →
    t.ownWords t.cur o.a 128 = .ok ws → (t.ctx t.cur).timed = none →
    let u : CoreId := ⟨.span, bits o.b 13 11, bits o.b 10 5, bits o.b 4 0⟩
    exec (.msend a b) s = .next (((t.sleep t.cur .msend).wakeCluster u.cluster).after (latPool t.cur.core u / 2) .msendRecordArrival
      { ctx := t.cur, ns := [(t.ctx t.cur).waitNo + 1, o.b] ++ ws ++ [(t.engineNow t.cur).length] ++ t.engineNow t.cur ++
        o.engines t t.cur })) ∧
  GivesX (.mcap d a) { rr d a with level := .s } d (fun o t =>
    let low := bits o.a 27 0 + t.capEpoch (t.capPart t.cur) * 268435456
    low + t.capCheck (t.capPart t.cur) low * 1099511627776)

/-! ### Numbers and vectors -/

/-- R31, R33, R34: a code of FP32, FP64, BF16 or FP16 that is no NaN is the value it stands for: rounding that value in any mode gives
the code back and raises no flag. -/
def Obligations.BinaryRoundTrip : Prop := ∀ e ∈ ([(24, 8), (53, 11), (8, 8), (11, 5)] : List (Nat × Nat)), ∀ (r : Rm) (code : Nat),
  code < 2 ^ (e.1 + e.2) → (decodeBin e.1 e.2 code).isNan = false → roundBin e.1 e.2 r (decodeBin e.1 e.2 code) = (code, 0)

namespace Sys2Proof.Claims
/-- A typed value of a slot without a scale (R39, R295). -/
def typed (tag slot : Nat) : Prop := tag % 32 = slot ∧ bit tag 14 = true ∧ bit tag 5 = false ∧ bit tag 15 = false
/-- Lanes with their flags: an active lane takes f, another keeps its bits (R296). -/
def lanesBy (n w act old : Nat) (f : Nat → Nat × Nat) : List (Nat × Nat) :=
  (List.range n).map fun k => if bit act k then f k else (lane old w k, 0)
/-- Word i, whose destination has no cause of its own (R418), completes with lanes r of a slot, and their flags, in v[D] or where DST
directs it: unless a flag raised is enabled, which traps FP_ENABLED with the flags in DETAIL and the lowest such lane, and they reach
`fcsr` all the same (R297, R420). -/
def GivesLanes (i : Instr) (s : State) (o : Opnds) (t : State) (d slot : Nat) (r : List (Nat × Nat)) : Prop :=
  let fl := flagsOf r
  let xen := bits (t.ctx t.cur).fcsr.toNat 12 8
  t.dstCheck t.cur o true = .ok () →
  (fl &&& xen = 0 → ∀ t', (t.addFlags t.cur fl).putV t.cur o d (ofLanes (laneBits slot) (r.map (·.1))) (16384 + slot) = .ok t' →
    exec i s = .next (t'.advance s.cur)) ∧
  (fl &&& xen ≠ 0 → exec i s = .next (s.takeTrap s.cur
    { cause := 8, detail := fl, val := (r.findIdx? fun e => e.2 &&& xen != 0).getD 0, flags := fl } (s.ctx s.cur).resume s.ir.toNat))
/-- A lane of class F: exact result, rounded once, with its flags (R45); SAT puts the largest finite value for an overflow (R309). -/
def laneF (t : State) (o : Opnds) (slot : Nat) (x : Val × Nat) : Nat × Nat :=
  let k := slotOf (t.fdOf t.cur.core) slot
  let r := k.round (t.rm t.cur o) x.1
  satF k o.m.sat (r.1, r.2 ||| x.2)
/-- A lane of class I: the exact integer wrapped, or with SAT held in the slot's range (R308, R309). -/
def laneI (slot : Nat) (sat : Bool) (x : Int) : Nat × Nat := (intLane slot sat x, 0)
/-- The VALU words of R306 to R308 over values: exact results of class F and of class I. -/
def valuWords (d a b c : Nat) :
    List (Instr × Option Nat × Option Nat × (Rm → Val → Val → Val → Val × Nat) × (Int → Int → Int → Int)) :=
  [(.vadd d a b, some b, none, fun r x y _ => addVal r x y, fun x y _ => x + y),
   (.vsub d a b, some b, none, fun r x y _ => (nanOf [x, y]).getD (sumExact r x y.flip), fun x y _ => x - y),
   (.vmul d a b, some b, none, fun _ x y _ => mulVal x y, fun x y _ => x * y),
   (.vfma d a b c, some b, some c, fun r x y z => fmaVal r x y z, fun x y z => x * y + z),
   (.vfms d a b c, some b, some c, fun r x y z => (nanOf [x, y, z]).getD (fmaVal r x y z.flip), fun x y z => x * y - z),
   (.vmin d a b, some b, none, fun _ x y _ => minmax false x y, fun x y _ => min x y),
   (.vmax d a b, some b, none, fun _ x y _ => minmax true x y, fun x y _ => max x y)]
/-- Those of class I alone (R308), by lane codes x and y of a slot of width w. -/
def valuInts (d a b : Nat) : List (Instr × (Nat → Bool → Nat → Nat → Nat)) :=
  [(.vshl d a b, fun k sat x y => intLane k sat (slotInt k x * 2 ^ (y % laneBits k))),
   (.vshr d a b, fun k _ x y => x / 2 ^ (y % laneBits k)),
   (.vsra d a b, fun k _ x y => intLane k false (sext x (laneBits k) / 2 ^ (y % laneBits k))),
   (.vadds d a b, fun k _ x y => intLane k true (slotInt k x + slotInt k y)),
   (.vsubs d a b, fun k _ x y => intLane k true (slotInt k x - slotInt k y))]
end Sys2Proof.Claims

/-- R306 to R309, R49, R296, R297: VALU words on sources of one class and slot, lane by lane. -/
def Obligations.VectorArithmetic : Prop := ∀ (d a b c slot : Nat) (s : State) (o : Opnds) (t : State) (old : Nat),
  let w := laneBits slot
  let k := slotOf (t.fdOf t.cur.core) slot
  let x (j : Nat) := lane o.a w j
  let y (j : Nat) := lane o.b w j
  let z (j : Nat) := lane o.c w j
  typed o.ta slot → t.oldV t.cur o d (lanesOf slot) = .ok old →
  (∀ e ∈ valuWords d a b c, prep (valuSig d a e.2.1 e.2.2.1) s = .ok (o, t) → typed o.tb slot → (e.2.2.1 ≠ none → typed o.tc slot) →
    (isF slot = true → GivesLanes e.1 s o t d slot (lanesBy (lanesOf slot) w o.pred old fun j =>
      laneF t o slot (e.2.2.2.1 (t.rm t.cur o) (k.decode (x j)) (k.decode (y j)) (k.decode (z j))))) ∧
    (isI slot = true → s.mod.rnd = 0 → GivesLanes e.1 s o t d slot (lanesBy (lanesOf slot) w o.pred old fun j =>
      laneI slot o.m.sat (e.2.2.2.2 (slotInt slot (x j)) (slotInt slot (y j)) (slotInt slot (z j)))))) ∧
  (∀ e ∈ ([(.vminp d a b, false), (.vmaxp d a b, true)] : List (Instr × Bool)), prep (valuSig d a (some b) none) s = .ok (o, t) →
    typed o.tb slot → isF slot = true → GivesLanes e.1 s o t d slot (lanesBy (lanesOf slot) w o.pred old fun j =>
      laneF t o slot (minmaxP e.2 (k.decode (x j)) (k.decode (y j))))) ∧
  (prep (valuSig d a none none) s = .ok (o, t) →
    (isF slot = true →
      GivesLanes (.vabs d a) s o t d slot (lanesBy (lanesOf slot) w o.pred old fun j => satF k o.m.sat (x j % k.signW, 0)) ∧
      GivesLanes (.vneg d a) s o t d slot (lanesBy (lanesOf slot) w o.pred old fun j => satF k o.m.sat (x j ^^^ k.signW, 0))) ∧
    (isI slot = true → s.mod.rnd = 0 →
      GivesLanes (.vabs d a) s o t d slot (lanesBy (lanesOf slot) w o.pred old fun j => laneI slot o.m.sat (slotInt slot (x j)).natAbs) ∧
      GivesLanes (.vneg d a) s o t d slot (lanesBy (lanesOf slot) w o.pred old fun j => laneI slot o.m.sat (-slotInt slot (x j))))) ∧
  (∀ e ∈ valuInts d a b, prep (valuSig d a (some b) none) s = .ok (o, t) → typed o.tb slot → isI slot = true → s.mod.rnd = 0 →
    GivesLanes e.1 s o t d slot (lanesBy (lanesOf slot) w o.pred old fun j => (e.2 slot o.m.sat (x j) (y j), 0)))

/-- R306, R310, R312, R313, R320, R326: words that move bits: VAND, VOR, VXOR and VNOT keep the tag of A; VMOV moves value and tag, and
an inactive lane keeps its bits; VSEL, VPERM, VSLIDE, VZIP and VUNZIP rearrange lanes. -/
def Sys2Proof.Claims.VectorMoves : Prop := ∀ (d a b c slot : Nat) (h : Bool) (s : State) (o : Opnds) (t : State) (t' : State),
  let w := laneBits slot
  let n := lanesOf slot
  let put (v : Nat) := t.putV t.cur o d v (o.ta % 65536) = .ok t'
  let all (f : Nat → Nat) := ofLanes w ((List.range n).map f)
  let ends (i : Instr) := exec i s = .next (t'.advance s.cur)
  let g2 : Sig := { valuSig d a (some b) none with pred := false, rnd := false }
  let g1 : Sig := { valuSig d a none none with pred := false, rnd := false }
  typed o.ta slot →
  (prep g2 s = .ok (o, t) → typed o.tb slot →
    (put (o.a &&& o.b) → ends (.vand d a b)) ∧ (put (o.a ||| o.b) → ends (.vor d a b)) ∧ (put (o.a ^^^ o.b) → ends (.vxor d a b))) ∧
  (prep g1 s = .ok (o, t) → put (2 ^ 1024 - 1 - o.a) → ends (.vnot d a)) ∧
  (∀ old, prep { d := wr .v d, a := rd .v a, dd := true, da := true, pred := true, sat := true } s = .ok (o, t) → o.ta ≠ 16447 →
    t.oldV t.cur o d n = .ok old → put (all fun k => if bit o.pred k then lane o.a w k else lane old w k) → ends (.vmov d a)) ∧
  (prep { vplain d a (some b) with c := rd .p c } s = .ok (o, t) → typed o.tb slot →
    put (all fun k => lane (if bit o.c k then o.a else o.b) w k) → ends (.vsel d a b c)) ∧
  (prep (vplain d a (some b)) s = .ok (o, t) → ∀ slotB, typed o.tb slotB → isI slotB = true → n ≤ lanesOf slotB →
    put (all fun k => lane o.a w (lane o.b (laneBits slotB) k % n)) → ends (.vperm d a b)) ∧
  (prep { vplain d a (some b) with c := rd .x c } s = .ok (o, t) → typed o.tb slot →
    put (all fun k => if k + min o.c n < n then lane o.a w (k + min o.c n) else lane o.b w (k + min o.c n - n)) → ends (.vslide d a b c)) ∧
  (prep (vplain d a (some b)) s = .ok (o, t) → typed o.tb slot →
    (put (all fun k => lane (if k % 2 = 0 then o.a else o.b) w ((if h then n / 2 else 0) + k / 2)) → ends (.vzip d a b h)) ∧
    (put (all fun k => if k < n / 2 then lane o.a w (2 * k + if h then 1 else 0) else lane o.b w (2 * (k - n / 2) + if h then 1 else 0)) →
      ends (.vunzip d a b h)))

namespace Sys2Proof.Claims
/-- The compares of R311: quiet for NaN, the result for a NaN, and the result by equal and less. -/
def compares (d a b : Nat) : List (Instr × Bool × Bool × (Bool → Bool → Bool)) :=
  [(.vcmpeq d a b, true, false, fun e _ => e), (.vcmplt d a b, false, false, fun _ l => l),
   (.vcmple d a b, false, false, fun e l => e || l), (.vcmpne d a b, true, true, fun e _ => !e)]
end Sys2Proof.Claims

/-- R311, R314, R318, R326, R254: compares write one bit for each lane to p[D], zeros above and for inactive lanes, with NV for a NaN;
PAND, POR, PNOT and PCNT; VTAGR, VMOVX and VRETAG, VBCAST and VINS. -/
def Sys2Proof.Claims.PredicatesAndLanes : Prop := ∀ (d a b c slot : Nat) (ir : Bool) (s : State) (o : Opnds) (t : State),
  let w := laneBits slot
  let k := slotOf (t.fdOf t.cur.core) slot
  (∀ e ∈ compares d a b, prep { d := wr .p d, a := rd .v a, b := rd .v b, da := true, db := true, pred := true, deck := false, svc := false
      } s = .ok (o, t) → typed o.ta slot → typed o.tb slot →
    let r := lanesBy (lanesOf slot) 1 o.pred 0 fun j =>
      let x := lane o.a w j
      let y := lane o.b w j
      if isF slot then
        let u := k.decode x
        let v := k.decode y
        if u.isNan || v.isNan then (if e.2.2.1 then 1 else 0, if !e.2.1 || u.isSig || v.isSig then 16 else 0)
        else (if e.2.2.2 (u.same v) (u.lt v) then 1 else 0, 0)
      else (if e.2.2.2 (decide (slotInt slot x = slotInt slot y)) (decide (slotInt slot x < slotInt slot y)) then 1 else 0, 0)
    (isF slot = true ∨ isI slot = true) → flagsOf r &&& bits (t.ctx t.cur).fcsr.toNat 12 8 = 0 →
    exec e.1 s = .next (((t.addFlags t.cur (flagsOf r)).wp t.cur d (bitsOf (r.map (·.1)))).advance s.cur)) ∧
  Does (.pand d a b) { d := wr .p d, a := rd .p a, b := rd .p b } (fun _ _ => True) (fun o t => t.wp t.cur d (o.a &&& o.b)) ∧
  Does (.por d a b) { d := wr .p d, a := rd .p a, b := rd .p b } (fun _ _ => True) (fun o t => t.wp t.cur d (o.a ||| o.b)) ∧
  Does (.pnot d a) { d := wr .p d, a := rd .p a } (fun _ _ => True) (fun o t => t.wp t.cur d (2 ^ 128 - 1 - o.a)) ∧
  GivesX (.pcnt d a) { d := wr .x d, a := rd .p a, dd := true } d (fun o _ => ((List.range 128).filter (bit o.a ·)).length) ∧
  GivesX (.vtagr d a ir) { d := wr .x d, a := if ir then rd .i a else rd .v a, dd := true, da := true, deck := false, svc := false } d
    (fun o _ => o.ta % 65536) ∧
  (∀ t', prep { d := wr .x d, a := rd .v a, b := rd .x b, dd := true, da := true, deck := false, svc := false } s = .ok (o, t) →
    typed o.ta slot → slot < 31 →
    t.putX t.cur o d (let x := lane o.a w (o.b % lanesOf slot); if slotSigned slot then wrap64 (sext x w) else x) = .ok t' →
    exec (.vmovx d a b) s = .next (t'.advance s.cur)) ∧
  (∀ t', prep { vplain d a none with b := rd .x b } s = .ok (o, t) → t.putV t.cur o d o.a (o.b % 65536) = .ok t' →
    exec (.vretag d a b false) s = .next (t'.advance s.cur)) ∧
  (∀ t', prep { d := wr .i d, a := rd .i a, b := rd .x b, dd := true, da := true, deck := false, svc := false } s = .ok (o, t) →
    t.putI t.cur o d o.a (o.b % 65536) = .ok t' → exec (.vretag d a b true) s = .next (t'.advance s.cur)) ∧
  (∀ t', prep { d := wr .v d, a := rd .x a, dd := true, da := true, deck := false, svc := false } s = .ok (o, t) → 16 ≤ c → c < 31 →
    t.putV t.cur o d (ofLanes (laneBits c) (List.replicate (lanesOf c) (o.a % 2 ^ t.codeBits t.cur c))) (16384 + c) = .ok t' →
    exec (.vbcast d a c) s = .next (t'.advance s.cur)) ∧
  (∀ t', prep { d := rw .v d, a := rd .x a, b := rd .x b, dd := true, da := true, deck := false, svc := false } s = .ok (o, t) →
    typed o.td slot → 16 ≤ slot →
    t.putV t.cur o d (ofLanes w ((List.range (lanesOf slot)).map fun j =>
      if j = o.b % lanesOf slot then o.a % 2 ^ w else lane o.d w j)) (o.td % 65536) = .ok t' →
    exec (.vins d a b) s = .next (t'.advance s.cur))

/-- R315 to R320, R41, R42: VCVT, VDEQ, VQUANT, VSCALE, VPACK and VUNPK, with the slots of fixed format on either side. -/
def Obligations.Conversions : Prop := ∀ (d a b c p slot : Nat) (h : Bool) (s : State) (o : Opnds) (t : State) (old : Nat),
  let fd := t.fdOf t.cur.core
  let r := t.rm t.cur o
  16 ≤ c → c ≤ 30 → c ≠ 23 →
  (prep (cvtSig d a none) s = .ok (o, t) → typed o.ta slot → 16 ≤ slot → slot ≤ 30 → slot ≠ 23 →
    p < max (lanesOf slot) (lanesOf c) / min (lanesOf slot) (lanesOf c) → t.oldPart t.cur o d (lanesOf slot) (lanesOf c) = .ok old →
    GivesLanes (.vcvt d a p c) s o t d c (convLanes (lanesOf slot) (lanesOf c) (laneBits slot) p o.pred old (laneBits c) o.a fun x =>
      (slotOf fd c).round r ((slotOf fd slot).decode x))) ∧
  (prep (cvtSig d a none) s = .ok (o, t) → o.ta % 32 = slot → bit o.ta 14 = true → bit o.ta 15 = false → 16 ≤ slot → slot ≤ 22 →
    p < 128 / lanesOf c → t.oldPart t.cur o d 128 (lanesOf c) = .ok old →
    GivesLanes (.vdeq d a p c) s o t d c (convLanes 128 (lanesOf c) 8 p o.pred old (laneBits c) o.a fun x =>
      (slotOf fd c).round r (dequantise (fixedFmt slot) (if bit o.ta 5 then bits o.ta 13 6 else 127) x))) ∧
  (∀ more t', prep (vplain d a none) s = .ok (o, t) → typed o.ta slot → isF slot = true → c ≤ 22 → a + 128 / lanesOf slot ≤ 32 →
    s.groupV s.cur slot (upFrom (a + 1) (128 / lanesOf slot - 1)) = .ok more →
    t.groupV t.cur slot (upFrom (a + 1) (128 / lanesOf slot - 1)) = .ok more →
    let xs := (o.a :: more).flatMap fun v => (lanes v (laneBits slot) (lanesOf slot)).map (slotOf fd slot).decode
    let q := xs.map (quantise (fixedFmt c) (scaleCode (fixedFmt c) xs))
    flagsOf q &&& bits (t.ctx t.cur).fcsr.toNat 12 8 = 0 → t.dstCheck t.cur o true = .ok () →
    (t.addFlags t.cur (flagsOf q)).putV t.cur o d (ofLanes 8 (q.map (·.1))) (16384 + c + 32 + scaleCode (fixedFmt c) xs * 64) = .ok t' →
    exec (.vquant d a c) s = .next (t'.advance s.cur)) ∧
  (∀ slotB, prep (cvtSig d a (some b)) s = .ok (o, t) → typed o.ta slot → isF slot = true → typed o.tb slotB → isI slotB = true →
    lanesOf slot ≤ lanesOf slotB → t.oldV t.cur o d (lanesOf slot) = .ok old →
    GivesLanes (.vscale d a b) s o t d slot (lanesBy (lanesOf slot) (laneBits slot) o.pred old fun j =>
      let x := (slotOf fd slot).decode (lane o.a (laneBits slot) j)
      (slotOf fd slot).out r ((nanOf [x]).getD (x.scale (capScale (slotInt slotB (lane o.b (laneBits slotB) j))), 0)))) ∧
  (∀ t', prep (vplain d a (some b)) s = .ok (o, t) → typed o.ta 20 → typed o.tb 20 →
    t.putV t.cur o d (pack4 (cut8 4 o.a 128) 64 + 2 ^ 512 * pack4 (cut8 4 o.b 128) 64) 16415 = .ok t' → exec (.vpack d a b) s = .next (t'.advance s.cur)) ∧
  (∀ t', prep (vplain d a none) s = .ok (o, t) → o.ta ≠ 16447 →
    t.putV t.cur o d (ofLanes 8 ((lanes (widen4 (if h then o.a / 2 ^ 512 else o.a % 2 ^ 512) 64) 8 128).map (· % 2 ^ 4))) 16404 = .ok t' →
    exec (.vunpk d a h 20) s = .next (t'.advance s.cur))

namespace Sys2Proof.Claims
/-- The VSFU words (R321, R323): fields, function code, sources, and latency for FP32 and for FP64. -/
def sfuWords (d a b c : Nat) : List (Instr × Nat × Option Nat × Option Nat × Nat × Nat) :=
  [(.vexp2 d a b c, 0, some b, some c, 14, 22), (.vlog2 d a, 1, none, none, 14, 22), (.vrcp d a, 2, none, none, 10, 18),
   (.vrsqrt d a, 3, none, none, 10, 18), (.vsqrt d a, 4, none, none, 16, 28), (.vdiv d a b, 5, some b, none, 18, 32),
   (.vtanh d a, 6, none, none, 16, 26), (.vsigm d a, 7, none, none, 16, 26)]
/-- The fields of a VSFU word (R297). -/
def sfuSig (d a : Nat) (b c : Option Nat) : Sig :=
  { d := wr .v d, a := rd .v a, b := b.elim none (rd .v ·), c := c.elim none (rd .x ·), dd := true, da := true, db := b.isSome,
    pred := true, rnd := true, deck := false, svc := false }
end Sys2Proof.Claims

/-- R321 to R323, R220: a VSFU word of a context without a request at its core's unit hands the unit a request with its lanes and flags;
a second request waits. R324, R325: VRSUM, VRSUMP, VRMAX and VRMIN of class I, and VRSUM of class F as the tree of R324. -/
def Obligations.SpecialAndReduce : Prop := ∀ (d a b c slot : Nat) (s : State) (o : Opnds) (t : State) (old : Nat),
  let w := laneBits slot
  let n := lanesOf slot
  let xs := ((List.range n).filter (bit o.pred ·)).map fun k => slotInt slot (lane o.a w k)
  typed o.ta slot →
  (∀ e ∈ sfuWords d a b c, prep (sfuSig d a e.2.2.1 e.2.2.2.1) s = .ok (o, t) → isF slot = true →
    (e.2.2.1 ≠ none → typed o.tb slot) → t.oldV t.cur o d n = .ok old →
    let r := lanesBy n w o.pred old fun j =>
      sfLane e.2.1 slot (t.rm t.cur o) (lane o.a w j) (lane o.b w j) (if slot = 27 then o.c else o.c % 4294967296)
    flagsOf r &&& bits (t.ctx t.cur).fcsr.toNat 12 8 = 0 →
    ((t.core t.cur.core).sfu.any (·.ctx == t.cur) = false → o.m.dst = 0 →
      ∃ t' q, exec e.1 s = .next t' ∧ q ∈ (t'.core t.cur.core).sfu ∧ q.ctx = t.cur ∧ q.flags = flagsOf r ∧
        q.lat = (if slot = 27 then e.2.2.2.2.2 else e.2.2.2.2.1) ∧
        q.outs = [(2, d, BitVec.ofNat 1024 (ofLanes w (r.map (·.1))), BitVec.ofNat 16 (16384 + slot))] ∧ t'.mem = t.mem) ∧
    ((t.core t.cur.core).sfu.any (·.ctx == t.cur) = true → t.dstCheck t.cur o true = .ok () → (s.ctx s.cur).timed = none →
      exec e.1 s = .next (s.sleep s.cur .sfu))) ∧
  (prep (redSig d a true) s = .ok (o, t) → s.mod.rnd = 0 → isI slot = true →
    (∀ t', t.putV t.cur o d (intLane slot o.m.sat xs.sum) (16384 + slot) = .ok t' → exec (.vrsum d a) s = .next (t'.advance s.cur)) ∧
    (t.oldV t.cur o d n = .ok old → GivesLanes (.vrsump d a) s o t d slot
      (prefixSums o.pred old w (fun x => (x, 0)) (fun z x => (intLane slot o.m.sat (slotInt slot z + slotInt slot x), 0)) 0
        (lanes o.a w n) none))) ∧
  (prep (redSig d a true) s = .ok (o, t) → isF slot = true → s.mod.sat = false →
    let r := treeSum ((slotOf (t.fdOf t.cur.core) slot).addCode (t.rm t.cur o)) (Nat.log2 n)
      ((List.range n).map fun k => if bit o.pred k then some (lane o.a w k) else none)
    r.2 &&& bits (t.ctx t.cur).fcsr.toNat 12 8 = 0 → t.dstCheck t.cur o true = .ok () →
    ∀ t', (t.addFlags t.cur r.2).putV t.cur o d (r.1.getD 0) (16384 + slot) = .ok t' → exec (.vrsum d a) s = .next (t'.advance s.cur)) ∧
  (∀ m t', prep (redSig d a false) s = .ok (o, t) → s.mod.rnd = 0 → isI slot = true → m ∈ xs →
    ((∀ x ∈ xs, x ≤ m) → t.putV t.cur o d (intLane slot false m) (16384 + slot) = .ok t' → exec (.vrmax d a) s = .next (t'.advance s.cur)) ∧
    ((∀ x ∈ xs, m ≤ x) → t.putV t.cur o d (intLane slot false m) (16384 + slot) = .ok t' → exec (.vrmin d a) s = .next (t'.advance s.cur)))

/-! ### Vector memory and streams -/

namespace Sys2Proof.Claims
/-- A register's bytes from the bytes loaded (R28, R299): packed codes are widened, codes of a narrow slot cut to its width. -/
def loadedV (t : State) (c : CtxId) (slot raw : Nat) : Nat :=
  let x := if t.slotLen c slot = 64 then widen4 raw 64 else raw
  if t.cut c slot = 0 then x else ofLanes 8 ((lanes x 8 128).map (· % 2 ^ t.cut c slot))
/-- The access of a vector load: destination register or direction, bytes that the predicate leaves, tag (R299, R301). -/
def vldAccess (t : State) (o : Opnds) (d slot : Nat) : Access :=
  let len := t.slotLen t.cur slot
  { id := 0, ctx := t.cur, act := .load, kind := .g, key := 0, va := 0, n := len, dcls := if o.m.dst = 0 then 2 else 5,
    dreg := if o.m.dst = 0 then d else o.m.dst, post := (if len = 64 then 1 else 0) + 4 * t.cut t.cur slot, tag := 16384 + slot,
    keep := regMask slot len o.pred }
/-- Register j of VLDM (R304). -/
def vldmOne (d b : Nat) (o : Opnds) (t : State) (j : Nat) (s : State) : Chk State :=
  let c := t.cur
  let len := t.slotLen c b
  let f : Access := { id := 0, ctx := c, act := .load, kind := .f, key := 0, va := 0, n := len,
                      dcls := if j = 0 ∧ o.m.dst ≠ 0 then 5 else 2, dreg := if j = 0 ∧ o.m.dst ≠ 0 then o.m.dst else d + j,
                      post := (if len = 64 then 1 else 0) + 4 * s.cut c b, tag := tagOf b, keep := ones128 }
  s.loadV c (vmemKind o.a false) (addOff o.a (j * len)) len (2 ^ len - 1) f
/-- Register j of VSTM (R304). -/
def vstmOne (d b : Nat) (o : Opnds) (t : State) (j : Nat) (s : State) : Chk State := do
  let c := t.cur
  let len := t.slotLen c b
  let (v, tag) ← if j = 0 ∧ o.m.dst ≠ 0 then pure (o.d, o.td) else s.readReg c ⟨.v, .read, d + j⟩
  vstRule (d + j) b { d := some tag } s
  s.storeV c (vmemKind o.a true) (addOff o.a (j * len)) len (s.image c b v) (2 ^ len - 1)
end Sys2Proof.Claims

/-- R299 to R304, R335, R44: each vector or interval load and store is one transfer of the register's bytes to or from the address, with
the bytes that its predicate leaves; VLDM and VSTM are one transfer for each register, upwards from the first, or from the one that a
resumed word goes on with. -/
def Obligations.VectorMemoryWords : Prop := ∀ (d a b c fs n off : Nat) (k : AccKind) (m : Bool) (s : State) (o : Opnds) (t t' : State),
  let u := t.cur
  let ends (i : Instr) := exec i s = .next (t'.advance s.cur)
  let ea := (Word.ofI ((o.a : Int) + offVM o off)).toNat
  (prep (vmSig d a .v .write k) s = .ok (o, t) → s.fmtCheck s.cur.core fs = .ok () →
    (o.pred % 2 ^ lanesOf fs + 1 = 2 ^ lanesOf fs ∨ o.m.dst ≠ 0 ∨ t.pending u 2 d = false) →
    t.loadV u k ea (t.slotLen u fs) (memMask fs (t.slotLen u fs) o.pred) { vldAccess t o d fs with kind := k } = .ok t' →
    ends (.vld d a fs k off)) ∧
  (prep (vmSig d a .v .read k) s = .ok (o, t) → s.fmtCheck s.cur.core fs = .ok () →
    (s.cur.core.kind ≠ .span ∨ fs = 31 ∧ o.td ≠ 16447 ∨ o.td % 32 = fs ∧ bit o.td 14 = true ∧ bit o.td 15 = false ∧ (bit o.td 5 = true → fs ≤ 23)) →
    t.storeV u k ea (t.slotLen u fs) (t.image u fs o.d) (memMask fs (t.slotLen u fs) o.pred) = .ok t' → ends (.vst d a fs k off)) ∧
  (prep { d := wr .v d, a := rd .x a, b := rd .x b, dd := true, da := true, deck := false, svc := false } s = .ok (o, t) →
    s.fmtCheck s.cur.core c = .ok () → (bit o.b 8 = true → isMx c = true) →
    t.loadV u (vmemKind o.a false) o.a (t.slotLen u c) (2 ^ t.slotLen u c - 1) { vldAccess t o d c with
      kind := .f, cmp := o.b, keep := ones128,
      post := (if t.slotLen u c = 64 then 1 else 0) + (if bit o.b 8 then 2 else 0) + 4 * t.cut u c,
      tag := 16384 + c + 32 + 64 * (if bit o.b 8 then mxStrip c o.b else o.b % 256) } = .ok t' →
    ends (.vlds d a b c)) ∧
  (prep { d := rd .v d, a := rd .x a, b := wr .x b, dd := true, da := true, deck := false, svc := false } s = .ok (o, t) →
    o.td % 32 = c → bit o.td 14 = true → bit o.td 15 = false → (if m then isMx c = true else isN c = true) →
    s.fmtCheck s.cur.core c = .ok () →
    let strip := if bit o.td 5 then bits o.td 13 6 else 127
    let mx := mxStore c strip o.d
    ∀ t1, t.storeV u (vmemKind o.a true) o.a (t.slotLen u c) (t.image u c (if m then ofLanes 8 mx.2 else o.d)) (2 ^ t.slotLen u c - 1)
        = .ok t1 →
      t' = (t1.cancel u 1 b).wx u b (if m then 256 + strip + 65536 * ofLanes 8 mx.1 else strip) → ends (.vsts d a b m)) ∧
  (prep { d := wr .v d, a := rd .x a, dd := true, da := true } s = .ok (o, t) → s.fmtCheck s.cur.core b = .ok () →
    groupRun (vldmOne d b o t) (upFrom (t.ctx u).resumeAt (n + 1 - (t.ctx u).resumeAt)) t = .ok t' → ends (.vldm d a b n)) ∧
  (prep { d := rd .v d, a := rd .x a, dd := true, da := true } s = .ok (o, t) →
    ((s.ctx s.cur).resumeAt = 0 → vstRule d b { d := some o.td } s = .ok ()) →
    (∀ r, d ≤ r → r ≤ d + n → t.pending u 2 r = false) →
    groupRun (vstmOne d b o t) (upFrom (t.ctx u).resumeAt (n + 1 - (t.ctx u).resumeAt)) t = .ok t' → ends (.vstm d a b n)) ∧
  (prep { vmSig d a .i .write k with deck := false, svc := false } s = .ok (o, t) →
    (o.pred % 2 ^ elemsIn (fs == 27) + 1 = 2 ^ elemsIn (fs == 27) ∨ o.m.dst ≠ 0 ∨ t.pending u 3 d = false) →
    t.loadV u k ea 128 (elemMask (fs == 27) o.pred)
      { id := 0, ctx := u, act := .load, kind := k, key := 0, va := 0, n := 128,
        dcls := (if o.m.dst = 0 then 3 else 5), dreg := (if o.m.dst = 0 then d else o.m.dst), tag := (if fs = 27 then 49179 else 16410),
        keep := elemMask (fs == 27) o.pred } = .ok t' → ends (.ild d a fs k off)) ∧
  (prep { vmSig d a .i .read k with deck := false, svc := false } s = .ok (o, t) → o.td % 32 = fs → (fs = 26 ∨ fs = 27) →
    bit o.td 14 = true → bit o.td 5 = false → (bit o.td 15 = true ↔ fs = 27) →
    t.storeV u k ea 128 o.d (elemMask (fs == 27) o.pred) = .ok t' → ends (.ist d a fs k off))

/-- R300, R301, R147, R148, R196, R429: what such a transfer does once its place is found. A load of a near place with nothing on its way
that it has to follow writes the active bytes and the tag at once, and leaves the others; with no active byte only the tag is written;
elsewhere each line of 64 bytes with an active byte is one access, but a view-checked read is one. A store writes the active bytes at a
near place at once. -/
def Obligations.VectorTransfers : Prop := ∀ (t : State) (c : CtxId) (k : AccKind) (va len mask val : Nat) (f : Access) (p : Place),
  f.dcls = 2 ∧ f.dreg < 32 ∧ f.act = .load ∧ f.later = [] → len = 64 ∨ len = 128 →
  let (lo, hi) := maskRange mask len
  let g := { f with ctx := c, kind := k, va := va, n := len, key := p.key, lat := p.lat, ea := va, word := t.ir.toNat }
  let st : Access := { id := 0, ctx := c, act := .store, kind := k, key := p.key, va := va, n := len, lat := p.lat, ea := va, val := val, mask := mask }
  let t0 := t.cancel c 2 f.dreg
  (t.aim c va len lo hi k false false = .ok p →
    (mask = 0 → t.loadV c k va len mask f =
      .ok (t0.wv c f.dreg (mergeBytes (t0.rv c f.dreg) (g.value 0) f.keep 128) f.tag)) ∧
    (mask ≠ 0 → p.near c = true → t0.ahead g = [] → t0.poisonedMask p.key len mask = none →
      ∃ t' : State, t.loadV c k va len mask f = .ok t' ∧
        t'.mem = (t0.wv c f.dreg (mergeBytes (t0.rv c f.dreg) (g.value (t0.rdMem p.key len)) f.keep 128) f.tag).mem) ∧
    (mask ≠ 0 → p.near c = false → (len = 64 ∨ k = .v ∨ p.home = none ∧ p.peer = false) →
      ∃ t' h, t.loadV c k va len mask f = .ok t' ∧ h ∈ t'.flight ∧ h.ctx = c ∧ h.act = .load ∧ h.key = p.key ∧ h.n = len ∧
        h.dcls = 2 ∧ h.dreg = f.dreg ∧ h.tag = f.tag) ∧
    (p.near c = false → len = 128 → k ≠ .v → (p.home ≠ none ∨ p.peer = true) → ∀ j, j < 2 → mask / 2 ^ (64 * j) % 2 ^ 64 ≠ 0 →
      ∃ t' h, t.loadV c k va len mask f = .ok t' ∧ h ∈ t'.flight ∧ h.ctx = c ∧ h.act = .load ∧ h.key = p.key + 64 * j ∧ h.n = 64 ∧
        h.pos = 64 * j ∧ h.dcls = 2 ∧ h.dreg = f.dreg)) ∧
  (t.aim c va len lo hi k true false = .ok p →
    (mask = 0 → t.storeV c k va len val mask = .ok t) ∧
    (mask ≠ 0 → p.near c = true → p.home = none → p.peer = false → t.ahead st = [] →
      ∃ t' : State, t.storeV c k va len val mask = .ok t' ∧ t'.mem = ((t.signStore c val).wrMem p.key len val mask (some c)).mem))

/-- R305, R428, R327 to R329, R151: VLDI of lanes that are all near writes them with the tag; VSTI stores lane by lane, both whole bytes,
of a narrow slot too (log 66, DEDUCED); SBIND of a near
state without poison binds the stream to it, unless the state is reserved, which is STREAM 4; SFREE clears ACT and drops what was read ahead; SSTAT. -/
def Obligations.LanesAndStreams : Prop := ∀ (d a b c : Nat) (s : State) (o : Opnds) (t : State) (ps : List (Nat × Place)),
  let u := t.cur
  let es := laneBits c / 8
  (prep { d := wr .v d, a := rd .x a, b := rd .v b, dd := true, da := true, deck := false, svc := false } s = .ok (o, t) →
    (∃ k, typed o.tb k ∧ isI k = true) → s.fmtCheck s.cur.core c = .ok () →
    t.lanePlaces u es false (idxAddrs o.a o.b o.tb c) = .ok ps → o.m.dst = 0 →
    (∀ p ∈ ps, p.2.near u = true ∧ t.poisoned p.2.key es = none ∧
      (t.cancel u 2 d).ahead {
        id := 0, ctx := u, act := .load, kind := .l, key := p.2.key, va := 0, n := es, grp := t.nextId, dcls := 2
        dreg := d, tag := 16384 + c, keep := ones128 } = []) →
    ∃ t' : State, exec (.vldi d a b c) s = .next t' ∧
      let v := ofLanes (8 * es) (ps.map fun p => t.rdMem p.2.key es)
      t'.mem = (t.wv u d v (16384 + c)).mem) ∧
  (∀ t', prep { d := rd .v d, a := rd .x a, b := rd .v b, dd := true, da := true, deck := false, svc := false } s = .ok (o, t) →
    typed o.td c → (∃ k, typed o.tb k ∧ isI k = true) → s.fmtCheck s.cur.core c = .ok () →
    t.lanePlaces u es true (idxAddrs o.a o.b o.tb c) = .ok ps →
    (ps.zip (List.range ps.length)).foldlM (fun t e =>
      t.storeAt u e.1.2 (if bits e.1.1 63 60 = 7 then .w else .l) e.1.1 es (lane o.d (8 * es) e.2) (2 ^ es - 1)) t = .ok t' →
    exec (.vsti d a b c) s = .next (t'.advance s.cur)) ∧
  (∀ p, prep { a := rd .x a, da := true, other := 1, deck := false, svc := false } s = .ok (o, t) →
    Tab.get (t.ctx u).ahead (16 + d) [] = [] →
    t.aim u o.a 32 0 32 (if bits o.a 63 60 = 7 ∨ bits o.a 63 60 = 12 then .w else .l) false false = .ok p → p.near u = true →
    t.ahead {
      id := 0, ctx := u, act := .load, kind := if bits o.a 63 60 = 7 ∨ bits o.a 63 60 = 12 then .w else .l, key := p.key, va := o.a,
      n := 32, lat := p.lat, ea := o.a } = [] → t.poisoned p.key 32 = none →
    let q (j : Nat) := t.rdMem p.key 32 / 2 ^ (64 * j) % 2 ^ 64
    (streamBad (q 2) (q 3) = true →
      exec (.sbind d a) s = .next (s.takeTrap s.cur { cause := 11, detail := 4, val := d } (s.ctx s.cur).resume s.ir.toNat)) ∧
    (streamBad (q 2) (q 3) = false → ∃ t' : State, exec (.sbind d a) s = .next t' ∧
      t'.mem = (((((t.streamFree u d).ws u d 0 (q 0)).ws u d 1 (q 1)).ws u d 2 (q 2 ||| 32768)).ws u d 3 0).mem)) ∧
  (prep { other := 1, deck := false, svc := false } s = .ok (o, t) →
    ∃ t' : State, exec (.sfree d) s = .next t' ∧ Tab.get (t'.ctx s.cur).ahead d [] = [] ∧
      t'.mem = (if bit (t.rs u d 2) 15 then t.ws u d 2 (t.rs u d 2 - 32768) else t).mem) ∧
  GivesX (.sstat d a) { d := wr .x d, dd := true, other := 2, deck := false, svc := false } d (fun _ t =>
    bits (t.rs t.cur a 2) 63 32 * 4294967296 + min 16 (Tab.get (t.ctx t.cur).ahead a []).length * 65536 + bits (t.rs t.cur a 2) 15 14 * 16384)

/-! ### Intervals -/

/-- R61: a bound rounded outward is on the outer side of the exact bound, at both widths. -/
def Obligations.OutwardRounding : Prop := ∀ (wide : Bool) (v : Val), v.isNan = false →
  leB ((boundSlot wide).decode (boundCode wide false v)) v = true ∧ leB v ((boundSlot wide).decode (boundCode wide true v)) = true

/-- R64: a contractor never widens an operand: whatever its inverse image, a bound that it leaves lies within the old one. -/
def Obligations.ContractorsOnlyNarrow : Prop := ∀ (wide binary same : Bool) (f : Inverse) (z x y : Ival) (xl xh yl yh lo hi : Val),
  x = .iv xl xh → y = .iv yl yh →
  ((contract wide binary same f z x y).1 = .iv lo hi → leB xl lo = true ∧ leB hi xh = true) ∧
  (binary = true → (contract wide binary same f z x y).2 = .iv lo hi → leB yl lo = true ∧ leB hi yh = true)

namespace Sys2Proof.Claims
/-- An interval operand (R57, R330): FP64 elements or FP32. -/
def ivTag (tag : Nat) (wide : Bool) : Prop :=
  bit tag 14 = true ∧ bit tag 5 = false ∧ tag % 32 = (if wide then 27 else 26) ∧ bit tag 15 = wide
/-- The elements of a result: active ones by f, the others as they were (R332). -/
def elemsBy (wide : Bool) (act old : Nat) (f : Nat → Ival) : Nat :=
  ofLanes (2 * boundBits wide) ((List.range (elemsIn wide)).map fun k =>
    if bit act k then (f k).code wide else lane old (2 * boundBits wide) k)
/-- Is an active element of a result empty (R60)? -/
def someEmpty (wide : Bool) (act : Nat) (f : Nat → Ival) : Bool := (List.range (elemsIn wide)).any fun k => bit act k && (f k).isEmpty
/-- Word i completes with the elements f gives in i[D], or where DST directs it, and sets EM for an empty one (R60, R331). -/
def GivesElems (i : Instr) (s : State) (o : Opnds) (t : State) (d : Nat) (wide : Bool) (f : Nat → Ival) : Prop :=
  ∀ old t', t.oldI t.cur o d (elemsIn wide) = .ok old →
    t.putI t.cur o d (elemsBy wide o.pred old f) (if wide then 49179 else 16410) = .ok t' →
    exec i s = .next ((if someEmpty wide o.pred f then t'.setCtx t.cur { t'.ctx t.cur with iflag := (t'.ctx t.cur).iflag ||| 2 } else t'
      ).advance s.cur)
/-- Word i hands the special-function unit a request for those elements (R334). -/
def AsksElems (i : Instr) (s : State) (o : Opnds) (t : State) (d : Nat) (wide : Bool) (lat : Nat × Nat) (f : Nat → Ival) : Prop :=
  ∀ old, t.oldI t.cur o d (elemsIn wide) = .ok old → (t.core t.cur.core).sfu.any (·.ctx == t.cur) = false → o.m.dst = 0 →
    ∃ t' q, exec i s = .next t' ∧ q ∈ (t'.core t.cur.core).sfu ∧ q.ctx = t.cur ∧ q.lat = (if wide then lat.2 else lat.1) ∧
      q.outs = [(3, d, BitVec.ofNat 1024 (elemsBy wide o.pred old f), BitVec.ofNat 16 (if wide then 49179 else 16410))] ∧
      q.ior = (if someEmpty wide o.pred f then 2 else 0) ∧ t'.mem = t.mem
/-- The two-operand forward words (R62, R336) that the pipes complete: image, or none where it is undefined. -/
def forward2 (d a b : Nat) : List (Instr × (Val × Val → Val × Val → Option (Val × Val))) :=
  [(.iadd d a b, fun x y => some (addB false x.1 y.1, addB true x.2 y.2)),
   (.isub d a b, fun x y => some (addB false x.1 y.2.flip, addB true x.2 y.1.flip)),
   (.imul d a b, fun x y => some (mulI x y)),
   (.imin d a b, fun x y => some (minB x.1 y.1, minB x.2 y.2)), (.imax d a b, fun x y => some (maxB x.1 y.1, maxB x.2 y.2))]
/-- Those of one operand. -/
def forward1 (d a : Nat) : List (Instr × (Val × Val → Option (Val × Val))) :=
  [(.isqr d a, fun x => some (sqrI x)), (.irelu d a, fun x => some (maxB x.1 zeroB, maxB x.2 zeroB)),
   (.ineg d a, fun x => some (x.2.flip, x.1.flip)),
   (.iabs d a, fun x => some (if leB x.1 zeroB && leB zeroB x.2 then (zeroB, maxB x.1.flip x.2)
      else (minB x.1.abs x.2.abs, maxB x.1.abs x.2.abs)))]
/-- Those of the special-function unit, with latencies (R334). -/
def forwardSfu (d a : Nat) : List (Instr × (Nat × Nat) × (Bool → Val × Val → Option (Val × Val))) :=
  [(.isqrt d a, (18, 30), fun w x => if x.2.lt zeroB then none
      else some (looseB w false 0 x.1 (rootB (maxB x.1 zeroB)), looseB w true 0 x.2 (rootB x.2))),
   (.iexp2 d a, (16, 24), fun w x => some (looseB w false 1 x.1 (exp2B false x.1), looseB w true 1 x.2 (exp2B true x.2))),
   (.ilog2 d a, (16, 24), fun w x => if leB x.2 zeroB then none
      else some (looseB w false 2 x.1 (log2B false (maxB x.1 zeroB)), looseB w true 2 x.2 (log2B true x.2)))]
/-- An element of a forward word: empty operands make it PROPAGATED, an undefined image DOMAIN (R59, R60). -/
def image2 (f : Val × Val → Val × Val → Option (Val × Val)) : Ival → Ival → Ival
  | .iv a b, .iv c d => (f (a, b) (c, d)).elim (.empty 3) fun p => .iv p.1 p.2
  | _, _ => .empty 5
def image1 (f : Val × Val → Option (Val × Val)) : Ival → Ival
  | .iv a b => (f (a, b)).elim (.empty 3) fun p => .iv p.1 p.2
  | .empty _ => .empty 5
end Sys2Proof.Claims

/-- R62, R63, R336 to R338, R334: the forward interval words, element by element. -/
def Obligations.IntervalForward : Prop := ∀ (d a b c : Nat) (w : Bool) (s : State) (o : Opnds) (t : State),
  let x (k : Nat) := Ival.at_ w o.a k
  let y (k : Nat) := Ival.at_ w o.b k
  ivTag o.ta w →
  (prep (iarSig d a (some b)) s = .ok (o, t) → ivTag o.tb w →
    (∀ e ∈ forward2 d a b, GivesElems e.1 s o t d w fun k => image2 e.2 (x k) (y k)) ∧
    AsksElems (.idiv d a b) s o t d w (20, 34) (fun k => image2 (fun u v => hullP (divPieces u v)) (x k) (y k))) ∧
  (prep (iarSig d a none) s = .ok (o, t) →
    (∀ e ∈ forward1 d a, GivesElems e.1 s o t d w fun k => image1 e.2 (x k)) ∧
    (∀ e ∈ forwardSfu d a, AsksElems e.1 s o t d w e.2.1 fun k => image1 (e.2.2 w) (x k))) ∧
  (prep { iarSig d a (some b) with c := rd .i c, dd := false, da := false, db := false } s = .ok (o, t) → ivTag o.tb w → ivTag o.tc w →
    GivesElems (.ifma d a b c) s o t d w fun k => match x k, y k, Ival.at_ w o.c k with
      | .iv p q, .iv u v, .iv e f => .iv (addB false (mulI (p, q) (u, v)).1 e) (addB true (mulI (p, q) (u, v)).2 f)
      | _, _, _ => .empty 5) ∧
  (prep { iarSig d a none with b := rd .v b, dd := false, da := false } s = .ok (o, t) → typed o.tb 28 →
    GivesElems (.iscale d a b) s o t d w fun k =>
      image1 (fun u => some (u.1.scale (capScale (sext (lane o.b 32 k) 32)), u.2.scale (capScale (sext (lane o.b 32 k) 32)))) (x k))

namespace Sys2Proof.Claims
/-- The contractors of R65: second operand, latencies in the special-function unit or none, inverse images. -/
def contractors (d a b : Nat) : List (Instr × Option Nat × Option (Nat × Nat) × Inverse) :=
  let sub (u v : Val × Val) := [(addB false u.1 v.2.flip, addB true u.2 v.1.flip)]
  let add (u v : Val × Val) := [(addB false u.1 v.1, addB true u.2 v.2)]
  let up (z y : Val × Val) := [((if y.2.lt z.1 then z.1 else .inf true), z.2)]
  let down (z y : Val × Val) := [(z.1, if z.2.lt y.1 then z.2 else .inf false)]
  let pos (z : Val × Val) (f : Val × Val → List (Val × Val)) := if z.2.lt zeroB then [] else f (maxB z.1 zeroB, z.2)
  [(.cadd d a b, some b, none, { x := sub, y := sub }),
   (.csub d a b, some b, none, { x := add, y := fun z x => sub x z }),
   (.cmul d a b, some b, some (22, 36), { x := relQuot, y := relQuot }),
   (.cdiv d a b, some b, some (22, 36), { x := fun z y => [mulI z y], y := fun z x => relQuot x z }),
   (.cmax d a b, some b, none, { x := up, y := up }), (.cmin d a b, some b, none, { x := down, y := down }),
   (.csqr d a, none, some (20, 34), { x := fun z _ => pos z fun p => [(rootB p.1, rootB p.2), negI (rootB p.1, rootB p.2)] }),
   (.csqrt d a, none, some (18, 30), { x := fun z _ => pos z fun p => [(mulB p.1 p.1, mulB p.2 p.2)] }),
   (.cexp2 d a, none, some (18, 26), { x := fun z _ => pos z fun p => [(log2B false p.1, log2B true p.2)] }),
   (.crelu d a, none, none, { x := fun z _ => if z.2.lt zeroB then [] else if leB z.1 zeroB then [(.inf true, z.2)] else [z] }),
   (.cabs d a, none, none, { x := fun z _ => pos z fun p => [p, negI p] })]
end Sys2Proof.Claims

/-- R64 to R68, R334, R339 to R341: a contractor reads D, A and B, writes what is left of A, and of B when it is binary, sets EM and
NP, and rewrites PMASK with the elements that progressed; those of the special-function unit hand it all that as a request. -/
def Sys2Proof.Claims.ContractorWords : Prop := ∀ (d a b : Nat), ∀ e ∈ contractors d a b, ∀ (w : Bool) (s : State) (o : Opnds) (t : State),
  let binary := e.2.1.isSome
  let same := e.2.1 == some a
  let x (k : Nat) := Ival.at_ w o.a k
  let y (k : Nat) := if binary then Ival.at_ w o.b k else .iv zeroB zeroB
  let r (k : Nat) := contract w binary same e.2.2.2 (Ival.at_ w o.d k) (x k) (y k)
  let pk := bits (t.ctx t.cur).iflag.toNat 7 4
  let pm := maskOf (elemsIn w) fun k => bit o.pred k && (progress pk (x k) (r k).1 || (binary && progress pk (y k) (r k).2))
  let em := someEmpty w o.pred (fun k => (r k).1) || (binary && someEmpty w o.pred fun k => (r k).2)
  let fl := (if em then 2 else 0) + if pm = 0 then 0 else 1
  let xv := elemsBy w o.pred o.a fun k => (r k).1
  let yv := elemsBy w o.pred o.b fun k => (r k).2
  let tag := if w then 49179 else 16410
  prep { d := rd .i d, a := rw .i a, b := e.2.1.elim none (rw .i ·), pred := true, deck := false, svc := false } s = .ok (o, t) →
  ivTag o.td w → ivTag o.ta w → (binary = true → ivTag o.tb w) →
  (e.2.2.1 = none → (∀ q ∈ (t.core t.cur.core).sfu, q.ctx = t.cur → q.pmask = none) →
    ∃ t' : State, exec e.1 s = .next t' ∧
      t'.mem = (if binary && !same then (t.wi t.cur a xv tag).wi t.cur b yv tag else t.wi t.cur a xv tag).mem ∧
      (t'.ctx s.cur).iflag = Word.ofN (((t.ctx t.cur).iflag.toNat % 65536 ||| fl) + pm * 65536)) ∧
  (∀ lat, e.2.2.1 = some lat → (t.core t.cur.core).sfu.any (·.ctx == t.cur) = false →
    ∃ t' q, exec e.1 s = .next t' ∧ q ∈ (t'.core t.cur.core).sfu ∧ q.ctx = t.cur ∧ q.ior = fl ∧ q.pmask = some pm ∧
      q.lat = (if w then lat.2 else lat.1) ∧ t'.mem = t.mem ∧
      q.outs = (3, a, BitVec.ofNat 1024 xv, BitVec.ofNat 16 tag) ::
        (if binary && !same then [(3, b, BitVec.ofNat 1024 yv, BitVec.ofNat 16 tag)] else []))

namespace Sys2Proof.Claims
/-- The measures of R343 of a non-empty element, as codes. -/
def measures (d a : Nat) (h : Bool) : List (Instr × (Bool → Val → Val → Nat)) :=
  [(.imid d a h, midCode), (.ilo d a h, fun w lo _ => boundCode w false lo), (.ihi d a h, fun w _ hi => boundCode w true hi),
   (.iwid d a h, fun w lo hi => boundCode w true (addB true hi lo.flip)),
   (.irad d a h, fun w lo hi =>
     let m := (boundSlot w).decode (midCode w lo hi)
     boundCode w true (maxB (addB true m lo.flip) (addB true hi m.flip)))]
end Sys2Proof.Claims

/-- R342 to R344, R59: IHULL, IMEET, ISPLIT, IEMPTY, IMK, and the measures, which write half of v[D]. -/
def Sys2Proof.Claims.IntervalSets : Prop := ∀ (d a b : Nat) (h w : Bool) (s : State) (o : Opnds) (t : State),
  let x (k : Nat) := Ival.at_ w o.a k
  let y (k : Nat) := Ival.at_ w o.b k
  let base := if h then elemsIn w else 0
  (prep (iarSig d a (some b)) s = .ok (o, t) → ivTag o.ta w → ivTag o.tb w →
    GivesElems (.ihull d a b) s o t d w (fun k => hullI (x k) (y k)) ∧
    GivesElems (.imeet d a b) s o t d w (fun k => match x k, y k with
      | .iv p q, .iv u v => (meetI (p, q) (u, v)).elim (.empty 2) fun r => .iv r.1 r.2
      | _, _ => .empty 5)) ∧
  (∀ t1 t2, prep { d := wr .i d, a := rd .i a, b := wr .i b, dd := true, da := true, db := true, apart := true, deck := false, svc := false
      } s = .ok (o, t) → ivTag o.ta w →
    let half (up : Bool) (k : Nat) : Ival := match x k with
      | .iv lo hi => if up then .iv ((boundSlot w).decode (midCode w lo hi)) hi else .iv lo ((boundSlot w).decode (midCode w lo hi))
      | .empty _ => .empty 5
    t.putI t.cur o d (elemsBy w ones128 0 (half false)) (if w then 49179 else 16410) = .ok t1 →
    t1.putI t.cur { o with m := { o.m with dst := o.m.srcb } } b (elemsBy w ones128 0 (half true)) (if w then 49179 else 16410) = .ok t2 →
    exec (.isplit d a b) s = .next ((t2.orIflag t.cur (if someEmpty w ones128 (half true) then 2 else 0)).advance s.cur)) ∧
  (prep { d := wr .i d, dd := true, pred := true, deck := false, svc := false } s = .ok (o, t) →
    GivesElems (.iempty d w) s o t d w fun _ => .empty 1) ∧
  (prep { d := wr .i d, a := rd .v a, b := rd .v b, dd := true, pred := true, deck := false, svc := false } s = .ok (o, t) →
    typed o.ta (if w then 27 else 26) → typed o.tb (if w then 27 else 26) →
    GivesElems (.imk d a b h) s o t d w fun k => .make w (lane o.a (boundBits w) (base + k)) (lane o.b (boundBits w) (base + k))) ∧
  (∀ e ∈ measures d a h, prep { d := rw .v d, a := rd .i a, da := true, pred := true, deck := false, svc := false } s = .ok (o, t) →
    ivTag o.ta w →
    exec e.1 s = .next (((t.cancel t.cur 2 d).wv t.cur d (ofLanes (boundBits w) ((List.range (2 * elemsIn w)).map fun j =>
      if base ≤ j ∧ j < base + elemsIn w ∧ bit o.pred (j - base) = true then (match x (j - base) with
        | .empty c => emptyBase w + c
        | .iv lo hi => e.2 w lo hi)
      else lane o.d (boundBits w) j)) (if w then 16411 else 16410)).advance s.cur))

namespace Sys2Proof.Claims
/-- The predicates of R70 on two elements: 1 true, 0 false, 2 unknown. -/
def predicates (d a b : Nat) : List (Instr × Option Nat × (Ival → Ival → Nat)) :=
  let cmp (yes no : Val → Val → Val → Val → Bool) (x y : Ival) : Nat := match x, y with
    | .iv a b, .iv c d => if yes a b c d then 1 else if no a b c d then 0 else 2
    | _, _ => 2
  [(.iclt d a b, some b, cmp (fun _ b c _ => b.lt c) fun a _ _ d => leB d a),
   (.icle d a b, some b, cmp (fun _ b c _ => leB b c) fun a _ _ d => d.lt a),
   (.iceq d a b, some b, cmp (fun a b c d => a.same b && b.same c && c.same d) fun a b c d => b.lt c || d.lt a),
   (.isubset d a b, some b, fun x y => match x, y with
     | .empty _, _ => 1 | _, .empty _ => 0 | .iv a b, .iv c d => if leB c a && leB b d then 1 else 0),
   (.idisj d a b, some b, fun x y => match x, y with | .iv a b, .iv c d => if b.lt c || d.lt a then 1 else 0 | _, _ => 1),
   (.iisemp d a, none, fun x _ => match x with | .empty _ => 1 | .iv .. => 0)]
/-- Element k of a q value, 3 read as unknown (R69). -/
def q3 (v k : Nat) : Nat := if lane v 2 k = 3 then 2 else lane v 2 k
/-- Kleene's conjunction and disjunction (R71). -/
def kleeneAnd (x y : Nat) : Nat := if x = 0 ∨ y = 0 then 0 else if x = 1 ∧ y = 1 then 1 else 2
def kleeneOr (x y : Nat) : Nat := if x = 1 ∨ y = 1 then 1 else if x = 0 ∧ y = 0 then 0 else 2
end Sys2Proof.Claims

/-- R69 to R71, R345 to R347: the interval predicates, the q logic and its reductions, and IPROG. -/
def Obligations.ThreeValuedWords : Prop := ∀ (d a b c : Nat) (h : Bool),
  (∀ e ∈ predicates d a b, ∀ (w : Bool), Does e.1
    { d := rw .q d, a := rd .i a, b := e.2.1.elim none (rd .i ·), da := true, db := e.2.1.isSome, pred := true, deck := false, svc := false }
    (fun o _ => ivTag o.ta w ∧ (e.2.1.isSome = true → ivTag o.tb w))
    (fun o t => t.wq t.cur d (ofLanes 2 ((List.range (elemsIn w)).map fun k =>
      if bit o.pred k then e.2.2 (Ival.at_ w o.a k) (Ival.at_ w o.b k) else lane o.d 2 k)))) ∧
  (∀ e ∈ ([(.qand d a b, some b, none, fun x y _ => kleeneAnd x y), (.qor d a b, some b, none, fun x y _ => kleeneOr x y),
           (.qnot d a, none, none, fun x _ _ => if x = 0 then 1 else if x = 1 then 0 else 2),
           (.qsel d a b c, some b, some c, fun x y z => if z = 1 then x else if z = 0 then y else if x = y then x else 2)] :
      List (Instr × Option Nat × Option Nat × (Nat → Nat → Nat → Nat))),
    Does e.1 { d := wr .q d, a := rd .q a, b := e.2.1.elim none (rd .q ·), c := e.2.2.1.elim none (rd .q ·), deck := false, svc := false }
      (fun _ _ => True) (fun o t => t.wq t.cur d (ofLanes 2 ((List.range 16).map fun k => e.2.2.2 (q3 o.a k) (q3 o.b k) (q3 o.c k))))) ∧
  (∀ e ∈ ([(.qall d a h, kleeneAnd, 1), (.qany d a h, kleeneOr, 0)] : List (Instr × (Nat → Nat → Nat) × Nat)),
    GivesX e.1 { d := wr .x d, a := rd .q a, deck := false, svc := false } d
      (fun o _ => ((List.range (if h then 8 else 16)).map (q3 o.a ·)).foldl e.2.1 e.2.2)) ∧
  Does (.iprog d) { d := wr .q d, deck := false, svc := false }
    (fun _ t => ∀ q ∈ (t.core t.cur.core).sfu, q.ctx = t.cur → q.pmask = none)
    (fun _ t => t.wq t.cur d (ofLanes 2 ((List.range 16).map fun k => if bit (t.ctx t.cur).iflag.toNat (16 + k) then 1 else 0)))

/-! ### The matrix unit, handles and formats -/

namespace Sys2Proof.Claims
/-- What a matrix command word captures when it is issued (R376). -/
def command (t : State) (handles : List Nat) (xv : Nat) : MCmd :=
  { id := 0, word := t.ir.toNat, xv := xv, h0 := (handles.map (t.handle t.cur)).getD 0 [], h1 := (handles.map (t.handle t.cur)).getD 1 [],
    fds := t.fdList t.cur.core, src := some t.cur, asid := t.spaceOf t.cur, after := t.engineIds t.cur,
    behind := t.engineNow t.cur }
/-- Word i is a matrix command: on complete handles it is accepted into a queue that has room, and its first reject cause in the order
of R418, FORMAT_INVALID before MATRIX_REJECT, is a trap at the word. -/
def Commands (i : Instr) (b c : Option Opr) (handles : List Nat) (xv : Opnds → Nat) : Prop :=
  ∀ s o t, prep { b := b, c := c, deck := false, svc := false } s = .ok (o, t) → (∀ h ∈ handles, t.hndReady t.cur h = .ok ()) →
    let u := t.cur.core
    let m := command t handles (xv o)
    let trap (why : Trap) := s.takeTrap s.cur why (s.ctx s.cur).resume s.ir.toNat
    (m.formatBad (t.core u) = none → t.cmdReject u m (handles.headD 0) = none → (t.core u).mq.length < 8 →
      exec i s = .next ((t.cmdAccept u m).advance s.cur)) ∧
    (∀ n, m.formatBad (t.core u) = some n → exec i s = .next (trap { cause := 7, val := m.fd n + n * 4294967296 })) ∧
    (∀ det v, m.formatBad (t.core u) = none → t.cmdReject u m (handles.headD 0) = some (det, v) →
      exec i s = .next (trap { cause := 35, detail := det, val := v }))
end Sys2Proof.Claims

/-- R375, R376, R378 to R382, R417, R418: the six matrix command words. -/
def Sys2Proof.Claims.MatrixCommands : Prop := ∀ (a b c d : Nat) (hi : Bool),
  Commands (.mma d a b c) (rd .x b) none [a] (·.b) ∧ Commands (.mmaiv d a b c) (rd .x b) none [a] (·.b) ∧
  Commands (.mma64 d a b c) none (rd .x c) [a, b] (·.c) ∧ Commands (.mldw d a b c) (rd .x b) none [a] (·.b) ∧
  Commands (.mzero d hi) none none [] (fun _ => 0) ∧ Commands (.mdrain d a b c) (rd .x b) none [a] (·.b)

/-- R376: acceptance appends the command, with what it captured, to the queue of its core, keeps the rest of the queue, and touches
no memory. -/
def Sys2Proof.Claims.CommandAcceptance : Prop := ∀ (s : State) (u : CoreId) (m : MCmd),
  ∃ n : MCmd, ((s.cmdAccept u m).core u).mq = (s.core u).mq ++ [n] ∧
    n.word = m.word ∧ n.xv = m.xv ∧ n.h0 = m.h0 ∧ n.h1 = m.h1 ∧ n.fds = m.fds ∧ n.src = m.src ∧ n.asid = m.asid ∧ n.started = m.started ∧
    n.id = s.nextId ∧ (s.cmdAccept u m).mem = s.mem ∧ (s.cmdAccept u m).ctxs = s.ctxs

/-- R383, R390 to R392, R25: MSYNC completes when no command that it names is queued, and waits otherwise; MSTAT of the unit, of a tile
and of a crown position; a reserved selector is MATRIX_REJECT 8; HLD of a near descriptor, HQRY of a doubleword, HCLR, FMTSET, after which no element that
a stream of the core has read ahead is left, and FMTGET; HLD and HCLR wait for an HLD of their handle that is on its way (R404). -/
def Obligations.MatrixStatusAndHandles : Prop := ∀ (d a b : Nat) (f : Bool),
  let g : Sig := { deck := false, svc := false }
  let left (t : State) : List Nat := ((t.core t.cur.core).mq.filter fun m =>
    decide (m.id < (t.ctx t.cur).syncTo.getD t.nextId) && (f || m.src == some t.cur)).map (·.id)
  let ms : Sig := { d := wr .x d, a := rd .x a, deck := false, svc := false }
  let hq : Sig := { d := wr .x d, b := rd .x b, dd := true, db := true, other := 2, deck := false, svc := false }
  let hl : Sig := { a := rd .x a, da := true, other := 1, deck := false, svc := false }
  Does (.msync f) g (fun _ t => left t = []) (fun _ t => t) ∧
  Leaves (.msync f) g (fun _ t => left t ≠ [] ∧ (t.ctx t.cur).timed = none) (fun _ t =>
    (t.setCtx t.cur { t.ctx t.cur with syncTo := some ((t.ctx t.cur).syncTo.getD t.nextId) }).sleep t.cur (.msync (left t))) ∧
  (∀ s o t t', prep ms s = .ok (o, t) →
    let k := t.core t.cur.core
    let sel := o.a % 64
    let tag := (Tab.get k.tiles (sel - 4) 0).toNat
    (sel = 0 → t.putX t.cur o d k.unitStatus = .ok t' → exec (.mstat d a f) s = .next (t'.advance s.cur)) ∧
    (4 ≤ sel → sel < 8 →
      (if f then t.setCore t.cur.core { k with tiles := Tab.set k.tiles (sel - 4) (BitVec.ofNat 20 (tag % 65536)) } else t).putX t.cur o d tag
        = .ok t' → exec (.mstat d a f) s = .next (t'.advance s.cur)) ∧
    (16 ≤ sel → sel < 32 → t.putX t.cur o d (k.crownTag (sel - 16)) = .ok t' → exec (.mstat d a f) s = .next (t'.advance s.cur)) ∧
    (1 ≤ sel ∧ sel < 4 ∨ 8 ≤ sel ∧ sel < 16 ∨ 32 ≤ sel → ∃ v, exec (.mstat d a f) s =
      .next ({ s with free := s.free + 1 }.takeTrap s.cur { cause := 35, detail := 8, val := v } (s.ctx s.cur).resume s.ir.toNat))) ∧
  (∀ s o t p, prep hl s = .ok (o, t) →
    let sp := bits o.a 63 60
    t.aim t.cur o.a 64 0 64 (if sp = 4 ∨ sp = 5 then .l else if sp = 7 then .w else .f) false false = .ok p → p.near t.cur = true →
    t.pending t.cur 4 d = false →
    t.ahead {
      id := 0, ctx := t.cur, act := .load, kind := if sp = 4 ∨ sp = 5 then .l else if sp = 7 then .w else .f, key := p.key, va := o.a
      n := 64, lat := p.lat, ea := o.a, dcls := 4, dreg := d } = [] → t.poisoned p.key 64 = none →
    exec (.hld d a) s = .next ((((t.markSeen t.cur p.key 64).wh t.cur d (t.rdMem p.key 64)).later t.cur 4 d).advance s.cur)) ∧
  (∀ s o t, prep hl s = .ok (o, t) → t.pending t.cur 4 d = true → (s.ctx s.cur).timed = none →
    exec (.hld d a) s = .next (s.sleep s.cur (.operands 4 d))) ∧
  (∀ s o t, prep { other := 1, deck := false, svc := false } s = .ok (o, t) → t.pending t.cur 4 d = true → (s.ctx s.cur).timed = none →
    exec (.hclr d) s = .next (s.sleep s.cur (.operands 4 d))) ∧
  (∀ s o t t', prep hq s = .ok (o, t) → t.hndReady t.cur a = .ok () →
    (o.b % 16 < 8 → t.putX t.cur o d ((t.handle t.cur a).getD (o.b % 16) 0) = .ok t' → exec (.hqry d a b) s = .next (t'.advance s.cur)) ∧
    (o.b % 16 = 8 → (Hnd.of (t.handle t.cur a)).kind ≠ 2 → t.putX t.cur o d 0 = .ok t' → exec (.hqry d a b) s = .next (t'.advance s.cur))) ∧
  Traps (.hqry d a b) hq (fun o _ => 8 < o.b % 16) (fun o _ => { cause := 1, field := 4, val := o.b }) ∧
  Does (.hclr d) { other := 1, deck := false, svc := false } (fun _ t => t.pending t.cur 4 d = false)
    (fun _ t => t.wh t.cur d 0) ∧
  (∀ s o t, prep hl s = .ok (o, t) → ∃ t' : State, exec (.fmtset d a) s = .next (t'.advance s.cur) ∧
    t'.core t.cur.core = { t.core t.cur.core with fd := Tab.set (t.core t.cur.core).fd d (BitVec.ofNat 32 o.a) } ∧
    (∀ c ∈ t.cur.core.ctxs, t'.ctx c = { t.ctx c with ahead := [] } ∧ ∀ f ∈ t'.flight, f.ctx = c → f.dcls ≠ 6) ∧
    (∀ c, c ∉ t.cur.core.ctxs → t'.ctx c = t.ctx c) ∧ t'.mem = t.mem) ∧
  GivesX (.fmtget d a) { d := wr .x d, dd := true, other := 2, deck := false, svc := false } d (fun _ t => t.fdOf t.cur.core a)

/-! ### Views -/

namespace Sys2Proof.Claims
/-- Word i asks the view engine with function f about the view that x[A] names, and waits for the answer (R389, R466); an identifier
that names no view is VIEW_FAULT 8 (R418). -/
def AsksEngine (i : Instr) (g : Sig) (f : Nat) (first : Opnds → State → CtxId → List Nat) : Prop :=
  Leaves i g (fun o t => (g.b = none ∨ o.b % 4 ≠ 3) ∧ (∃ e, t.namedView o.a = .ok e) ∧ (t.ctx t.cur).timed = none) (fun o t =>
    let w := t.sleep t.cur .view
    w.viewAsk t.cur f (o.a % 65536) (bits o.a 18 16) (o.b % 4) (first o t t.cur)) ∧
  Traps i g (fun o t => (g.b = none ∨ o.b % 4 ≠ 3) ∧ t.namedView o.a = .error (.trap { cause := 38, detail := 8, val := o.a }))
    (fun o _ => { cause := 38, detail := 8, val := o.a })
/-- The view that a registration block and the core's descriptors describe, its shards and pages apart (R185). -/
def viewOf (t : State) (m : Master) (w : Nat → Nat) : View :=
  { num := (lowestFree 8 (m.views.map (·.num))).getD 0, pol := bits (w 2) 25 24, lay := bits (w 2) 21 20, geo := bits (w 2) 17 16,
    slot := bits (w 2) 12 8, fd := t.fdList t.cur.core, shards := [], asid := t.spaceOf t.cur }
/-- The state in which a registration that is in order waits for its answer: the master has the new view, whose request is on its way. -/
def registered (t : State) (m : Master) (new : Bool) (v : View) : State :=
  let c := t.cur
  let m := { m with views := m.views ++ [v] }
  let p := m.mid / 256
  let t := if new then t.setPylon p { t.pylon p with masters := (t.pylon p).masters ++ [m] } else t.setMaster m
  (t.sleep c .view).viewAsk c 0 m.mid v.num 0 []
end Sys2Proof.Claims

/-- R389, R185 to R189, R405, R418: VWREG with a sound block registers the view with the lowest free number, of the master that it
names or of a new one; the first of DETAIL 1, 2 and 3 that its block meets is its cause (`tval` left open). VWDEL, VWSYNC, VWPOL and
VWKICK ask the engine and wait; policy 3 is ILLEGAL; VWSTAT goes on like a load whose value comes later. -/
def Obligations.ViewWords : Prop := ∀ d a b : Nat,
  let g1 : Sig := { a := rd .x a, da := true, scope := true, svc := false }
  let g2 : Sig := { a := rd .x a, da := true, b := rd .x b, db := true, scope := true, svc := false }
  (∀ s o t ws, prep { rr d a with scope := true, svc := false } s = .ok (o, t) → t.ownWords t.cur o.a 64 = .ok ws →
    let c := t.cur
    let asid := t.spaceOf c
    let w (i : Nat) := ws.getD i 0
    let slot := bits (w 2) 4 0
    let rows := bits (w 1) 31 0
    let cols := bits (w 1) 63 32
    let ms := if slot = 26 then 4 else 2
    let bad2 := dimBad rows = true ∨ dimBad cols = true ∨ w 0 % (16384 * ms) ≠ 0
    let bad3 := viewFmtOk (t.fdOf c.core) (bits (w 2) 12 8) (bits (w 2) 17 16) = false
    let rejects (det : Nat) := ∃ v, exec (.vwreg d a) s =
      .next ({ s with free := s.free + 1 }.takeTrap s.cur { cause := 38, detail := det, val := v } (s.ctx s.cur).resume s.ir.toNat)
    (regReserved w = true → rejects 1) ∧
    (regReserved w = false → bad2 → rejects 2) ∧
    (regReserved w = false → ¬ bad2 → bad3 → rejects 3) ∧
    (regReserved w = false → ¬ bad2 → ¬ bad3 → ∀ m new, t.regMaster c.core.pyl asid (w 0) rows cols slot = .ok (m, new) →
      t.sfuAim c o.m.dst 0 t.cyc false = .ok () → (t.ctx c).timed = none → o.engines t c = [] →
      ∀ t1 pa t2 sh t3 pg, (if new then t.masterPages asid (w 0) (rows * cols * ms) else .ok (t, m.pa)) = .ok (t1, pa) →
        let m1 := { m with pa := pa }
        let v := viewOf t m1 w
        (upFrom 0 (bits (w 2) 31 28 + 1)).foldlM (readShard s c asid (w 3) v.scaled) (t1, []) = .ok (t2, sh) →
        t2.shardPages asid m1 { v with shards := sh } = .ok (t3, pg) → t3.cur = c →
        exec (.vwreg d a) s = .next (registered t3 m1 new { v with shards := sh, pages := pg }))) ∧
  AsksEngine (.vwdel a) g1 1 Opnds.engines ∧
  AsksEngine (.vwsync a) g1 2 (fun o t c => t.syncIds c ++ if o.m.scope = 5 then t.releaseIds c true else []) ∧
  AsksEngine (.vwpol a b) g2 3 Opnds.engines ∧
  Traps (.vwpol a b) g2 (fun o _ => o.b % 4 = 3) (fun _ _ => { cause := 1, field := 4, val := 3 }) ∧
  AsksEngine (.vwkick a) g1 5 Opnds.engines ∧
  (∀ s o t e, prep { rr d a with svc := false } s = .ok (o, t) → t.namedView o.a = .ok e → o.m.dst = 0 →
    t.sfuAim t.cur 0 0 (t.cyc + 260) false = .ok () →
    let u := t.cancel t.cur 1 d
    exec (.vwstat d a) s = .next ((({ u.fresh with
      flight := u.flight ++ [{ id := u.nextId, ctx := t.cur, act := .load, kind := .f, key := 0, va := o.a, n := 8, performed := true,
                               dcls := if d = 0 then 0 else 1, dreg := d, lat := 260 }] } : State).viewAsk t.cur 4 e.1.mid e.2.num u.nextId []).advance
        s.cur))

/-! ### Steps of the hardware: they run with the argument `s.arg`, of which `s.n k` is number k -/

namespace Sys2Proof.Claims
/-- Step i, under a condition, has an effect. -/
def Ev (i : Instr) (cond : State → Prop) (eff : State → State) : Prop := ∀ s, cond s → exec i s = .next (eff s)
/-- The context of the step is in the wait that number k names, and is not stopped. -/
def waits (k : Nat) (s : State) : Prop := s.inWait s.arg.ctx (s.n k) = true
/-- Step i completes a wait, number k of its argument: while the context is stopped it is held (R222); once the wait has ended by
another way it does nothing. -/
def EndsWait (i : Instr) (k : Nat) : Prop :=
  Ev i (fun s => (s.ctx s.arg.ctx).st = .stopped)
    (fun s => s.setCtx s.arg.ctx { s.ctx s.arg.ctx with held := (s.ctx s.arg.ctx).held ++ [(i, s.arg)] }) ∧
  Ev i (fun s => (s.ctx s.arg.ctx).st ≠ .stopped ∧ ¬ waits k s) id
/-- The value v reaches a context that waits without a direction in its chain: its destination register, and the wait ends. -/
def answered (s : State) (v : Nat) : State :=
  let c := s.arg.ctx
  let d := bits (s.ctx c).waitIr.toNat 25 21
  ((s.cancel c 1 d).wx c d v).wake c
/-- No HINT.MOD stands before the waiting word. -/
def undirected (s : State) : Prop := (s.ctx s.arg.ctx).chainMod = none
end Sys2Proof.Claims

/-- R222, R256, R285, R286, R362, R368, R369, R385, R414, R422, R465, R467: the steps that complete a waiting word, when the context
still waits. -/
def Obligations.WaitsEnd : Prop :=
  let c (s : State) := s.arg.ctx
  EndsWait .delayExpiry 0 ∧ EndsWait .yieldEnd 0 ∧ EndsWait .waittExpiry 0 ∧ EndsWait .twaitTimeout 0 ∧ EndsWait .wfiTimeout 0 ∧
  EndsWait .pcallAcceptNews 0 ∧ EndsWait .commandQueuedNews 0 ∧ EndsWait .stopAckArrival 1 ∧ EndsWait .msendAnswerArrival 0 ∧
  EndsWait .tretAnswerArrival 0 ∧ EndsWait .tstealAnswerArrival 2 ∧ EndsWait .tlbWalkEnd 3 ∧
  (∀ i ∈ ([.waittExpiry, .pcallAcceptNews, .commandQueuedNews] : List Instr), Ev i (waits 0) (fun s => s.wake (c s))) ∧
  Ev .delayExpiry (waits 0) (fun s => s.setCtx (c s) { s.ctx (c s) with
    st := .ready, wait := .none, pc := (s.ctx (c s)).pc + 4, since := s.cyc, resumeAt := 0 }) ∧
  Ev .yieldEnd (waits 0) (fun s => (s.wake (c s)).setCtx (c s) { (s.wake (c s)).ctx (c s) with yieldTo := [] }) ∧
  Ev .twaitTimeout (fun s => waits 0 s ∧ undirected s) (answered · 0) ∧
  Ev .wfiTimeout (fun s => waits 0 s ∧ undirected s) (fun s =>
    ((s.setCtx (c s) (s.ctx (c s)).wfiClear).wx (c s) (s.n 1) (s.wfiMask (c s) true)).wake (c s)) ∧
  Ev .stopAckArrival (fun s => waits 1 s ∧ s.n 0 ≠ 2) (fun s => s.wake (c s)) ∧
  Ev .stopAckArrival (fun s => waits 1 s ∧ s.n 0 = 2) (fun s => (s.snapBoundary (c s)).wake (c s)) ∧
  Ev .msendAnswerArrival (fun s => waits 0 s ∧ s.n 1 = 0) (fun s => s.wake (c s)) ∧
  Ev .msendAnswerArrival (fun s => waits 0 s ∧ s.n 1 ≠ 0) (fun s =>
    s.takeTrap (c s) { cause := s.n 1, detail := s.n 2, val := s.n 3 } (s.ctx (c s)).resume (s.ctx (c s)).waitIr.toNat) ∧
  Ev .viewAnswerArrival (fun s => s.n 0 ≠ 0 ∧ waits 0 s ∧ s.n 1 = 0 ∧ s.n 3 = 0) (fun s => s.wake (c s)) ∧
  Ev .viewAnswerArrival (fun s => s.n 0 ≠ 0 ∧ waits 0 s ∧ s.n 1 = 0 ∧ s.n 3 ≠ 0 ∧ undirected s) (fun s => answered s (s.n 3)) ∧
  Ev .viewAnswerArrival (fun s => s.n 0 ≠ 0 ∧ waits 0 s ∧ s.n 1 ≠ 0) (fun s =>
    s.takeTrap (c s) { cause := s.n 1, detail := s.n 2, val := s.n 3 } (s.ctx (c s)).resume (s.ctx (c s)).waitIr.toNat) ∧
  Ev .tretAnswerArrival (waits 0) (fun s => ((s.wake (c s)).setCtx (c s) { (s.wake (c s)).ctx (c s) with
    pc := Word.ofN (s.rx (c s) 1), tsk := 0, grant := none }).stageMove (c s).core) ∧
  Ev .tstealAnswerArrival (fun s => waits 2 s ∧ s.n 3 = 0 ∧ undirected s) (answered · 0) ∧
  Ev .tstealAnswerArrival (fun s => waits 2 s ∧ s.n 3 ≠ 0 ∧ undirected s ∧ s.poisoned (taskKey (s.n 0) (s.n 1) (s.n 4)) 128 = none) (fun s =>
    let t := answered s (s.areaVa (c s))
    let w0 := (s.arg.ns.drop 7).headD 0
    let u := (t.wrMem (t.ownBase (c s).core + t.taskArea (c s)) 128 (ofLanes 64 (s.arg.ns.drop 7)) (2 ^ 128 - 1)
      (some (c s))).snapBoundary (c s)
    u.setCtx (c s) { u.ctx (c s) with
      tsk := Word.ofN (s.n 0 * 512 + s.n 1 * 8 + bits w0 61 60 * 2 + 1)
      grant := some { home := s.n 0, queue := s.n 1, seq := s.n 4, va := bits w0 47 0, pa := s.n 5, len8 := bits w0 59 48,
                      snap := bits w0 61 60 == 1 } }) ∧
  Ev .offerArrival (fun s => (s.ctx (c s)).st = .ready ∧ (s.ctx (c s)).tgrp.toNat % 2 = 1 ∧
      bits (s.ctx (c s)).tgrp.toNat 17 9 = s.n 0 ∧ bits (s.ctx (c s)).tgrp.toNat 8 3 = s.n 1) (fun s =>
    s.setCtx (c s) { s.ctx (c s) with tgrp := (s.ctx (c s)).tgrp ||| 4 }) ∧
  Ev .offerArrival (fun s => (s.ctx (c s)).st = .waiting ∧ (s.ctx (c s)).wait = .twait ∧ (s.ctx (c s)).tgrp.toNat % 2 = 1 ∧
      bits (s.ctx (c s)).tgrp.toNat 17 9 = s.n 0 ∧ bits (s.ctx (c s)).tgrp.toNat 8 3 = s.n 1 ∧ undirected s) (answered · 1) ∧
  (∀ e key, Ev .tlbWalkEnd (fun s => waits 3 s ∧ s.walk (s.spaceOf (c s)) (s.n 0) (s.n 1 == 1) (s.n 2 == 1)
      ((s.ctx (c s)).level == .h) = .ok (e, key))
    (fun s => ((s.setAD key (s.n 1 == 1)).tlbFill (c s).core e).setCtx (c s) { s.ctx (c s) with
      st := .ready, wait := .none, since := s.cyc })) ∧
  (∀ cause det, Ev .tlbWalkEnd (fun s => waits 3 s ∧ cause ≠ 0 ∧
      s.walk (s.spaceOf (c s)) (s.n 0) (s.n 1 == 1) (s.n 2 == 1) ((s.ctx (c s)).level == .h) =
        .error (cause, det))
    (fun s => s.setCtx (c s) { s.ctx (c s) with
      st := .ready, wait := .none, since := s.cyc, walked := some { cause := cause, detail := det, val := s.n 0 } }))

/-- R147, R395, R432, R463, R431, R182, R96, R102, R101, R235, R458, R429: LOAD_VALUE_RETURN writes the destination of a load in one
access and the load is over; STORE_ACK ends a performed store; FE_TIMEOUT fails a parked load with FE_TIMEOUT and leaves its row;
MWAIT_TIMEOUT expires the entry; a link value appears over what stood there; a FIFO entry becomes visible, and a record below goes to
the matrix unit; a routed word enters the receive queue, waits when that is full or its cluster has no power, which it wakes, and is lost
with POOL_HOLE 6 at a cluster that has failed; a peer's request is performed through an export window that admits it, and not in the
minimal mode; a peer access unanswered is PEER 6, and the module of a system barrier that is free to be unreachable PTO cycles after the
arrival is BARRIER 7 or asked again (log 90, DESIGN CHOICE); a flit's failure is counted; an uncorrectable error poisons its unit. -/
def Sys2Proof.Claims.AccessEvents : Prop :=
  let c (s : State) := s.arg.ctx
  (∀ f, f.dcls = 1 → f.grp = 0 → f.performed = true → f.fault = none → f.later = [] →
    Ev .loadValueReturn (fun s => s.access (s.n 0) = some f) (fun s =>
      let t := (s.setAccess { f with returned := true }).wx f.ctx f.dreg (({ f with returned := true } : Access).scalar (assemble [f]))
      { t with flight := t.flight.filter fun g => g.id != f.id })) ∧
  Ev .loadValueReturn (fun s => s.access (s.n 0) = none) id ∧
  (∀ f, f.act ≠ .store → f.performed = false → f.key / 1152921504606846976 = 8 →
    Ev .loadValueReturn (fun s => s.access (s.n 0) = some f ∧ s.carried (peerOf f.va) = true ∧
        s.waitsFor f.ctx.core f.after = true) (fun s => s.after 1 .loadValueReturn s.arg) ∧
    Ev .loadValueReturn (fun s => s.access (s.n 0) = some f ∧ s.carried (peerOf f.va) = true ∧
        s.waitsFor f.ctx.core f.after = false ∧ s.n 2 ≠ 0) (fun s => s.failAccess f
      { cause := 21, detail := f.dest, val := f.ea + s.n 2 % 16 * 72057594037927936 })) ∧
  (∀ f, f.act = .store → f.performed = true → f.kind ≠ .s →
    Ev .storeAck (fun s => s.access (s.n 0) = some f) (fun s =>
      let t := s.dropAccess f.id
      (if f.grp = 0 then t else (t.parts f).head?.elim t t.endFailed).acked f.ctx)) ∧
  (∀ f, f.act = .store → f.kind = .s →
    let reaches (s : State) := s.access (s.n 0) = some f ∧ s.carried (peerOf f.va) = true
    Ev .storeAck (fun s => s.access (s.n 0) = some f ∧ s.carried (peerOf f.va) = false) id ∧
    Ev .storeAck (fun s => reaches s ∧ s.waitsFor f.ctx.core f.after = true) (fun s => s.after 1 .storeAck s.arg) ∧
    Ev .storeAck (fun s => reaches s ∧ s.waitsFor f.ctx.core f.after = false ∧ s.n 1 = 0) (fun s =>
      let t := (s.rlcPut f.ctx.core.pyl f.va f.n f.val (if f.mask = 0 then 2 ^ f.n - 1 else f.mask)).dropAccess f.id
      (if f.grp = 0 then t else (t.parts f).head?.elim t t.endFailed).acked f.ctx) ∧
    Ev .storeAck (fun s => reaches s ∧ s.waitsFor f.ctx.core f.after = false ∧ s.n 1 ≠ 0) (fun s => (s.failAccess f
      { cause := 21, detail := f.dest, val := f.ea + s.n 1 % 16 * 72057594037927936 }).acked f.ctx)) ∧
  (∀ f, f.parked = true → f.performed = false → f.onRow = true →
    Ev .feTimeout (fun s => s.access (s.n 0) = some f ∧ s.fillSoon (homeOf f.key) = false)
      (fun s => s.failAccess f { cause := 19, detail := f.dest, val := f.ea }) ∧
    Ev .feTimeout (fun s => s.access (s.n 0) = some f ∧ s.fillSoon (homeOf f.key) = true) (fun s => s.after 0 .feTimeout s.arg)) ∧
  Ev .mwaitTimeout (fun s => ((s.ctx (c s)).watchAt (s.n 0)).armed = true ∧ ((s.ctx (c s)).watchAt (s.n 0)).deadline = s.n 1 ∧
      (s.ctx (c s)).st ≠ .stopped) (fun s =>
    s.setCtx (c s) ((s.ctx (c s)).setWatch (s.n 0) { (s.ctx (c s)).watchAt (s.n 0) with armed := false, expired := true })) ∧
  Ev .mwaitTimeout (fun s => ((s.ctx (c s)).watchAt (s.n 0)).armed = false) id ∧
  Ev .linkValueArrival (fun _ => True) (fun s => s.setCore (c s).core { s.core (c s).core with
    links := Tab.set (s.core (c s).core).links (s.n 0) { val := BitVec.ofNat 1024 (s.n 1), tag := BitVec.ofNat 16 (s.n 2) } }) ∧
  (let counted (s : State) (i : Nat) : Core :=
    if (s.core (c s).core).fifoAt = s.cyc + 1
    then { s.core (c s).core with fifoWas := (s.core (c s).core).fifoWas.modify i (· + 1) } else s.core (c s).core
  Ev .fifoEntryVisible (fun s => s.n 0 = 1) (fun s =>
    s.setCore (c s).core { counted s 3 with up := showFirst (s.core (c s).core).up }) ∧
  Ev .fifoEntryVisible (fun s => s.n 0 ≠ 1) (fun s =>
    (s.setCore (c s).core { counted s 2 with down := (showFirst (s.core (c s).core).down).map fun v =>
      if v.via.isSome then { v with foot := s.cmdFoot (c s).core (s.fifoCmd (c s).core v) } else v }).after 0
        .downFifoRecordTake { ctx := c s })) ∧
  (let u (s : State) := coreOfWord (s.n 0)
   let e (s : State) : RxEntry := { word := s.n 1, src := c s, first := s.n 2 == 1, last := s.n 3 == 1 }
   let v (s : State) := if (u s).kind = .service then s else s.wakeCluster (u s).cluster
   let pw (s : State) := if (u s).kind = .service then Power.awake else ((v s).cluster (u s).cluster).power
   let alone (s : State) := (s.core (u s)).rxWait = [] ∧
     (s.agenda.any fun x => decide (x.1 ≤ s.cyc) && arrivesAt (u s) (c s) x.2.1 x.2.2) = false
   Ev .routedWordArrival (fun s => alone s ∧ pw s = .awake ∧ (s.core (u s)).rx.length < 16) (fun s =>
     (v s).setCore (u s) { s.core (u s) with rx := (s.core (u s)).rx ++ [e s], rxWait := [] }) ∧
   Ev .routedWordArrival (fun s => alone s ∧ ((pw s = .awake ∧ 16 ≤ (s.core (u s)).rx.length) ∨ pw s = .gated ∨ ∃ b, pw s = .waking b))
     (fun s => (v s).setCore (u s) { s.core (u s) with rxWait := [e s] }) ∧
   Ev .routedWordArrival (fun s => alone s ∧ pw s = .failed) (fun s => (v s).wordLost (c s))) ∧
  Ev .peerRequestArrival (fun s => s.minimal ≠ none) id ∧
  Ev .peerRequestArrival (fun s => s.exportWindow (s.n 0) (s.n 1) = none) id ∧
  (∀ o e t, Ev .peerRequestArrival (fun s => s.minimal = none ∧ s.exportWindow (s.n 0) (s.n 1) = some o ∧ s.arg.op = .store ∧ bit (s.ctl (o + 24)) 33 = true ∧
      s.engineWalk (s.ctl (o + 24) % 65536) (bits (s.ctl (o + 16)) 47 16 * 65536 + (s.n 1 - bits (s.ctl o) 47 16 * 65536)) true =
        .ok (t, e) ∧ t.arg = s.arg ∧
      t.holdOf (e.addr (bits (s.ctl (o + 16)) 47 16 * 65536 + (s.n 1 - bits (s.ctl o) 47 16 * 65536))) (s.n 2) = none) (fun s =>
    t.wrMem (e.addr (bits (s.ctl (o + 16)) 47 16 * 65536 + (s.n 1 - bits (s.ctl o) 47 16 * 65536))) (s.n 2) (s.n 3)
      (if s.n 6 = 0 then 2 ^ s.n 2 - 1 else s.n 6) none)) ∧
  (∀ f, f.performed = false → Ev .peerTimeout (fun s => s.n 0 ≠ 0 ∧ s.access (s.n 0) = some f) (fun s => (s.failAccess f
    { cause := 21, detail := f.dest, val := f.ea + 6 * 72057594037927936 }).acked f.ctx)) ∧
  (∀ l,
    let due (s : State) := s.n 0 = 0 ∧ s.launch (s.n 1) = some l ∧ (s.sysArr.any fun e => e.2.1 == l.id && e.2.2 == s.n 2) = true ∧
      (Tab.get l.barriers (s.n 2) {}).first.getD 0 = s.n 3
    Ev .peerTimeout (fun s => due s ∧ Config.outcome s.free % 2 = 1)
      (fun s => ({ s with free := s.free + 1 } : State).withdraw l (s.n 2) 7) ∧
    Ev .peerTimeout (fun s => due s ∧ Config.outcome s.free % 2 = 0)
      (fun s => ({ s with free := s.free + 1 } : State).after s.pto .peerTimeout s.arg)) ∧
  Ev .flitCrcFail (fun s => s.n 1 = 1) (fun s =>
    let p := s.n 0 % 18
    let w := s.ctl (50348032 + 8 * p)
    ({ s with retries := Tab.set s.retries p 1 } : State).setCtl (50348032 + 8 * p)
      (w / 4294967296 * 4294967296 + min (w % 4294967296 + 1) 4294967295)) ∧
  Ev .uncorrectableError (fun s => s.poison.contains (poisonUnit (s.n 0)) = false)
    (fun s => { s with poison := s.poison ++ [poisonUnit (s.n 0)] }) ∧
  Ev .uncorrectableError (fun s => s.poison.contains (poisonUnit (s.n 0)) = true) id

/-- R220, R421, R151, R329: SFU_RESULT writes the results, joins the flags and takes the request out of the unit; STREAM_READ_AHEAD
appends the next element of a near pool stream to what was read ahead, up to 16, and stops at a sink, a full read-ahead or an exhausted
stream. -/
def Sys2Proof.Claims.UnitEvents : Prop :=
  let c (s : State) := s.arg.ctx
  let w (s : State) := s.rs (c s) (s.n 0) 2
  let ahead (s : State) := Tab.get (s.ctx (c s)).ahead (s.n 0) []
  (∀ q t, Ev .sfuResult (fun s => ((s.core (c s).core).sfu.find? (·.id == s.n 0)) = some q ∧ q.due = s.n 1 ∧
      ((q.outs.find? fun o => o.1 == 5 && decide (o.2.1 < 8)).bind fun o => s.lateLink (c s) o.2.1) = none ∧
      s.sfuWrite (c s) q.outs = some t) (fun s =>
    let u := t.setCore (c s).core { t.core (c s).core with sfu := (t.core (c s).core).sfu.filter (·.id != q.id) }
    let fl := (u.ctx (c s)).iflag.toNat ||| q.ior
    let fl := q.pmask.elim fl fun p => fl % 65536 + p * 65536
    u.setCtx (c s) { u.ctx (c s) with fcsr := (u.ctx (c s)).fcsr ||| Word.ofN q.flags, iflag := Word.ofN fl })) ∧
  (∀ q, Ev .sfuResult (fun s => ((s.core (c s).core).sfu.find? (·.id == s.n 0)) = some q ∧ q.due ≠ s.n 1) id) ∧
  Ev .sfuResult (fun s => ((s.core (c s).core).sfu.find? (·.id == s.n 0)) = none) id ∧
  Ev .streamReadAhead (fun s => bit (w s) 15 = false ∨ bit (w s) 14 = true ∨ 16 ≤ (ahead s).length ∨ bits (w s) 63 32 ≤ (ahead s).length) id ∧
  (∀ p, Ev .streamReadAhead (fun s => bit (w s) 15 = true ∧ bit (w s) 14 = false ∧ streamKind (w s) = .l ∧ (ahead s).length < 16 ∧
      (ahead s).length < bits (w s) 63 32 ∧ s.pending (c s) 6 (s.n 0) = false ∧ (s.ctx (c s)).st = .ready ∧ s.n 0 < 8 ∧
      s.aim (c s) (addOff (s.rs (c s) (s.n 0) 0) (((ahead s).length : Int) * sext (s.rs (c s) (s.n 0) 1) 64))
        (s.streamBytes (c s) (w s)) 0 (s.streamBytes (c s) (w s)) .l false false = .ok p ∧ p.near (c s) = true ∧
      s.ahead { p.access (c s) .load .l (addOff (s.rs (c s) (s.n 0) 0) (((ahead s).length : Int) * sext (s.rs (c s) (s.n 0) 1) 64))
        (s.streamBytes (c s) (w s)) with dcls := 6, dreg := s.n 0 } = [] ∧ s.poisoned p.key (s.streamBytes (c s) (w s)) = none ∧
      marked s.marks p.key (s.streamBytes (c s) (w s)) 0 = false)
    (fun s =>
      let more := ahead s ++ [s.rdMem p.key (s.streamBytes (c s) (w s))]
      (s.setCtx (c s) { s.ctx (c s) with ahead := Tab.set (s.ctx (c s)).ahead (s.n 0) more }).after 1 .streamReadAhead s.arg))

/-- R91, R92, R236, R449, R455, R461: CORE_ARRIVAL counts a core whose contexts have come and whose stores are performed, and only then, and reads its payloads then
(R360);
BARRIER_RELEASE releases when it is due, and a precise stop's waits a cycle for the members' commands; SYSTEM_BARRIER_RELEASE does likewise
(R239) and forgets the group's arrivals; BARRIER_TIMEOUT withdraws the barrier whose first arrival it was set for; SCHEDULE_LIMIT is SLOT 7. -/
def Sys2Proof.Claims.BarrierEvents : Prop := ∀ l : Launch,
  let u (s : State) := s.arg.ctx.core
  let c (s : State) := s.arg.ctx
  let bar (dom : Nat) := Tab.get l.barriers dom {}
  Ev .coreArrival (fun s => s.launchOf (u s) = some l ∧ s.coreReady l (u s) (s.n 0) = false) id ∧
  Ev .coreArrival (fun s => s.launchOf (u s) = some l ∧ s.coreReady l (u s) (s.n 0) = true ∧
      ((bar (s.n 0)).first ≠ none ∨ Mem.read (s.payloads (u s) (bar (s.n 0))).1.mem (ctlBase + 117440520) 4 = 0)) (fun s =>
    let (t, b) := s.payloads (u s) (bar (s.n 0))
    let b := { b with cores := b.cores ++ [(u s, t.cyc)], first := some (b.first.getD t.cyc) }
    let m := { l with barriers := Tab.set l.barriers (s.n 0) b }
    (t.setLaunch m).tryRelease m (s.n 0)) ∧
  (∀ t, (bar 0).due = some t → Ev .barrierRelease
    (fun s => s.launch (s.n 0) = some l ∧ s.n 1 = 0 ∧ t ≤ s.cyc ∧ s.stopLands l = true ∧ s.commandsLeft l = true) (fun s =>
      (s.setLaunch { l with barriers := Tab.set l.barriers 0 { bar 0 with due := some (s.cyc + 1) } }).after 1 .barrierRelease s.arg)) ∧
  (∀ dom t, (bar dom).due = some t → Ev .barrierRelease
    (fun s => s.launch (s.n 0) = some l ∧ s.n 1 = dom ∧ t ≤ s.cyc ∧ (dom ≠ 0 ∨ s.stopLands l = false ∨ s.commandsLeft l = false))
    (fun s => s.release l dom [])) ∧
  (∀ dom, (bar dom).due = none → Ev .barrierRelease (fun s => s.launch (s.n 0) = some l ∧ s.n 1 = dom) id) ∧
  Ev .systemBarrierRelease (fun s => s.sysArr.filter (·.1 == s.n 0) = [])
    (fun s => { s with sysArr := s.sysArr.filter (·.1 != s.n 0) }) ∧
  (∀ dom, Ev .systemBarrierRelease (fun s => s.sysArr.filter (·.1 == s.n 0) = [(s.n 0, l.id, dom)] ∧ s.launch l.id = some l ∧
      (dom = 0 → s.stopLands l = true → s.commandsLeft l = false)) (fun s =>
    let pyls := (Tab.get l.doms dom []).map (·.pyl)
    State.release { s with
      sysArr := s.sysArr.filter (·.1 != s.n 0)
      pylons := s.pylons.map fun y => if pyls.contains y.1 then (y.1, { y.2 with rlc := [] }) else y } l dom
        (triples (s.arg.ns.drop 1)))) ∧
  Ev .systemBarrierRelease (fun s => s.sysArr.filter (·.1 == s.n 0) = [(s.n 0, l.id, 0)] ∧ s.launch l.id = some l ∧
      s.stopLands l = true ∧ s.commandsLeft l = true) (fun s => s.after 1 .systemBarrierRelease s.arg) ∧
  Ev .barrierTimeout (fun s => s.launch (s.n 0) = some l ∧ (bar (s.n 1)).first = some (s.n 2)) (fun s => s.withdraw l (s.n 1) 6) ∧
  Ev .barrierTimeout (fun s => s.launch (s.n 0) = some l ∧ (bar (s.n 1)).first ≠ some (s.n 2)) id ∧
  (∀ dom, Ev .scheduleLimit (fun s => (s.ctx (c s)).timed = some (dom, s.n 0))
    (fun s => s.takeTrap (c s) { cause := 48, detail := 7, val := 65536 } (s.ctx (c s)).resume 0)) ∧
  Ev .scheduleLimit (fun s => (s.ctx (c s)).timed = none) id

/-- R92, R93, R356, R359, R153: at a release each member of the current domain counts one superstep, the new barrier holds the arrivals
that were early, and a context that waited for it is complete at the next word; one in timed exchange begins its schedule in the next
cycle. -/
def Sys2Proof.Claims.ReleaseOfABarrier : Prop := ∀ (s : State) (dom : Nat) (c : CtxId),
  (∀ d t, (s.ctx c).parrive = none → (s.ctx c).st = .waiting → (s.ctx c).wait = .barrier d t →
    ((s.releaseCtx dom c).ctx c).st = .ready ∧ ((s.releaseCtx dom c).ctx c).pc = (s.ctx c).pc + 4 ∧
    ((s.releaseCtx dom c).ctx c).timed = if t then some (dom, s.cyc + 1) else (s.ctx c).timed) ∧
  (∀ a b, (s.ctx c).parrive = some (a, b) → ((s.releaseCtx dom c).ctx c).parrive = some (dom, true) ∧
    ((s.releaseCtx dom c).ctx c).pc = (s.ctx c).pc) ∧
  (s.releaseCtx dom c).mem = s.mem ∧
  (∀ l remote u, let members := Tab.get l.doms dom []
    ((s.release l dom remote).core u) = if members.contains u ∧ (s.cores.any (·.1 == u)) = true ∧ (s.core u).bdom = dom
      then { s.core u with sstep := (s.core u).sstep + 1 } else s.core u) ∧
  (∀ l remote, s.launch l.id ≠ none → ∃ m, (s.release l dom remote).launch l.id = some m ∧
    (Tab.get m.barriers dom {}).ctxs = (Tab.get l.barriers dom {}).late ∧
    (Tab.get m.barriers dom {}).contribs = (Tab.get l.barriers dom {}).nextContribs ∧ (Tab.get m.barriers dom {}).cores = [])

/-- R110 to R112, R116 to R119, R122, R126, R127, R366, R370, R402, R443: steps at a home. A post to a queue that its launch does not hold is
QUEUE 7; a post takes the next sequence number and a slot of the share, else enters the ring, else is QUEUE 6; a counter's value, read or reported, judges
the task that waits for it, and one without a watch entry is read again; TSTEAL_ARRIVAL ends the offers to the context and refuses one that is no member; TJOIN_ARRIVAL appends the member, TLEAVE_ARRIVAL takes it out;
QINFO_ARRIVAL takes the counts, behind what reaches the home in the cycle; TRET_ARRIVAL waits for what the task has stored, applies the
batch of a SNAP task, and sets the increment of DONE going, in the same cycle if every store of a COMMUTE task was performed before. -/
def Sys2Proof.Claims.HomeEvents : Prop :=
  let c (s : State) := s.arg.ctx
  let ids (s : State) := s.arg.ns.drop (25 + 2 * s.n 24)
  let sooner (s : State) := s.agenda.any fun e => e.2.2.ctx == s.arg.ctx && e.2.2.ns.headD 0 == s.n 0 &&
    decide (e.2.2.ns.getD 3 0 < s.n 3) && match e.2.1 with
      | .tpostArrival => true
      | _ => false
  let ordered (s : State) := s.waitsFor (c s).core (ids s) = false ∧ sooner s = false
  let alone (s : State) (cls : Nat) := (s.agenda.any fun e =>
    decide (e.1 ≤ s.cyc) && taskMeets (s.n 0) (s.n 1) cls (c s) e.2.1 e.2.2) = false
  let posted (s : State) := ordered s ∧ alone s 1
  let x (s : State) := s.queue (s.n 0) (s.n 1)
  let task (s : State) : Task := {
    seq := (x s).nextSeq, lid := s.n 4, asid := s.n 7, poster := c s, desc := (upFrom 0 16).map fun i => s.n (8 + i)
    pa := s.n 5, donePa := s.n 6
    deps := (pairs ((s.arg.ns.drop 25).take (2 * s.n 24))).map fun d => (d.2, s.n (17 + 2 * d.1), false) }
  let noted (s : State) := s.setHome (s.n 0) { s.home (s.n 0) with queues := (s.home (s.n 0)).queues.map fun e =>
    (e.1, { e.2 with members := e.2.members.map fun m => if m.ctx = c s then { m with outstanding := false } else m }) }
  let way (s : State) := latHome (c s).core (s.n 0) / 2
  Ev .tpostArrival (fun s => posted s ∧ ((x s).lid = 0 ∨ (x s).lid ≠ s.n 4)) (fun s =>
    (s.pendAsync (c s) { cause := 53, detail := 7, val := s.n 1 + 64 * s.n 0 }).homeTick (s.n 0)) ∧
  Ev .tpostArrival (fun s => posted s ∧ (x s).lid ≠ 0 ∧ (x s).lid = s.n 4 ∧ (x s).used < (x s).share ∧ (x s).ring = []) (fun s =>
    ((s.setQueue (s.n 0) (s.n 1) { x s with nextSeq := (x s).nextSeq + 1 }).enterTask (s.n 0) (s.n 1) (task s)).homeTick (s.n 0)) ∧
  Ev .tpostArrival (fun s => posted s ∧ (x s).lid ≠ 0 ∧ (x s).lid = s.n 4 ∧ (x s).share ≤ (x s).used ∧ s.n 2 ≠ 1 ∧
      (x s).worst - (x s).share ≤ (x s).ring.length) (fun s =>
    ((s.setQueue (s.n 0) (s.n 1) { x s with nextSeq := (x s).nextSeq + 1 }).pendAsync (c s)
      { cause := 53, detail := 6, val := s.n 1 + 64 * s.n 0 }).homeTick (s.n 0)) ∧
  Ev .tpostArrival (fun s => posted s ∧ (x s).lid ≠ 0 ∧ (x s).lid = s.n 4 ∧ s.n 2 = 1 ∧ (x s).share ≤ (x s).used ∧
      (s.home (s.n 0)).reserveUsed < 256) (fun s =>
    let u := s.setQueue (s.n 0) (s.n 1) { x s with nextSeq := (x s).nextSeq + 1 }
    ((u.setHome (s.n 0) { u.home (s.n 0) with reserveUsed := (s.home (s.n 0)).reserveUsed + 1 }).enterTask (s.n 0) (s.n 1)
      { task s with reserve := true }).homeTick (s.n 0)) ∧
  Ev .tpostArrival (fun s => posted s ∧ (x s).lid ≠ 0 ∧ (x s).lid = s.n 4 ∧ ((x s).share ≤ (x s).used ∨ (x s).ring ≠ []) ∧
      (s.n 2 ≠ 1 ∨ (x s).used < (x s).share ∨ 256 ≤ (s.home (s.n 0)).reserveUsed) ∧
      (x s).ring.length < (x s).worst - (x s).share) (fun s =>
    let u := s.setQueue (s.n 0) (s.n 1) { x s with nextSeq := (x s).nextSeq + 1 }
    (u.setQueue (s.n 0) (s.n 1) { u.queue (s.n 0) (s.n 1) with ring := (x s).ring ++ [task s] }).homeTick (s.n 0)) ∧
  Ev .tpostArrival (fun s => ¬ ordered s) (fun s => (s.after 1 .tpostArrival s.arg).homeTick (s.n 0)) ∧
  (∀ t pa thr met, t.deps[1]? = some (pa, thr, met) → Ev .counterReadAnswer
    (fun s => s.n 3 = 1 ∧ s.n 4 = 1 ∧ (x s).task (s.n 2) = some t) (fun s =>
      (((s.setQueue (s.n 0) (s.n 1) ((x s).setTask { t with
        deps := t.deps.set 1 (pa, thr, decide (thr ≤ s.n 5)), reads := t.reads - 1 })).judge (s.n 0) (s.n 1) t.seq).homeTick (s.n 0)))) ∧
  Ev .counterReport (fun s => ((s.home (s.n 0)).queues) = []) (fun s => s.homeTick (s.n 0)) ∧
  (∀ q y thr met, ∀ t : Task, t.st = .pending → y.tasks = [t] → Ev .counterReport
    (fun s => (s.home (s.n 0)).queues = [(q, y)] ∧ t.deps = [(s.n 1, thr, met)]) (fun s =>
      ((s.setQueue (s.n 0) q { y with tasks := [{ t with deps := [(s.n 1, thr, decide (thr ≤ s.n 2))] }] }).judge
        (s.n 0) q t.seq).homeTick (s.n 0))) ∧
  Ev .watchReread (fun s => ((s.home (s.n 0)).queues) = []) (fun s => s.homeTick (s.n 0)) ∧
  (∀ q y pa thr met, ∀ t : Task, t.st = .pending → y.tasks = [t] → t.deps = [(pa, thr, met)] → Ev .watchReread
    (fun s => (s.home (s.n 0)).queues = [(q, y)] ∧ (s.home (s.n 0)).watch.contains pa = false) (fun s =>
      let u := (s.watchAdd (s.n 0) pa).after (hop (s.n 0) (homeOf pa)) .counterReadAnswer
        { ctx := t.poster, ns := [s.n 0, q, t.seq, 0, 2, 0] }
      (if (u.home (s.n 0)).queues.any fun e => e.2.tasks.any fun t => (t.st == .pending || t.st == .reading) &&
          t.deps.any fun d => !(u.home (s.n 0)).watch.contains d.1
        then u.after 4096 .watchReread { ns := [s.n 0] } else u).homeTick (s.n 0))) ∧
  (∀ t : Task, t.st = .ready → t.urgent = false → Ev .taskUrgentDue
    (fun s => (x s).task (s.n 2) = some t ∧ (x s).isDue t s.cyc = true) (fun s =>
      (s.setQueue (s.n 0) (s.n 1) ((x s).setTask { t with urgent := true, counted := true })).homeTick (s.n 0))) ∧
  Ev .tstealArrival (fun s => s.homeDue (s.n 0) 1 = true ∨ s.reportSoon (s.n 0) = true) (fun s => s.after 0 .tstealArrival s.arg) ∧
  Ev .tstealArrival (fun s => s.homeDue (s.n 0) 1 = false ∧ s.reportSoon (s.n 0) = false ∧
      ((noted s).queue (s.n 0) (s.n 1)).members.any (·.ctx == c s) = false) (fun s =>
    ((noted s).after (way s) .tstealAnswerArrival
        { ctx := c s, ns := [s.n 0, s.n 1, s.n 2, 0] }).homeTick (s.n 0)) ∧
  (∀ t : Task, Ev .tstealArrival (fun s => s.homeDue (s.n 0) 1 = false ∧ s.reportSoon (s.n 0) = false ∧
      ((noted s).queue (s.n 0) (s.n 1)).members.any (·.ctx == c s) = true ∧
      (noted s).stealGrant (c s) (s.n 0) (s.n 1) = (some t, false)) (fun s =>
    let u := noted s
    let u := u.setQueue (s.n 0) (s.n 1) ((u.queue (s.n 0) (s.n 1)).setTask { t with st := .far (c s), counted := false })
    let u := u.record (c s).core.pyl (u.core (c s).core).sstep.toNat (c s).place 9 (s.n 0 + s.n 1 * 512 + t.seq * 65536)
    (u.after (way s) .tstealAnswerArrival { ctx := c s, ns := [s.n 0, s.n 1, s.n 2, 1, t.seq, t.pa, s.n 3] ++ t.desc }).homeTick (s.n 0))) ∧
  Ev .tjoinArrival (fun s => s.homeDue (s.n 0) 3 = false ∧ alone s 4 ∧ (x s).members.any (·.ctx == c s) = false ∧
      (x s).members.length + (x s).holders.length < 64) (fun s =>
    (s.setQueue (s.n 0) (s.n 1) { x s with
      members := (x s).members ++ [{ ctx := c s }], holders := (x s).holders.filter (· != c s) }).homeTick (s.n 0)) ∧
  Ev .tjoinArrival (fun s => s.homeDue (s.n 0) 3 = false ∧ alone s 4 ∧ (x s).members.any (·.ctx == c s) = false ∧
      64 ≤ (x s).members.length + (x s).holders.length) (fun s =>
    (s.pendAsync (c s) { cause := 53, detail := 1, val := s.n 1 + 64 * s.n 0 }).homeTick (s.n 0)) ∧
  Ev .tleaveArrival (fun s => s.homeDue (s.n 0) 3 = false ∧ alone s 4 ∧ (x s).members.findIdx? (·.ctx == c s) ≠ none ∧
      (x s).lastOffer ≠ some (c s) ∧ (x s).tasks = []) (fun s =>
    (s.setQueue (s.n 0) (s.n 1) { x s with members := (x s).members.filter (·.ctx != c s) }).homeTick (s.n 0)) ∧
  Ev .qinfoArrival (fun s => s.homeDue (s.n 0) 4 = true ∨ s.reportSoon (s.n 0) = true) (fun s => s.after 0 .qinfoArrival s.arg) ∧
  (∀ f, Ev .qinfoArrival (fun s => s.homeDue (s.n 0) 4 = false ∧ s.reportSoon (s.n 0) = false ∧ s.access (s.n 2) = some f) (fun s =>
    (s.setAccess { f with got := s.queueInfo (s.n 0) (s.n 1) }).after (f.lat - f.lat / 2) .loadValueReturn { ctx := f.ctx, ns := [f.id] })) ∧
  (∀ t, Ev .tretArrival (fun s => (x s).task (s.n 2) = some t ∧ s.n 4 = 0 ∧ s.waitsFor (c s).core (s.arg.ns.drop 5) = true) (fun s =>
    (s.after 1 .tretArrival s.arg).homeTick (s.n 0))) ∧
  (∀ t, Ev .tretArrival (fun s => (x s).task (s.n 2) = some t ∧ s.n 4 = 0 ∧ s.waitsFor (c s).core (s.arg.ns.drop 5) = false ∧
      t.snap = false) (fun s =>
    (s.after (t.doneHop (s.n 0) - if s.doneBefore (s.arg.ns.drop 5) && t.doneHop (s.n 0) == 1 then 1 else 0) .tretArrival
      { s.arg with ns := [s.n 0, s.n 1, s.n 2, s.n 3, 1] }).homeTick (s.n 0))) ∧
  (∀ t b bs, Ev .tretArrival (fun s => (x s).task (s.n 2) = some t ∧ s.n 4 = 0 ∧ t.snap = true ∧ s.waitsFor (c s).core (s.arg.ns.drop 5) = false ∧
      (s.ctx (c s)).grant.elim [] (·.buf) = b :: bs ∧ ((b :: bs).any fun e => s.yields (c s) e.key (some (c s))) = false ∧
      ((b :: bs).findSome? fun e => s.holdOf e.key 8) = none) (fun s =>
    (((b :: bs).foldl (fun t e => (t.signStore (c s) e.val).wrMem e.key 8 e.val e.mask (some (c s)))
      (s.arbitrate (c s) b.key (some (c s)))).after (t.doneHop (s.n 0)) .tretArrival
        { s.arg with ns := [s.n 0, s.n 1, s.n 2, s.n 3, 1] }).homeTick (s.n 0)))

/-- R111, R117, R124, R138, R139, R142, R133, R135, R369: a pier's job that is not the one the step names leaves the pier to take what
waits; a job runs one sequence of micro-words after another, then its task's DONE goes up, and what a call read fills its row at the end;
the end of a job's last phase frees the pier; PCALL_ACCEPT waits for one of 16 call entries, and then the call's row is empty;
a refresh is postponed while a sequence runs, four of them at most, and one that is issued changes no state; GOVERNOR_SAMPLE moves one
cluster at most. -/
def Sys2Proof.Claims.PierEvents : Prop :=
  let h (s : State) := s.n 0
  let m (s : State) := s.home (s.n 0)
  let calm (s : State) := ∀ e, s.pierPlace (h s) (s.n 2) = some e → s.contended e.2 none = false
  Ev .pierJobEnd (fun s => (m s).job = none ∨ (m s).jobId ≠ s.n 1) (fun s => s.homeTick (h s)) ∧
  (∀ j, Ev .pierJobEnd (fun s => (m s).job = some j ∧ (m s).jobId = s.n 1 ∧ s.n 2 = 3) (fun s =>
    (s.setHome (h s) { m s with job := none }).homeTick (h s))) ∧
  (∀ q seq t, Ev .pierJobEnd (fun s => (m s).job = some (.task q seq) ∧ (m s).jobId = s.n 1 ∧ s.n 2 = 1 ∧ s.doneHeld (h s) = none ∧ calm s ∧
      (s.queue (h s) q).task seq = some t) (fun s =>
    ((s.bumpDone t).after (t.newsHop (h s)) .pierJobEnd { ns := [h s, (m s).jobId, 2] }).homeTick (h s))) ∧
  (∀ p u f, Ev .pierJobEnd (fun s => (m s).job = some (.call p) ∧ p.job = none ∧ (m s).jobId = s.n 1 ∧ s.n 2 = 0 ∧
      s.pierHeld (h s) (s.n 3) = none ∧ calm s ∧ s.pierStep (h s) (s.n 3) (s.n 4 == 1) = .finished u f) (fun s =>
    ((u.callEnd (h s) p f).after 1 .pierJobEnd { ns := [h s, (m s).jobId, 3] }).homeTick (h s))) ∧
  (∀ j u, Ev .pierJobEnd (fun s => (m s).job = some j ∧ (m s).jobId = s.n 1 ∧ s.n 2 = 0 ∧ s.pierHeld (h s) (s.n 3) = none ∧ calm s ∧
      s.pierStep (h s) (s.n 3) (s.n 4 == 1) = .more u ∧ (∀ q seq, j = .task q seq → (s.queue (h s) q).task seq ≠ none)) (fun s =>
    u.homeTick (h s))) ∧
  (∀ q seq t u f, Ev .pierJobEnd (fun s => (m s).job = some (.task q seq) ∧ (m s).jobId = s.n 1 ∧ s.n 2 = 0 ∧
      s.pierHeld (h s) (s.n 3) = none ∧ calm s ∧ (s.queue (h s) q).task seq = some t ∧
      s.pierStep (h s) (s.n 3) (s.n 4 == 1) = .finished u f) (fun s =>
    (if f then u.after 1 .pierJobEnd { ns := [h s, (m s).jobId, 2] }
     else u.after (t.doneHop (h s)) .pierJobEnd { ns := [h s, (m s).jobId, 1] }).homeTick (h s))) ∧
  Ev .pcallAccept (fun s => 16 ≤ (m s).calls.length) (fun s => (s.after 1 .pcallAccept s.arg).homeTick (h s)) ∧
  Ev .pcallAccept (fun s => (m s).calls.length < 16 ∧ s.waitsFor s.arg.ctx.core (s.arg.ns.drop 11) = false ∧
      s.emptyRows.contains (s.n 1) = false) (fun s =>
    let p : PCall := { ctx := s.arg.ctx, va := s.n 4, pa := s.n 5, len8 := s.n 6, entry := s.n 7, args := [s.n 8, s.n 9, s.n 10],
                       rowPa := s.n 1, asid := s.n 3 }
    let t : State := { s.setHome (h s) { m s with calls := (m s).calls ++ [p] } with emptyRows := s.emptyRows ++ [s.n 1] }
    (t.after (latHome s.arg.ctx.core (h s) / 2) .pcallAcceptNews { ctx := s.arg.ctx, ns := [s.n 2] }).homeTick (h s)) ∧
  Ev .refreshDue (fun s => s.inSequence (h s) = false ∨ 4 ≤ (m s).refreshOwed) id ∧
  Ev .refreshDue (fun s => s.inSequence (h s) = true ∧ (m s).refreshOwed < 4) (fun s =>
    s.setHome (h s) { m s with refreshOwed := (m s).refreshOwed + 1 }) ∧
  Ev .governorSample (fun s => (s.launches.filter fun l => bit l.pyls (s.n 0) && decide (1 < l.stages.length)) = []) id ∧
  (∀ l, Ev .governorSample (fun s => (s.launches.filter fun l => bit l.pyls (s.n 0) && decide (1 < l.stages.length)) = [l] ∧
      s.governorMove l (s.n 0) = none) (fun s => s.after 4096 .governorSample { ns := [s.n 0] })) ∧
  (∀ l k n, Ev .governorSample (fun s => (s.launches.filter fun l => bit l.pyls (s.n 0) && decide (1 < l.stages.length)) = [l] ∧
      s.governorMove l (s.n 0) = some (k, n)) (fun s =>
    ((clusterCores k).foldl (fun s u => s.setCore u { s.core u with stagePend := true, stageNext := n }) s).after 4096 .governorSample
      { ns := [s.n 0] }))

/-- R175 to R180, R376, R384, R388, R398, R400, R433 to R438: CP_GO starts a copy and returns its identifier, which is one more than the
last; COPY_COMPLETE waits for what comes before the copy, and for the wake of a cluster, then reads and writes one element after
another, each as one access, and stores the stamp at the end, which wakes a watcher with a mark; a poisoned source is COPY 6, a cluster
that has failed COPY 7; PROMISE_MISSED is taken only while the copy runs; GATHER_DESCRIPTOR_RUN probes first,
waits for what overlaps, then reads and writes one element after another, in the order of their positions (log 84, DESIGN CHOICE), and
raises its line at the end, or its fault; MATRIX_COMMAND_RUN
of MZERO clears the tile, gives it its tag and ends the command, one that fails is MATRIX_FAULT, a read that must wait is tried again in
the next cycle, a block's end ends the command or halts it for a stop; DOWN_FIFO_RECORD_TAKE accepts a sound record or refuses it at the
deck core; MSEND_RECORD_ARRIVAL waits, for the wake of its cluster too, checks the capability, accepts, and answers. -/
def Sys2Proof.Claims.EngineEvents : Prop :=
  let c (s : State) := s.arg.ctx
  let u (s : State) := s.arg.ctx.core
  (∀ t id, Ev .cpGo (fun s => s.cpGo (c s) = (t, id)) (fun s => t.wx (c s) (s.n 0) id)) ∧
  (∀ (s : State), (s.cpGo (c s)).2 = ((s.ctx (c s)).cpId + 1).toNat) ∧
  Ev .copyComplete (fun s => s.copyRun (s.n 0) (s.n 1) = none) id ∧
  (∀ r, Ev .copyComplete (fun s => s.copyRun (s.n 0) (s.n 1) = some r ∧ s.copyReady r = false)
    (fun s => s.after 1 .copyComplete s.arg)) ∧
  (∀ r, let ready (s : State) := s.copyRun (s.n 0) (s.n 1) = some r ∧ s.copyReady r = true
    let go (s t : State) (at_ : Nat) := t.at_ (max t.cyc at_) .copyComplete { ctx := r.ctx, ns := [s.n 0, r.eid] ++ s.arg.ns.drop 2 }
    (∀ src dst rest, r.got = none → r.elems = (src, dst) :: rest → farPieces src = false →
      (∀ t, Ev .copyComplete (fun s => ready s ∧ s.reach r.ctx src = .go t ∧ t.poisonIn src = none) (fun s =>
        go s (t.setCopy (s.n 0) { r with got := some (t.rdPieces src) }) 0)) ∧
      (∀ t unit, Ev .copyComplete (fun s => ready s ∧ s.reach r.ctx src = .go t ∧ t.poisonIn src = some unit) (fun s =>
        (t.countPoison unit).copyFail (s.n 0) r 6)) ∧
      (∀ t n, Ev .copyComplete (fun s => ready s ∧ s.reach r.ctx src = .wait t n) (fun s => t.after n .copyComplete s.arg)) ∧
      Ev .copyComplete (fun s => ready s ∧ s.reach r.ctx src = .hole) (fun s => s.copyFail (s.n 0) r 7)) ∧
    (∀ v src dst rest, r.got = some v → r.elems = (src, dst) :: rest → farPieces dst = false →
      (∀ t, Ev .copyComplete (fun s => ready s ∧ (dst.findSome? fun p => s.holdOf p.1 p.2) = none ∧ s.reach r.ctx dst = .go t) (fun s =>
        go s ((t.wrPieces r.ctx dst v).setCopy (s.n 0) { r with got := none, elems := rest, moved := r.moved + pieceBytes src })
          (if rest.isEmpty then r.due else r.from_ + (r.moved + pieceBytes src) / (s.cluster (s.n 0)).rc))) ∧
      (∀ mid, Ev .copyComplete (fun s => ready s ∧ (dst.findSome? fun p => s.holdOf p.1 p.2) = some mid) (fun s =>
        s.holdWrite mid .copyComplete))) ∧
    (∀ key v t, r.elems = [] → r.stamp = some (key, v) →
      Ev .copyComplete (fun s => ready s ∧ s.copyWaits (s.n 0) r = false ∧ s.holdOf key 8 = none ∧ s.reach r.ctx [(key, 8)] = .go t) (fun s =>
        let u := (t.fireWatch key 8 255 true).wrEngine r.ctx key 8 v 255
        let u : State := { u with marks := key :: u.marks }
        let w := u.copyEnd (s.n 0) r
        w.record r.ctx.core.pyl (u.core r.ctx.core).sstep.toNat r.ctx.place 14 (r.id + (u.cluster (s.n 0)).copiesDone * 65536)))) ∧
  (∀ r, Ev .promiseMissed (fun s => s.copyRun (s.n 0) (s.n 1) = some r ∧ s.copyReady r = false)
    (fun s => s.pendAsync r.ctx { cause := 32, val := r.id })) ∧
  Ev .promiseMissed (fun s => s.copyRun (s.n 0) (s.n 1) = none) id ∧
  Ev .gatherDescriptorRun (fun s => (s.cluster (s.n 0)).gq = []) id ∧
  (∀ g rest, let head (s : State) := (s.cluster (s.n 0)).gq = g :: rest
    let d (i : Nat) := g.desc.getD i 0
    let first (s : State) := (s.flight.any fun f => g.after.contains f.id && !f.performed) = false
    let table (s : State) : Foot := { rd := [(s.footAddr g.ctx (d 0), bits (d 1) 31 0 * gatherIdxW d)] }
    (g.moves = none → gatherReserved d = true → Ev .gatherDescriptorRun head (fun s => s.gatherFail (s.n 0) g 0 5)) ∧
    (g.moves = none → gatherReserved d = false → ∀ b t found, Ev .gatherDescriptorRun (fun s => head s ∧ first s ∧
      s.engineClear g.ctx (table s) g.behind = true ∧ s.reach g.ctx (s.indexPages g.ctx g.asid d) = .go b ∧
      gatherProbe g.ctx g.asid d (bit (d 4) 8) (upFrom 0 (bits (d 1) 31 0)) b = .ok (t, found)) (fun s =>
        (t.setGather (s.n 0) { g with
          moves := some (found.map (·.2)), foot := t.gatherFoot g.ctx d (footprint (found.map (·.1)) (gatherElem d)) }).after 0
            .gatherDescriptorRun b.arg)) ∧
    (g.moves = none → gatherReserved d = false → ∀ b pos det, det ≠ 6 → Ev .gatherDescriptorRun (fun s => head s ∧ first s ∧
      s.engineClear g.ctx (table s) g.behind = true ∧ s.reach g.ctx (s.indexPages g.ctx g.asid d) = .go b ∧
      gatherProbe g.ctx g.asid d (bit (d 4) 8) (upFrom 0 (bits (d 1) 31 0)) b = .error (pos, det))
        (fun s => b.gatherFail (s.n 0) g pos det)) ∧
    (∀ moves, g.moves = some moves →
      Ev .gatherDescriptorRun (fun s => head s ∧ s.engineClear g.ctx g.foot g.behind = false) (fun s =>
        s.after 1 .gatherDescriptorRun s.arg) ∧
      Ev .gatherDescriptorRun (fun s => head s ∧ first s ∧ s.engineClear g.ctx g.foot g.behind = true ∧
        (s.n 1 ≠ 0 ∨ moves.any (fun m => farPieces m.1) = false)) (fun s => s.gatherStep (s.n 0) g moves (s.arg.ns.drop 2))) ∧
    (∀ (s : State), s.gatherStep (s.n 0) g [] [] = (s.gatherEnd (s.n 0)).raiseLine (s.n 0) (bits (d 4) 3 0)) ∧
    (∀ (s t : State) m more, g.got = none → bit (d 4) 8 = false → farPieces m.1 = false → s.reach g.ctx m.1 = .go t →
      (t.poisonIn m.1 = none →
        s.gatherStep (s.n 0) g (m :: more) [] = (t.setGather (s.n 0) { g with got := some (t.rdPieces m.1) }).after 0 .gatherDescriptorRun
          { ns := [s.n 0, 1] }) ∧
      (∀ unit, t.poisonIn m.1 = some unit →
        s.gatherStep (s.n 0) g (m :: more) [] = (t.countPoison unit).gatherFail (s.n 0) g g.pos 6)) ∧
    (∀ (s t : State) m more v, g.got = some v → bit (d 4) 8 = false → farPieces m.2 = false →
      (m.2.findSome? fun p => s.holdOf p.1 p.2) = none → s.reach g.ctx m.2 = .go t →
      s.gatherStep (s.n 0) g (m :: more) [] = ((t.wrPieces g.ctx m.2 v).setGather
        (s.n 0) { g with got := none, moves := some more, pos := g.pos + 1 }).after 1 .gatherDescriptorRun { ns := [s.n 0, 1] })) ∧
  Ev .matrixCommandRun (fun s => s.n 0 = 0) (fun s => s.cmdKick (u s)) ∧
  Ev .matrixCommandRun (fun s => s.n 0 ≠ 0 ∧ (s.core (u s)).mq = []) id ∧
  (∀ m rest, m.started = true → m.halted = false →
    let head (s : State) := s.n 0 ≠ 0 ∧ (s.core (u s)).mq = m :: rest ∧ m.id = s.n 1
    let open_ (s : State) := ((s.drainPieces (u s) m).findSome? fun p => s.holdOf p.1 p.2) = none ∧
      ((∃ t, s.reach (m.ctx (u s)) (s.drainPieces (u s) m) = .go t) ∨ s.reach (m.ctx (u s)) (s.drainPieces (u s) m) = .hole)
    (m.f = 4 → m.work = none → Ev .matrixCommandRun (fun s => head s ∧ m.until_ ≤ s.cyc) (fun s => (s.mzeroRun (u s) m).cmdEnd (u s) m)) ∧
    (4 < m.f → m.work = none → ∀ t, Ev .matrixCommandRun (fun s => head s ∧ m.until_ ≤ s.cyc ∧ open_ s ∧
      s.mdrainRun (u s) m (s.arg.ns.drop 2) = (t, none)) (fun s => t.cmdEnd (u s) m)) ∧
    (4 < m.f → m.work = none → ∀ t e, Ev .matrixCommandRun (fun s => head s ∧ m.until_ ≤ s.cyc ∧ open_ s ∧
      s.mdrainRun (u s) m (s.arg.ns.drop 2) = (t, some e)) (fun s => t.cmdFail (u s) m e)) ∧
    (4 < m.f → m.work = none → ∀ t n, Ev .matrixCommandRun (fun s => head s ∧ m.until_ ≤ s.cyc ∧
      ((s.drainPieces (u s) m).findSome? fun p => s.holdOf p.1 p.2) = none ∧
      s.reach (m.ctx (u s)) (s.drainPieces (u s) m) = .wait t n) (fun s => t.after n .matrixCommandRun s.arg)) ∧
    (m.f < 4 → m.work = none → ∀ e, e ≠ .wait → (∀ ps, e ≠ .held ps) → Ev .matrixCommandRun (fun s => head s ∧
      s.readNext (u s) m (s.arg.ns.drop 2) = .error e) (fun s => s.cmdFail (u s) m e)) ∧
    (m.f < 4 → m.work = none → (s : State) → head s → s.readNext (u s) m (s.arg.ns.drop 2) = .error .wait →
      (s.ctx (m.ctx (u s))).stops = [] → exec .matrixCommandRun s = .next (((s.setCmd (u s) { m with waited := true }).at_ (s.cyc + 1)
        .matrixCommandRun { ctx := ⟨u s, 0⟩, ns := [1, m.id] ++ s.arg.ns.drop 2 }))) ∧
    (∀ strips, m.work = some strips → m.reading = false → ∀ e, Ev .matrixCommandRun (fun s => head s ∧ m.until_ ≤ s.cyc ∧
      s.cmdWork (u s) m strips = .error e) (fun s => s.cmdFail (u s) m e)) ∧
    (∀ strips, m.work = some strips → m.reading = false → m.n ≤ m.kb + 1 → ∀ t, Ev .matrixCommandRun (fun s => head s ∧
      m.until_ ≤ s.cyc ∧ s.cmdWork (u s) m strips = .ok t) (fun s => t.cmdEnd (u s) { m with
        kb := m.kb + 1, work := none, holds := m.holds.filter fun h => decide (256 * (m.kb + 1) ≤ h.1) })) ∧
    (∀ strips, m.work = some strips → m.reading = false → m.f < 3 → m.kb + 1 < m.n → ∀ t, Ev .matrixCommandRun (fun s => head s ∧
      m.until_ ≤ s.cyc ∧ s.cmdWork (u s) m strips = .ok t ∧ (t.ctx (m.ctx (u s))).stops ≠ []) (fun s => t.cmdHalt (u s) { m with
        kb := m.kb + 1, work := none, holds := m.holds.filter fun h => decide (256 * (m.kb + 1) ≤ h.1) }))) ∧
  Ev .downFifoRecordTake (fun s => (s.core (u s)).down = []) id ∧
  (∀ v, v.at_ = 0 → v.tag = 16447 →
    let r := lanes v.val.toNat 64 16
    let due (s : State) := (s.core (u s)).down = [v] ∧ (s.core (u s)).mq.length < 8
    let took (s : State) := s.setCore (u s) { (s.core (u s)).noteFifo s.cyc with down := [] }
    let m (s : State) := (took s).fifoCmd (u s) v
    (recordBad (r.getD · 0) = true → Ev .downFifoRecordTake due (fun s =>
      (took s).pendAsync ⟨(u s).deck, 0⟩ { cause := 35, detail := 16, val := (m s).d })) ∧
    (recordBad (r.getD · 0) = false →
      (∀ w, Ev .downFifoRecordTake (fun s => due s ∧ (took s).recordReject (u s) (m s) = some w) (fun s =>
        (took s).pendAsync ⟨(u s).deck, 0⟩ w)) ∧
      Ev .downFifoRecordTake (fun s => due s ∧ (took s).recordReject (u s) (m s) = none) (fun s => (took s).cmdAccept (u s) (m s)))) ∧
  (let cap (s : State) := s.n 1
   let r (s : State) := (s.arg.ns.drop 2).take 16
   let m (s : State) := s.recordCmd (capCore (cap s)) (r s) (some (c s)) ((s.arg.ns.drop 19).take (s.n 18))
   let late (s : State) := s.flight.any fun f => (s.arg.ns.drop (19 + s.n 18)).contains f.id && !f.performed
   let v (s : State) := s.wakeCluster (capCore (cap s)).cluster
   let pw (s : State) := ((v s).cluster (capCore (cap s)).cluster).power
   let clear (s : State) := late s = false ∧ pw s = .awake ∧ recordBad ((r s).getD · 0) = false
   let answer (s t : State) (cause detail val : Nat) := t.after (latPool (u s) (capCore (cap s)) / 2) .msendAnswerArrival
     { ctx := c s, ns := [s.n 0, cause, detail, val] }
   Ev .msendRecordArrival (fun s => late s = true) (fun s => s.after 1 .msendRecordArrival s.arg) ∧
   Ev .msendRecordArrival (fun s => late s = false ∧ (pw s = .gated ∨ ∃ b, pw s = .waking b))
     (fun s => (v s).after 1 .msendRecordArrival (v s).arg) ∧
   Ev .msendRecordArrival (fun s => late s = false ∧ pw s = .failed) (fun s =>
     answer s { v s with free := (v s).free + 1 } 18 6 (Config.outcome (v s).free % 18446744073709551616)) ∧
   Ev .msendRecordArrival (fun s => late s = false ∧ pw s = .awake ∧ recordBad ((r s).getD · 0) = true)
     (fun s => answer s (v s) 35 16 (m s).d) ∧
   (∀ d, Ev .msendRecordArrival (fun s => clear s ∧ (v s).capReject (c s) (cap s) (m s) = some d) (fun s => answer s (v s) 35 d (m s).d)) ∧
   Ev .msendRecordArrival (fun s => clear s ∧ (v s).capReject (c s) (cap s) (m s) = none ∧
     (v s).recordReject (capCore (cap s)) (m s) = none ∧ ((v s).core (capCore (cap s))).mq.length < 8) (fun s =>
     answer s ((v s).cmdAccept (capCore (cap s)) (m s)) 0 0 0) ∧
   Ev .msendRecordArrival (fun s => clear s ∧ (v s).capReject (c s) (cap s) (m s) = none ∧
     (v s).recordReject (capCore (cap s)) (m s) = none ∧ 8 ≤ ((v s).core (capCore (cap s))).mq.length) (fun s =>
     (v s).after 1 .msendRecordArrival (v s).arg))

/-- R191 to R193, R184, R201, R202, R389, R466: DIRTY_NOTICE notes the block and starts an idle engine; VIEW_BLOCK_REFRESH of an engine with
nothing to do does nothing, and of one with work sets off with the master and block of its turn; VIEW_REQUEST_ARRIVAL waits for what comes
first, and at the homes deletes the view, rewrites its policy in every tag, or marks every block dirty; about a view that has ceased it
answers at once. -/
def Sys2Proof.Claims.ViewEvents : Prop :=
  let c (s : State) := s.arg.ctx
  let found (s : State) := (s.master (s.n 3)).bind fun m => (m.views.find? (·.num == s.n 4)).map fun w => (m, w)
  Ev .dirtyNotice (fun s => s.master (s.n 0) = none) id ∧
  (∀ m, Ev .dirtyNotice (fun s => s.master (s.n 0) = some m ∧ m.dirty.contains (s.n 1) = true ∧ m.noticed.contains (s.n 1) = false ∧
      (s.setMaster { m with noticed := m.noticed ++ [s.n 1] }).refreshing (m.mid / 256 % 8) = false) (fun s =>
    (s.setMaster { m with noticed := m.noticed ++ [s.n 1] }).after 0 .viewBlockRefresh { ns := [m.mid / 256 % 8] })) ∧
  Ev .viewBlockRefresh (fun s => s.n 1 = 0 ∧ s.nextRefresh (s.n 0) = none) id ∧
  (∀ mid b, Ev .viewBlockRefresh (fun s => s.n 1 = 0 ∧ s.nextRefresh (s.n 0) = some (mid, b)) (fun s =>
    (s.setPylon (s.n 0) { s.pylon (s.n 0) with nextMid := mid + 1 }).after 130 .viewBlockRefresh
      { ns := [s.n 0, 1, mid, b, 0, 0, 0] })) ∧
  Ev .viewRequestArrival (fun s => found s = none ∧ s.n 0 ≠ 4) (fun s =>
    s.after 130 .viewAnswerArrival { ctx := c s, ns := [s.n 1, 0, 0, 0] }) ∧
  (∀ e, Ev .viewRequestArrival (fun s => found s = some e ∧ s.n 0 ≠ 4 ∧ s.n 2 = 0 ∧
      s.waitsFor (c s).core (s.arg.ns.drop 6) = true) (fun s =>
    s.after 1 .viewRequestArrival { s.arg with ns := [s.n 0, s.n 1, 0, s.n 3, s.n 4, s.n 5] ++ s.arg.ns.drop 6 })) ∧
  (∀ e, Ev .viewRequestArrival (fun s => found s = some e ∧ s.n 0 = 1 ∧ s.n 2 = 1 ∧ s.viewInFlight e.1.mid (s.n 4) = false) (fun s =>
    (s.viewDelete e.1 (s.n 4)).viewReply (c s) 260 0 0 0)) ∧
  (∀ e, Ev .viewRequestArrival (fun s => found s = some e ∧ s.n 0 = 3 ∧ s.n 2 = 1) (fun s =>
    let pol := s.n 5 % 4
    ((s.setMaster (e.1.setView { e.2 with pol := pol })).mapTags e.1 (s.n 4) fun t =>
      t - bits t 21 20 * 1048576 + pol * 1048576).viewReply (c s) 260 0 0 0)) ∧
  (∀ e, Ev .viewRequestArrival (fun s => found s = some e ∧ s.n 0 = 5 ∧ s.n 2 = 1) (fun s =>
    (s.markDirty e.1.mid (upFrom 0 e.1.blocks)).viewReply (c s) 260 0 0 0))

/-- R208, R210, R211, R214, R215, R241, R467, R130: COMMAND_BLOCK_ARRIVAL at its processor queues the command, and reports it when the
queued status is performed; at the home it reads the header; COMMAND_AGING raises a command that still waits by one priority; COMPUTE_COMMAND_TAKE reads the header and then
the tables of a launch, each for its time, and refuses one that is not in order, and hands on a capture packet; PLACEMENT_WAIT_EXPIRY goes on with any rectangle, and
refuses a launch that depends on a save that failed (R456); LAUNCH_COMPLETION waits for the
end and then for every effect of the launch that is still on its way; a copy job begins at an enabled copy engine of its pylons, and ends with its status; a copy job or an in-memory job whose block is unreadable is refused with 0x10; an in-memory job with nothing left reports completed. -/
def Sys2Proof.Claims.CommandEvents : Prop :=
  let c (s : State) := s.arg.ctx
  let y (s : State) := s.pylon (s.n 0)
  Ev .commandBlockArrival (fun s => s.waitsFor (c s).core (s.arg.ns.drop 12) = true) (fun s => s.after 1 .commandBlockArrival s.arg) ∧
  Ev .commandBlockArrival (fun s => s.waitsFor (c s).core (s.arg.ns.drop 12) = false ∧ s.n 0 = 0 ∧ s.poisoned (s.n 11) 16 = none) (fun s =>
    let lat := latHome (c s).core (homeOf (s.n 11))
    s.after (lat - lat / 2 + 130) .commandBlockArrival { ctx := c s, ns :=
      [1, s.n 1, s.n 2, bits (Mem.read s.mem (s.n 11 + 8) 8) 9 8] ++ (s.arg.ns.drop 4).take 5 ++
      [bits (Mem.read s.mem (s.n 11) 8) 23 16, s.n 10, s.n 11] }) ∧
  Ev .commandBlockArrival (fun s => s.waitsFor (c s).core (s.arg.ns.drop 12) = false ∧ s.n 0 = 1) (fun s =>
    let p := firstPylon (s.n 9)
    let k := s.pylon p
    let cmd : Cmd := { seq := k.nextCmd, type := s.n 2, pri := s.n 3, at_ := s.cyc, issuer := c s, job := s.n 4, arg := s.n 5,
                       statVa := s.n 6, asid := s.n 7, root := s.n 8, part := s.n 10, pyls := s.n 9 }
    let t := s.setPylon p { k with cmds := k.cmds ++ [cmd], nextCmd := k.nextCmd + 1 }
    let t := t.after 1048576 .commandAging { ns := [p, cmd.seq] }
    t.after (if cmd.statVa = 0 then 0 else t.procHalf p cmd.asid cmd.statVa) .commandBlockArrival { ctx := c s, ns := [2, s.n 1, p, cmd.seq] }) ∧
  (∀ cmd, Ev .commandBlockArrival (fun s => s.waitsFor (c s).core (s.arg.ns.drop 12) = false ∧ s.n 0 = 2 ∧
      (s.pylon (s.n 2)).cmds.find? (·.seq == s.n 3) = some cmd) (fun s =>
    let told := (s.pylon (s.n 2)).cmds.map fun m => if m.seq = cmd.seq then { m with told := true } else m
    let t := (s.setPylon (s.n 2) { s.pylon (s.n 2) with cmds := told }).cmdStatus (s.n 2) cmd 0 0
    (t.poke cmd.type (s.n 2) 0).after 130 .commandQueuedNews { ctx := c s, ns := [s.n 1] })) ∧
  Ev .commandAging (fun s => (y s).cmds.any (·.seq == s.n 1) = false) id ∧
  Ev .commandAging (fun s => (y s).cmds.any (·.seq == s.n 1) = true) (fun s =>
    let older := (y s).cmds.map fun k => if k.seq = s.n 1 then { k with pri := k.pri - 1 } else k
    (s.setPylon (s.n 0) { y s with cmds := older }).after 1048576 .commandAging s.arg) ∧
  (∀ pl, pl.reads = 0 → Ev .computeCommandTake (fun s => (y s).placing = some pl) (fun s => s.placeOn (s.n 0) pl)) ∧
  (∀ pl, pl.reads ≠ 0 → Ev .computeCommandTake (fun s => (y s).placing = some pl ∧ s.arg.ns.length = 2)
    (fun s => s.readOn (s.n 0) pl)) ∧
  Ev .computeCommandTake (fun s => (y s).placing = none ∧ (y s).next 0 = none) id ∧
  (∀ k, k.job = 0 → Ev .computeCommandTake (fun s => (y s).placing = none ∧ (y s).next 0 = some k)
    (fun s => s.after 0 (if bit k.arg 0 then .stopCapture else .startCapture) { ns := [s.n 0] })) ∧
  (∀ k, k.job ≠ 0 → Ev .computeCommandTake (fun s => (y s).placing = none ∧ (y s).next 0 = some k) (fun s =>
    let t := s.dropCmd (s.n 0) k.seq
    let t := t.setPylon (s.n 0) { t.pylon (s.n 0) with placing := some { cmd := k, plan := {}, reads := 3 } }
    t.after (t.procHalf (s.n 0) k.asid k.job) .computeCommandTake { ns := [s.n 0, 1] })) ∧
  (∀ (s : State) p pl code, pl.reads = 3 → s.readHeader pl.cmd = .error code →
    s.readOn p pl = (s.setPylon p { s.pylon p with placing := some { pl with reads := 1, bad := code } }).after
      (s.procHalf p pl.cmd.asid pl.cmd.job) .computeCommandTake { ns := [p, 1] }) ∧
  (∀ (s : State) p pl code, pl.reads = 2 → s.readTables pl.cmd pl.plan = .error code →
    s.readOn p pl = (s.setPylon p { s.pylon p with placing := some { pl with reads := 1, bad := code } }).after
      (s.tableHalf p pl.cmd.asid pl.plan) .computeCommandTake { ns := [p, 1] }) ∧
  (∀ (s : State) p pl t plan, pl.reads = 2 → s.readTables pl.cmd pl.plan = .ok (t, plan) →
    s.readOn p pl = (t.setPylon p { t.pylon p with placing := some { pl with reads := 1, plan := plan } }).after
      (s.tableHalf p pl.cmd.asid pl.plan) .computeCommandTake { ns := [p, 1] }) ∧
  (∀ (s : State) p pl, pl.reads = 1 → pl.bad ≠ 0 → s.readOn p pl = s.refuse p pl pl.bad) ∧
  (∀ (s : State) p pl, pl.reads = 1 → pl.bad = 0 → s.readOn p pl = s.placeOn p { pl with reads := 0 }) ∧
  (∀ (s : State) (k : Cmd), k.job % 256 ≠ 0 → s.readHeader k = .error 16) ∧
  (∀ pl, Ev .placementWaitExpiry (fun s => (y s).placing = some pl ∧ pl.cmd.seq = s.n 1 ∧ pl.reads = 0 ∧ s.n 2 = 0)
    (fun s => s.placeOn (s.n 0) { pl with late := true })) ∧
  (∀ pl, Ev .placementWaitExpiry (fun s => (y s).placing = some pl ∧ pl.cmd.seq = s.n 1 ∧ pl.reads = 0 ∧ s.n 2 ≠ 0 ∧ s.dependsOn pl (s.n 3) = true)
    (fun s => s.refuse (s.n 0) pl (s.n 2))) ∧
  (∀ pl, Ev .placementWaitExpiry (fun s => (y s).placing = some pl ∧ s.n 2 ≠ 0 ∧ s.dependsOn pl (s.n 3) = false) id) ∧
  Ev .placementWaitExpiry (fun s => (y s).placing = none) id ∧
  (∀ l, Ev .launchCompletion (fun s => s.launch (s.n 0) = some l ∧ s.launchEnded l = false) id) ∧
  (∀ l, Ev .launchCompletion (fun s => s.launch (s.n 0) = some l ∧ s.launchEnded l = true ∧ s.effectsLeft l = true)
    (fun s => s.after 1 .launchCompletion s.arg)) ∧
  (∀ s l, s.launch (s.n 0) = some l → s.launchEnded l = true → s.effectsLeft l = false → ∃ t : State, exec .launchCompletion s = .next t ∧
    (∀ m ∈ t.launches, m.id ≠ l.id)) ∧
  (∀ k w t d, Ev .startCapture (fun s => s.takePacket (s.n 0) 0 = some (w, k) ∧ w.spaceRead k.asid k.arg 3 64 = some (t, d)) (fun s =>
    let u := t.trace (s.n 0) 0 0 12 k.arg
    let y : Pylon := { u.pylon (s.n 0) with
      capture := true, capBase := lane d 64 0, capSize := lane d 64 1, capMask := lane d 64 2, capCount := 0, capDesc := k.arg
      capAsid := k.asid }
    ((u.setPylon (s.n 0) y).cmdStatus (s.n 0) k 2 0).poke 0 (s.n 0) 1)) ∧
  (∀ k w, Ev .startCapture (fun s => s.takePacket (s.n 0) 0 = some (w, k) ∧ w.spaceRead k.asid k.arg 3 64 = none)
    (fun s => (w.cmdStatus (s.n 0) k 3 16).poke 0 (s.n 0) 1)) ∧
  Ev .startCapture (fun s => s.takePacket (s.n 0) 0 = none) id ∧
  (∀ k w, Ev .stopCapture (fun s => s.takePacket (s.n 0) 1 = some (w, k) ∧ (w.pylon (s.n 0)).capture = false) (fun s =>
    let off (l : Launch) : Launch := if firstPylon l.pyls = s.n 0 then { l with captured := false } else l
    let t : State := { w.setPylon (s.n 0) { w.pylon (s.n 0) with capture := false } with launches := w.launches.map off }
    ((t.trace (s.n 0) 0 0 12 k.arg).cmdStatus (s.n 0) k 2 0).poke 0 (s.n 0) 1)) ∧
  Ev .stopCapture (fun s => s.takePacket (s.n 0) 1 = none) id ∧
  Ev .copyJobTake (fun s => (y s).copyBusy = none ∧ (y s).next 1 = none) id ∧
  (∀ k, Ev .copyJobTake (fun s => (y s).copyBusy = none ∧ (y s).next 1 = some k ∧ s.jobEngine k.pyls = none) id) ∧
  (∀ k e, Ev .copyJobTake (fun s => (y s).copyBusy = none ∧ (y s).next 1 = some k ∧ s.jobEngine k.pyls = some e ∧
      ((s.dropCmd (s.n 0) k.seq).cmdStatus (s.n 0) k 1 0).spaceRead k.asid k.job 3 512 = none) (fun s =>
    (((s.dropCmd (s.n 0) k.seq).cmdStatus (s.n 0) k 1 0).cmdStatus (s.n 0) k 3 16).poke 1 (s.n 0) 1)) ∧
  (∀ s k e u b t r, (y s).copyBusy = none → (y s).next 1 = some k → s.jobEngine k.pyls = some e →
    ((s.dropCmd (s.n 0) k.seq).cmdStatus (s.n 0) k 1 0).spaceRead k.asid k.job 3 512 = some (u, b) →
    (∀ i, i = 5 ∨ i = 6 ∨ 7 ≤ i ∧ i < 16 → lane b 64 i = 0) →
    u.copyTake k.issuer k.asid 0 (fun n => lane b 64 (n - 512)) = .ok (t, r) →
    ∃ t' : State, exec .copyJobTake s = .next t' ∧ (t'.pylon (s.n 0)).copyBusy = some k ∧
      ∃ q ∈ (t'.cluster e).copies, q.job = some (s.n 0, k.seq) ∧ q.elems = freeOrder (Config.copyOrder t.free) r.elems ∧ q.stamp = r.stamp) ∧
  (∀ k, let ended (s : State) := (s.setPylon (s.n 0) { y s with copyBusy := none }).cmdStatus (s.n 0) k 2 0
    Ev .copyJobTake (fun s => (y s).copyBusy = some k ∧ s.arg.ns = [s.n 0, k.seq] ∧ ((ended s).pylon (s.n 0)).next 1 = none) ended) ∧
  Ev .inMemoryJobTake (fun s => (y s).memBusy = none ∧ (y s).next 2 = none) id ∧
  (∀ r, r.left = 0 → Ev .inMemoryJobTake (fun s => (y s).memBusy = some r) (fun s =>
    ((s.setPylon (s.n 0) { y s with memBusy := none }).cmdStatus (s.n 0) r.cmd 2 0).poke 2 (s.n 0) 1)) ∧
  (∀ k, Ev .inMemoryJobTake (fun s => (y s).memBusy = none ∧ (y s).next 2 = some k ∧
      ((s.dropCmd (s.n 0) k.seq).cmdStatus (s.n 0) k 1 0).spaceRead k.asid k.job 3 64 = none) (fun s =>
    (((s.dropCmd (s.n 0) k.seq).cmdStatus (s.n 0) k 1 0).cmdStatus (s.n 0) k 3 16).poke 2 (s.n 0) 1))

/-- R212 to R215: the steps of a launch after its checks. A choice is a rectangle that can be had: at an origin that FIX admits, every
cluster enabled, asked for no gate, and held by no launch unless the footprint is compact. Awake ones come first, in the order of ORGY x 32
+ ORGX; when the wait is over, those with the fewest gated clusters, in the same order. With none that could ever be had the launch is
refused with 0x11; with none yet it waits for R215's time; a reservation that fails refuses it; else its clusters are held, its queues
reserved at every home and its gated clusters woken. It starts when every cluster is awake and every context of another launch on its cores
is Stopped: each core then has sstep and bdom 0 and its partition word, and context 0 runs at U at its entry. A launch one of whose clusters
fails to wake releases its reservations and returns to placement (R457). -/
def Sys2Proof.Claims.PlacingALaunch : Prop := ∀ (s : State) (p : Nat) (pl : Placing),
  let gatedWoken (t : State) (ks : List Nat) : Prop := ∀ k ∈ ks, (s.cluster k).power = .gated → (t.cluster k).power ≠ .gated
  let some_ : Prop := ∃ o ∈ pl.plan.origins, s.usable (rectClusters pl.plan.pyls o.1 o.2 pl.plan.extW pl.plan.extH) = true
  let ksOf (l : Launch) : List Nat := rectClusters l.pyls l.orgX l.orgY l.extW l.extH
  let at_ (r : Nat × Nat × Nat × List Nat) : Nat := r.2.1 * 32 + r.1
  (∀ r ∈ s.rects pl.plan, (r.1, r.2.1) ∈ pl.plan.origins ∧ r.2.2.2 = rectClusters pl.plan.pyls r.1 r.2.1 pl.plan.extW pl.plan.extH ∧
    ∀ k ∈ r.2.2.2, enabled (k / 512) (k % 512 / 16) (k % 16) = true ∧ (s.cluster k).gateReq = false ∧
      (pl.plan.fp = 4 → s.holders k = [])) ∧
  (∀ late r, s.choose pl.plan late = some r → r ∈ s.rects pl.plan ∧ (late = false → s.asleep r.2.2.2 = 0) ∧
    ∀ q ∈ s.rects pl.plan, s.asleep q.2.2.2 = 0 → s.asleep r.2.2.2 = 0 ∧ at_ r ≤ at_ q) ∧
  (∀ r, s.choose pl.plan true = some r → ∀ q ∈ s.rects pl.plan, s.asleep r.2.2.2 ≤ s.asleep q.2.2.2 ∧
    (s.asleep r.2.2.2 = s.asleep q.2.2.2 → at_ r ≤ at_ q)) ∧
  (pl.lid = 0 → ¬ some_ → s.placeOn p pl = s.refuse p pl 17) ∧
  (pl.lid = 0 → some_ → s.choose pl.plan pl.late = none → pl.until_ = none → ∃ t : State, s.placeOn p pl = t ∧
    (t.pylon p).placing = some { pl with until_ := some (s.cyc + s.placeWait pl.plan) } ∧ t.launches = s.launches ∧
    (s.cyc + s.placeWait pl.plan, Instr.placementWaitExpiry, ({ ns := [p, pl.cmd.seq, 0] } : Arg)) ∈ t.agenda) ∧
  (pl.lid = 0 → some_ → ∀ r code, s.choose pl.plan pl.late = some r → s.reserveFail pl.plan = some code →
    s.placeOn p pl = { s with free := s.free + 1 }.refuse p pl code) ∧
  (pl.lid = 0 → some_ → ∀ r, s.choose pl.plan pl.late = some r → s.reserveFail pl.plan = none → ∃ t : State, s.placeOn p pl = t ∧
    (t.pylon p).placing = some { pl with lid := s.nextLid } ∧ gatedWoken t r.2.2.2 ∧
    (∃ l ∈ t.launches, l.id = s.nextLid ∧ l.orgX = r.1 ∧ l.orgY = r.2.1 ∧ l.unit = r.2.2.1 ∧ l.pyls = pl.plan.pyls ∧ l.started = false) ∧
    ∀ h < 512, ∀ e ∈ pl.plan.qt, (t.queue h (e.1 % 64)).lid = s.nextLid) ∧
  (∀ l, pl.lid ≠ 0 → s.launch pl.lid = some l → s.usable (ksOf l) = true → s.asleep (ksOf l) = 0 →
    (∀ u ∈ l.cores, s.coreFree u = true) → s.placeOn p pl = s.startLaunch p pl l) ∧
  (∀ l, pl.lid ≠ 0 → s.launch pl.lid = some l → s.usable (ksOf l) = true → (s.asleep (ksOf l) ≠ 0 ∨ ∃ u ∈ l.cores, s.coreFree u = false) →
    ∃ t : State, s.placeOn p pl = t ∧ t.launches = s.launches ∧ (t.pylon p).placing = (s.pylon p).placing ∧ gatedWoken t (ksOf l)) ∧
  (∀ l, pl.lid ≠ 0 → s.launch pl.lid = some l → s.usable (ksOf l) = false → ∃ t : State, s.placeOn p pl = t ∧
    (∀ m ∈ t.launches, m.id ≠ l.id) ∧ (t.pylon p).placing = some { pl with lid := 0 }) ∧
  (∀ l, ∀ u ∈ l.cores, let t := s.startLaunch p pl l
    (t.core u).lid = l.id ∧ (t.core u).sstep = 0 ∧ (t.core u).bdom = 0 ∧ (t.core u).pw = pl.plan.pw ∧
    (t.ctx ⟨u, 0⟩).level = .u ∧ (t.ctx ⟨u, 0⟩).asid = BitVec.ofNat 16 l.asid ∧
    (t.ctx ⟨u, 0⟩).pc = Word.ofN (pl.plan.w 0 + (if u.kind = .span then pl.plan.w 1 % 4294967296 else pl.plan.w 1 / 4294967296))) ∧
  (∀ l, ((s.startLaunch p pl l).pylon p).placing = none)

/-- The command processor's events, and how a launch is placed and started. -/
def Obligations.LaunchEvents : Prop := Sys2Proof.Claims.CommandEvents ∧ Sys2Proof.Claims.PlacingALaunch

/-- R411, R418, R424, R221 to R225, R290, R465, R453, R421, R216 to R218, R457, R226, R456: ASYNC_TRAP_TAKE takes the pending cause of lowest
code and leaves it out of those that stay; CONTEXT_STOP stops the context and withdraws its requests, which it keeps aside; a stop request
is noted at each context it names that runs, with the limit of its packet, and is acknowledged once none runs; a resume takes each named
context out of Stopped and is acknowledged at once; debug halts; gates, wakes and a failed wake, which ends the accesses that waited for
it; a core save begins unless one is busy; it waits for the contexts, fails with status 4 when the bound is past, and with no context
running and no launch that needs the room ends with status 0; a restore over a footprint that is held fails with status 3. Which points a
stop takes and what a packet limit cuts is the model's reading (notes/assumptions/80), as is which launch a save makes room for and what
a save of a running launch waits for (notes/assumptions/28), and what becomes of a request that is withdrawn (notes/assumptions/62). -/
def Obligations.ContextEvents : Prop :=
  let c (s : State) := s.arg.ctx
  let x (s : State) := s.ctx s.arg.ctx
  let k (s : State) := s.cluster (s.n 0)
  Ev .asyncTrapTake (fun s => (x s).async = [] ∨ (x s).st = .free ∨ (x s).st = .stopped ∨
      (x s).st = .waiting ∧ (x s).wait.breaks = false ∧ (s.stalls (c s) = false ∨ s.wakes (c s) = false)) id ∧
  (∀ w, Ev .asyncTrapTake (fun s => (x s).async = [w] ∧ ((x s).st = .ready ∨ (x s).st = .waiting ∧ (x s).wait.breaks = true)) (fun s =>
    let cl := s.cluster (c s).core.cluster
    ((s.setCluster (c s).core.cluster { cl with evWait := cl.evWait.filter (·.2 != c s) }).setCtx (c s) { x s with async := [] }).takeTrap
      (c s) w (x s).resume 0)) ∧
  (∀ s, (x s).async ≠ [] → ((x s).st = .ready ∨ (x s).st = .waiting ∧ (x s).wait.breaks = true) → ∃ (t : State) (v : Trap),
    exec .asyncTrapTake s = .next (t.takeTrap (c s) v (x s).resume 0) ∧ v ∈ (x s).async ∧ (∀ w ∈ (x s).async, v.cause ≤ w.cause) ∧
      (t.ctx (c s)).async = (x s).async.erase v ∧ t.mem = s.mem) ∧
  Ev .contextStop (fun s => (x s).stops = [] ∨ s.atStop (c s) = false) id ∧
  (∀ s, (x s).stops ≠ [] → (x s).st = .ready ∨ (x s).st = .waiting → s.atStop (c s) = true → ∃ t : State, exec .contextStop s = .next t ∧ (t.ctx (c s)).st = .stopped ∧ (t.ctx (c s)).stops = [] ∧
      (t.ctx (c s)).pkt = (if bit (x s).ctlmode.toNat 0 || (x s).pktCut then none else (x s).pkt) ∧ (t.ctx (c s)).wasWaiting = decide ((x s).st = .waiting) ∧ (t.ctx (c s)).pc = (x s).pc ∧
      (∀ r ∈ (t.core (c s).core).sfu, r.ctx ≠ c s) ∧
      (t.ctx (c s)).sfuHeld = (x s).sfuHeld ++ (((s.core (c s).core).sfu.filter (·.ctx == c s)).map (·, none))) ∧
  Ev .cstopRequestArrival (fun s => (s.flight.any fun f => (s.arg.ns.drop 4).contains f.id && !f.performed) = true)
    (fun s => s.after 1 .cstopRequestArrival s.arg) ∧
  (∀ s, (s.flight.any fun f => (s.arg.ns.drop 4).contains f.id && !f.performed) = false →
    let u := coreOfWord (s.n 1)
    let named (h : CtxId) : Prop := h ∈ u.ctxs ∧ bit (s.n 2) h.k = true
    let runs (h : CtxId) : Prop := (s.ctx h).st ≠ .free ∧ (s.ctx h).st ≠ .stopped ∧ (s.ctx h).halting = false
    let acked (t : State) : Prop :=
      (s.cyc + stopWay (c s).core u, Instr.stopAckArrival, ({ ctx := c s, ns := [s.n 0, s.n 3] } : Arg)) ∈ t.agenda
    ∃ t : State, exec .cstopRequestArrival s = .next t ∧
      (s.n 0 = 0 → (∀ h, named h → h ≠ c s → runs h → (t.ctx h).stops = (s.ctx h).stops ++ [s.cyc] ∧ (t.ctx h).st = (s.ctx h).st ∧
          (s.cyc + 65536, Instr.packetStopLimit, ({ ctx := h, ns := [s.cyc] } : Arg)) ∈ t.agenda) ∧
        ((∀ h, named h → h ≠ c s → ¬ runs h) → acked t) ∧
        (∀ h, named h → h ≠ c s → runs h → ∃ a ∈ t.acks, a.issuer = c s ∧ a.waitNo = s.n 3 ∧ a.kind = 0 ∧ a.core = u)) ∧
      (s.n 0 = 1 → (∀ h, named h → (s.ctx h).st = .stopped → (t.ctx h).st ≠ .stopped) ∧ acked t)) ∧
  Ev .packetStopLimit (fun s => (x s).stops.contains (s.n 0) = true) (fun s => s.setCtx (c s) { x s with pktCut := true }) ∧
  Ev .packetStopLimit (fun s => (x s).stops.contains (s.n 0) = false) id ∧
  Ev .debugHaltBegin (fun _ => True) (fun s => (s.setCtx (c s) { x s with halted := true }).sfuWithdraw (c s) none) ∧
  Ev .debugHaltEnd (fun _ => True) (fun s => (s.setCtx (c s) { x s with
    halted := false, spurious := (x s).st == .waiting && (x s).wait.sleeps }).sfuReenter (c s) fun lv => lv == none) ∧
  Ev .clusterGate (fun s => (k s).gateReq = false) id ∧
  Ev .clusterGate (fun s => (k s).gateReq = true ∧ (k s).power = .awake ∧ s.quiescent (s.n 0) = true ∧ (k s).wakeAsk ≠ s.cyc + 1)
    (fun s => s.gate (s.n 0)) ∧
  Ev .clusterGate (fun s => (k s).gateReq = true ∧ (s.quiescent (s.n 0) = false ∨ (k s).wakeAsk = s.cyc + 1)) (fun s => s.after 1 .clusterGate s.arg) ∧
  Ev .packIdleGate (fun s => (k s).power ≠ .awake ∨ (k s).freeSince ≠ s.n 1) id ∧
  Ev .packIdleGate (fun s => (k s).power = .awake ∧ (k s).freeSince = s.n 1 ∧ s.launches = [] ∧ s.quiescent (s.n 0) = false)
    (fun s => s.after 1 .packIdleGate s.arg) ∧
  (∀ s, (k s).power = .awake → (k s).freeSince = s.n 1 → s.quiescent (s.n 0) = true → s.launches = [] → ∃ t : State,
    exec .packIdleGate s = .next t ∧ (t.cluster (s.n 0)).power = .gated) ∧
  (∀ n, Ev .clusterWakeDone (fun s => (k s).power = .waking n) (fun s =>
    let t := (s.setCluster (s.n 0) { k s with power := .awake }).drainCluster (clusterCores (s.n 0) ++ [clusterDeck (s.n 0)])
    let y := t.pylon (s.n 0 / 512)
    if y.gated ∧ y.wakeEnd ≤ t.cyc then t.setPylon (s.n 0 / 512) { y with gated := false, wakeEnd := 0 } else t)) ∧
  Ev .clusterWakeDone (fun s => (k s).power = .awake ∨ (k s).power = .gated ∨ (k s).power = .failed) id ∧
  Ev .wakeFailure (fun s => (k s).power ≠ .waking (s.n 1)) id ∧
  (∀ s, (k s).power = .waking (s.n 1) → ∃ t : State, exec .wakeFailure s = .next t ∧ (t.cluster (s.n 0)).power = .failed ∧
    ∀ f ∈ t.flight, f ∈ s.flight ∧ (f.performed = false → ∀ n < 4,
      ¬ (poolKey ((clusterDeck (s.n 0)).spanOf n) 0 ≤ f.key ∧ f.key < poolKey ((clusterDeck (s.n 0)).spanOf n) 0 + 262144))) ∧
  (∀ e ∈ ([(.coreSave, 1), (.coreRestore, 2)] : List (Instr × Nat)),
    Ev e.1 (fun s => (k s).saving ≠ none) id ∧
    Ev e.1 (fun s => enabled (s.n 0 / 512) (s.n 0 % 512 / 16) (s.n 0 % 16) = false) id ∧
    (∀ s, (k s).saving = none → enabled (s.n 0 / 512) (s.n 0 % 512 / 16) (s.n 0 % 16) = true → ∃ t : State, exec e.1 s = .next (t.after 64 .coreSaveDone { ns := [s.n 0, e.2] }) ∧
      (t.cluster (s.n 0)).saving = some s.cyc)) ∧
  Ev .coreSaveDone (fun s => (k s).saving = none) id ∧
  (∀ b, let halted (s : State) : Bool := (clusterCores (s.n 0)).all fun u => u.ctxs.all fun h =>
      (s.ctx h).st == .free || (s.ctx h).st == .stopped || (s.ctx h).halting
    let next (s : State) : State := { s with free := s.free + 1 }
    Ev .coreSaveDone (fun s => (k s).saving = some b ∧ s.n 1 = 1 ∧ halted s = false ∧ s.cyc < b + 65536)
      (fun s => (next s).after 1 .coreSaveDone s.arg) ∧
    Ev .coreSaveDone (fun s => (k s).saving = some b ∧ s.n 1 = 1 ∧ halted s = false ∧ b + 65536 ≤ s.cyc)
      (fun s => (next s).saveFailed (s.n 0) 4) ∧
    Ev .coreSaveDone (fun s => (k s).saving = some b ∧ s.n 1 = 1 ∧ halted s = true ∧
        ∀ u ∈ clusterCores (s.n 0), ((next s).saveMeets (s.n 0) u).some_ = false) (fun s =>
      ((next s).setCluster (s.n 0) { k s with copied := false, copiedPool := false, copiedCrown := false, copiedDeck := false }).saveEnd
        (s.n 0) 0) ∧
    Ev .coreSaveDone (fun s => (k s).saving = some b ∧ s.n 1 ≠ 1 ∧ (clusterCores (s.n 0)).any s.footHeld = true)
      (fun s => s.saveFailed (s.n 0) 3) ∧
    Ev .coreSaveDone (fun s => (k s).saving = some b ∧ s.n 1 ≠ 1 ∧ (clusterCores (s.n 0)).any s.footHeld = false ∧
        ((clusterCores (s.n 0)).any fun u => u.ctxs.any fun h => (s.ctx h).live && (s.ctx h).st != .stopped) = true)
      (fun s => s.after 1 .coreSaveDone s.arg))

/-- R6, R7, R135, R228, R230 to R233, R239, R387, R448, R460, R459, R227: the writes of control words with an effect, and the start. A
write to a word without a behaviour of its own replaces its writable bits, one to a home's counters clears what it has 1s in, and a
read-only word stays; a stop is armed at its target; RECORD and REPLAY together leave
both; the capability epoch goes on modulo 4,096; QUIESCE clear lets the pier go on; a repair ends with the row mapped and one spare
fewer; start-good clears FSC; power-on, and warm reset, over which repaired rows stay; a third failed start is minimal mode; the watchdog; the host's rings. -/
def Obligations.ControlEvents : Prop :=
  let h (s : State) := s.home (s.n 0)
  let kept (e : Nat × Home) : Nat × Home := (e.1, { spare := e.2.spare, repaired := e.2.repaired })
  Ev .controlWordWrite (fun s => ctlAssigned (s.n 0) = false) id ∧
  Ev .controlWordWrite (fun s => ctlAssigned (s.n 0) = true) (fun s => s.ctlWrite (s.n 0) (s.n 1)) ∧
  (∀ (s : State) o v, 4352 ≤ o → o < 5120 → s.ctlWrite o v = s.setCtl o (v &&& ctlWritable o)) ∧
  (∀ (s : State) h v, h < 512 → s.ctlWrite (homeBlock h + 2064) v = s.setCtl (homeBlock h + 2064)
    (s.ctl (homeBlock h + 2064) &&& (2 ^ 64 - 1 - v)) ∧ s.ctlWrite (homeBlock h + 2072) v = s) ∧
  (∀ (s : State) v, s.ctlWrite 117440528 v = if 1 ≤ v % 128 ∧ v % 128 ≤ 64 then s.setCtl 117440528 (v % 128) else s) ∧
  Ev .preciseStopArm (fun s => bit (s.ctl (67108864 + s.n 0 * 256 + 24)) 62 = false) (fun s =>
    s.setCtl (67108864 + s.n 0 * 256 + 24) (s.n 1 % 4294967296 + 2 ^ 63)) ∧
  Ev .preciseStopLift (fun s => bit (s.ctl (67108864 + s.n 0 * 256 + 24)) 62 = false) (fun s =>
    s.setCtl (67108864 + s.n 0 * 256 + 24) (s.n 1 % 4294967296)) ∧
  Ev .replayControlWrite (fun s => bit (s.n 1) 0 = true ∧ bit (s.n 1) 2 = true ∧ bit (s.ctl (67112960 + s.n 0 * 256)) 0 = false) (fun s =>
    let old := s.ctl (67112960 + s.n 0 * 256)
    s.setCtl (67112960 + s.n 0 * 256) ((old &&& 5) + (s.n 1 &&& 2) + (old &&& 8))) ∧
  Ev .capabilityEpochAdvance (fun _ => True) (fun s => s.setCtl (83886592 + s.n 0 * 8) ((s.ctl (83886592 + s.n 0 * 8) + 1) % 4096)) ∧
  Ev .pierQuiesceWrite (fun s => s.n 1 % 2 = 1) (fun s => s.setCtl (homeBlock (s.n 0) + 2048) 1) ∧
  Ev .pierQuiesceWrite (fun s => s.n 1 % 2 = 0) (fun s =>
    (s.setCtl (homeBlock (s.n 0) + 2048) 0).after 0 .pierJobEnd { ns := [s.n 0, 0] }) ∧
  Ev .rowRepair (fun s => bit (s.n 1) 63 = false ∨ (h s).repairBusy = true) id ∧
  Ev .rowRepair (fun s => bit (s.n 1) 63 = true ∧ (h s).repairBusy = false ∧
      ((h s).spare = 0 ∨ (h s).repaired.contains (bits (s.n 1) 39 0 / 2048) = true))
    (fun s => s.setHome (s.n 0) { h s with repairFail := true }) ∧
  Ev .rowRepair (fun s => bit (s.n 1) 63 = true ∧ (h s).repairBusy = false ∧ (h s).spare ≠ 0 ∧
      (h s).repaired.contains (bits (s.n 1) 39 0 / 2048) = false) (fun s =>
    (s.setHome (s.n 0) { h s with repairBusy := true, repairFail := false, repairPa := bits (s.n 1) 39 0 / 2048 }).after 1 .rowRepairDone
      { ns := [s.n 0] }) ∧
  Ev .rowRepairDone (fun s => (h s).repairBusy = true) (fun s => s.setHome (s.n 0) { h s with
    repairBusy := false, spare := (h s).spare - 1, repaired := (h s).repaired ++ [(h s).repairPa] }) ∧
  Ev .rowRepairDone (fun s => (h s).repairBusy = false) id ∧
  (∀ s, s.n 0 = 1 → ∃ t : State, exec .startGoodWrite s = .next t ∧ t.fsc = 0 ∧
    t.mem = Mem.write (Mem.write s.mem (ctlBase + 4224) 8 1) (hostBase + 64) 8
      (Mem.read (Mem.write s.mem (ctlBase + 4224) 8 1) (hostBase + 64) 8 ||| 1)) ∧
  Ev .startGoodWrite (fun s => s.n 0 ≠ 1) (fun s => s.setCtl 4224 (s.n 0)) ∧
  Ev .powerOnReset (fun _ => True) (fun s => { State.reset with moves := s.moves, free := s.free, fsc := 0, failReason := 0, failStep := 0 }) ∧
  Ev .warmReset (fun _ => True) (fun s => { State.reset with
    moves := s.moves, free := s.free, fsc := s.fsc, failReason := s.failReason, failStep := s.failStep, homes := s.homes.map kept }) ∧
  Ev .startWatchdog (fun s => bit (Mem.read s.mem (hostBase + 64) 8) 0 = true) id ∧
  Ev .startWatchdog (fun s => bit (Mem.read s.mem (hostBase + 64) 8) 0 = false) (fun s => { State.reset with
    moves := s.moves, free := s.free, fsc := s.fsc, failReason := if s.failReason = 0 then 1 else s.failReason, failStep := s.failStep
    homes := s.homes.map kept }) ∧
  Ev .bootStart (fun s => 2 ≤ s.fsc) (fun s =>
    (({ s with fsc := min 255 (s.fsc + 1) } : State).after 2147483648 .startWatchdog {}).minimalMode) ∧
  Ev .bootStart (fun s => s.fsc < 2) (fun s =>
    (({ s with fsc := min 255 (s.fsc + 1) } : State).after 2147483648 .startWatchdog {}).bootImage) ∧
  Ev .recoveryImageMessage (fun s => s.minimal = none) id ∧
  (∀ s p, s.minimal = some p → (s.ctx bootCtx).wait = .rom → Mem.read s.mem (hostBase + 128) 8 ≠ Mem.read s.mem (hostBase + 136) 8 →
    ∃ t : State, t.mem = Mem.write s.mem (hostBase + 136) 8 ((Mem.read s.mem (hostBase + 136) 8 + 1) % 4294967296) ∧
      ∀ img, t.stagedImage (Mem.read s.mem (hostBase + 136) 8) = some img → ∃ n, exec .recoveryImageMessage s =
        .next (if imagePasses img then t.enterImage img else { t.report 8 n with failReason := 8 })) ∧
  (∀ s, ∃ t : State, exec .hostRingHeadWrite s = .next t ∧ t.mem = Mem.write s.mem (bar0 (s.n 1) + 128) 8 (s.n 0 % 4294967296)) ∧
  Ev .hostRingTailWrite (fun _ => True) (fun s => { s with mem := Mem.write s.mem (bar0 (s.n 1) + 152) 8 (s.n 0 % 4294967296) }) ∧
  (∀ v, Ev .stagingRegionWrite (fun s => s.n 1 = 4 ∧ s.n 2 < 4294967296 ∧ s.arg.ns.drop 3 = [v]) (fun s =>
    s.wrMem (stagingKey (s.n 0) (s.n 2)) 1 (v % 256) 1 none)) ∧
  Ev .attestationSign (fun _ => True) (fun s =>
    let body := s.attestBody (s.n 0 % 8) (s.arg.ns.drop 2)
    ((body ++ (upFrom 0 512).map fun i => Config.signature body i % 256).zip (upFrom 0 1024)).foldl
      (fun t e => t.wrMem (s.n 1 + e.2) 1 e.1 1 none) { s with free := s.free + 1 })

/-! ### Words that complete, by conditions on the state and the operands alone -/

namespace Sys2Proof.Claims
/-- The word in issue is in order in all its fields, no hint stands before it, its context is not in timed exchange, and no byte of memory
is poisoned (R252, R361, R413, R429). -/
abbrev Bare (s : State) : Prop :=
  s.bad = none ∧ (s.ctx s.cur).chainImm = none ∧ (s.ctx s.cur).chainMod = none ∧ (s.ctx s.cur).timed = none ∧ s.poison = []
/-- No value is on its way to x[r] of the context in issue (R395). -/
abbrev Complete (s : State) (r : Nat) : Prop := s.pending s.cur 1 r = false
/-- What x[r] of the context in issue holds. -/
abbrev reg (s : State) (r : Nat) : Nat := s.rx s.cur r
end Sys2Proof.Claims

/-- R282, R76, R283, R289, R290, R355, R414, R465: START, JOINH, ERET, CSTOP, CRESUME and FENCE.X complete. START of a free helper whose
window has no store of the parent on its way makes it ready; JOINH of a helper that is done goes on; ERET in a handler returns to the
level, the address space and the address that its record keeps. CSTOP and CRESUME at S or above, and FENCE.X, of a target that they may
name set their request off and wait, and its acknowledgement completes the word: the context goes on at the next word. -/
def Obligations.SystemWordsComplete : Prop := ∀ (a b n : Nat) (keep : Bool) (s : State), Bare s →
  let c := s.cur
  let x := s.ctx c
  let h : CtxId := ⟨c.core, n⟩
  let rec_ := if x.level = .h then x.trapH else x.trapS
  let plv := bits rec_.cause.toNat 23 22
  let acknowledged (kind : Nat) : Prop := ∀ r : State, r.arg.ctx = c → r.n 0 = kind → (r.ctx c).st = .waiting → r.n 1 = (r.ctx c).waitNo →
    ∃ t : State, exec .stopAckArrival r = .next t ∧ (t.ctx c).st = .ready ∧ (t.ctx c).pc = (r.ctx c).pc + 4 ∧ t.mem = r.mem
  (Complete s a → Complete s b → c.k = 0 → n ≠ 0 → n < c.core.kind.contexts → n < s.nwin c.core → (s.ctx h).st = .free →
    s.windowIds c h = [] → ∃ t : State, exec (.start a b n keep) s = .next (t.advance c) ∧
      (t.ctx h).st = .ready ∧ (t.ctx h).pc = Word.ofN (reg s a) ∧ (t.ctx h).level = x.level ∧ (t.ctx h).asid = x.asid ∧ (t.ctx h).parent = 0) ∧
  (n ≠ c.k → n < s.nwin c.core → s.helperDone h = true → exec (.joinh n) s = .next (s.advance c)) ∧
  (x.level ≠ .u → bit rec_.stat.toNat 0 = true → plv ≤ x.level.code → plv ≠ 3 →
    ∃ t : State, exec .eret s = .next t ∧ (t.ctx c).level.code = plv ∧ (t.ctx c).pc = rec_.epc ∧
      (t.ctx c).asid = BitVec.ofNat 16 (bits rec_.stat.toNat 31 16)) ∧
  (∀ u, Complete s a → Complete s b → x.level ≠ .u → s.target c (reg s a) (reg s b) false = .ok u →
    exec (.cstop a b) s = .next (s.request c 0 u (reg s b) (s.releaseIds c false)) ∧
    exec (.cresume a b) s = .next (s.request c 1 u (reg s b) (s.releaseIds c false)) ∧ acknowledged 0 ∧ acknowledged 1) ∧
  (∀ u, Complete s a → Complete s b → s.target c (reg s a) (reg s b) true = .ok u →
    exec (.fenceX a b) s = .next (s.request c 2 u (reg s b) []) ∧ acknowledged 2)

/-- R354, R356 to R364, R181, R182, R90: FENCE.O, SNAPINV, XEND, PWAIT, BDOM, BEXP, MON, MWAIT, WAITT and EWAIT complete. FENCE.O marks the
accesses that it orders; SNAPINV passes a snapshot boundary; XEND ends timed exchange; PWAIT goes on once its barrier is released; BDOM of
domain 0 or a declared one sets it; BEXP of a member with fewer than four expectations, behind what its release order covers, posts one;
MON of a near doubleword that it may read returns it, and of another sends its read; MWAIT returns the mask of what fired; WAITT of a
cycle that has come, and EWAIT of a raised line or a count, go on. -/
def Obligations.SyncWordsComplete : Prop := ∀ (a b d n : Nat) (s : State), Bare s →
  let c := s.cur
  let x := s.ctx c
  let goes (i : Instr) (t : State) : Prop := exec i s = .next (t.advance c)
  let cl := s.cluster c.core.cluster
  let va := reg s a
  let kind : AccKind := if bits va 63 60 = 4 ∨ bits va 63 60 = 5 ∨ bits va 63 60 = 12 then .l else .f
  goes .fenceO { s with flight := s.flight.map fun f => if f.ctx = c ∧ f.fenced = true then { f with fence := true } else f } ∧
  goes .snapinv (s.snapBoundary c) ∧
  (c.core.kind = .span → goes .xend (s.setCtx c { x with timed := none })) ∧
  (c.core.kind ≠ .service → ∀ dom, x.parrive = some (dom, true) → goes .pwait (s.setCtx c { x with parrive := none })) ∧
  (c.core.kind ≠ .service → Complete s a → (∀ l, s.launchOf c.core = some l → va % 64 = 0 ∨ bit l.dmask (va % 64) = true) →
    goes (.bdom a) (s.setCore c.core { s.core c.core with bdom := va % 64 })) ∧
  (c.core.kind ≠ .service → Complete s a → Complete s b → ∀ l p, s.launchOf c.core = some l →
    let dom := (s.core c.core).bdom
    let bar := Tab.get l.barriers dom {}
    let closed := bar.due.isSome || bar.sysArrived
    (dom = 0 ∨ bit l.dmask dom = true) → bit (s.core c.core).memb.toNat dom = true →
    ((if closed then bar.nextExps else bar.exps).filter (·.core == c.core)).length < 4 →
    s.aim c va 8 0 8 .f false false = .ok p → s.releaseIds c false = [] →
    ∃ t : State, goes (.bexp a b) t ∧ t.mem = s.mem ∧
      ({ pa := p.key, home := none, va := va, last := Mem.read s.mem p.key 8 } : Reg) ∈ (t.home (homeOf p.key)).regs) ∧
  (Complete s a → Complete s b → ∀ p, s.aim c va 8 0 8 kind false false = .ok p →
    let t := s.cancel c 1 d
    (p.near c = false → ∃ (u : State) (f : Access), goes (.mon d a b n) u ∧ f ∈ u.flight ∧ f.ctx = c ∧ f.key = p.key ∧
      f.act = .mon n (if reg s b = 0 then 0 else s.cyc + reg s b)) ∧
    (p.near c = true → reg s b = 0 → t.ahead {
        id := 0, ctx := c, act := .mon n 0, kind := kind, key := p.key, va := va, n := 8, lat := p.lat
        dcls := if d = 0 then 0 else 1, dreg := d, asid := s.spaceOf c } = [] →
      ∃ u : State, goes (.mon d a b n) u ∧ u.mem = (s.wx c d (s.rdMem p.key 8)).mem)) ∧
  (s.mwaitDone c = true → ∃ t : State, goes (.mwait d) t ∧ t.mem = (s.wx c d x.watchMask).mem ∧ (t.ctx c).watchMask = 0) ∧
  (Complete s a → va ≤ s.cyc → goes (.waitt a) s) ∧
  (c.core.kind ≠ .service → x.raised = true → goes (.ewait n) s) ∧
  (c.core.kind ≠ .service → x.raised = false → Tab.get cl.ev n 0 ≠ 0 →
    goes (.ewait n) (s.setCluster c.core.cluster { cl with ev := Tab.set cl.ev n (Tab.get cl.ev n 0 - 1) }))

/-! ### Decoding, the step and the machine as a whole -/

/-- R243 to R246, R250, R251: one word of every major opcode, as the spec writes its bits, decodes to its instruction; the hint kinds
decode by K; a reserved major opcode and a nonzero unused field are refused with their FIELD (R413). -/
def Obligations.DecodeWords : Prop :=
  (∀ e ∈ ([
    (0x00000001, .halt), (0x04A63800, .add 5 6 7), (0x08A6FFFC, .addi 5 6 65532), (0x0C650001, .andi 3 5 1),
    (0x10650001, .ori 3 5 1), (0x14650001, .xori 3 5 1), (0x18840203, .shri 4 4 8 1), (0x1CE02345, .movi 7 9029),
    (0x20A08000, .movk 5 0 32768), (0x24A6FFFF, .slti 5 6 65535), (0x28A35404, .ld 5 3 .f 2 true 4),
    (0x2CA35801, .st 5 3 .f 3 1), (0x30A332E0, .aadd 5 3 6 1 3 true), (0x344A0FFD, .bne 5 0 4093), (0x38000010, .j 16),
    (0x3C000010, .jal 16), (0x40270001, .jalr 1 7), (0x4520FFFE, .loop 9 65534), (0x48A00001, .csrr 5 1),
    (0x4C050100, .csrw 0 5 256), (0x50A50100, .csrs 5 5 256), (0x54A50100, .csrc 5 5 256), (0x58000000, .fenceO),
    (0x5C042840, .tpostC 4 5), (0x60A90000, .send 5 9), (0x64042801, .msend 4 5), (0x6883C202, .vld 4 3 24 .f 2),
    (0x6C839000, .vst 4 3 18 .l 0), (0x70221800, .vadd 1 2 3), (0x74453001, .vcmplt 2 5 6), (0x79090E00, .vcvt 8 9 1 24),
    (0x7C811980, .vexp2 4 1 3 6), (0x80410001, .vrmax 2 1), (0x84490000, .sbind 2 9), (0x8844D001, .ild 2 4 26 .l 1),
    (0x8C44D200, .ist 2 4 26 .f 0), (0x90611000, .iadd 3 1 2), (0x94611000, .cadd 3 1 2), (0x98611000, .ihull 3 1 2),
    (0x9C012800, .mma 0 1 5 0), (0xA0A40000, .vwreg 5 4), (0xA4890000, .hld 4 9), (0xA8050000, .fmtset 0 5),
    (0xAD442C80, .vlds 10 4 5 18)] : List (Nat × Instr)), decodeWord e.1 = .ok e.2) ∧
  (∀ e ∈ ([(0xFC000001, .hintImm), (0xFC400200, .hintMod), (0xFC80000F, .hintDly), (0xFCC00000, .hintPrf)] : List (Nat × Instr)),
    decodeWord e.1 = .ok e.2) ∧
  (∀ op, 44 ≤ op → op < 63 → ∀ r, r < 67108864 → decodeWord (op * 67108864 + r) = .error 1) ∧
  decodeWord 0x04A63840 = .error 5 ∧ decodeWord 0x04A6381D = .error 6 ∧ decodeWord 0x04A60857 = .error 4 ∧
  decodeWord 0x36000000 = .error 6 ∧ decodeWord 0x1CA10000 = .error 3 ∧ decodeWord 0x00200001 = .error 2

/-- R244 to R257: no bit of an encoding is dropped: the word of every well-formed instruction decodes to it. -/
def Obligations.DecodeEncode : Prop := ∀ i : Instr, i.wf = true → encode i < 4294967296 ∧ decodeWord (encode i) = .ok i

/-- R245, R250: each word has one meaning: a word that is accepted is the word of its instruction, which is well-formed (a hint keeps its
payload in the word). -/
def Obligations.EncodeDecode : Prop := ∀ (w : Nat) (i : Instr), w < 4294967296 → decodeWord w = .ok i →
  i.wf = true ∧ (i ∉ ([.hintImm, .hintMod, .hintDly, .hintPrf, .trap, .scall, .brk] : List Instr) → encode i = w)

/-- R77, R87, R158, R219, R243, R411, R422: a step runs the decoded instruction. A chosen move, a step that is due, and a context's turn
come in this order, and with none time goes on. The word at the pc is read where its translation leads; an accepted word is
executed in the state of its issue, whose word and context are in issue; a refused one is ILLEGAL with its FIELD, where it names an
instruction at the place that R418 gives ILLEGAL among the checks of that instruction, and where a HINT.IMM finds no target in it
HINT_ORPHAN 4 (R252, R416), which a word of format B always is (R253). A chosen issue is one that its core may select (R219). A waiting context whose wait has ended joins those that may issue (R219). -/
def Obligations.StepRunsTheWord : Prop := ∀ (s : State) (c : CtxId) (w : BitVec 32) (i : Instr) (a : Arg),
  (∀ ms, s.moves = .issue c :: ms → step s = if s.mayIssue c then issueWord c { s with moves := ms } else .next { s with moves := ms }) ∧
  (∀ k line ms, s.moves = .fill k line :: ms → ∃ t : State, step s = .next t ∧ t.mem = s.mem ∧ t.ctxs = s.ctxs ∧ t.moves = ms) ∧
  (∀ h ms, s.moves = .correct h :: ms → step s = .next (({ s with moves := ms } : State).countCorrected h)) ∧
  (∀ ms, s.moves = .event i a :: ms → step s = exec i { s with moves := ms, arg := a }) ∧
  (∀ t rest, s.moves = [] → s.agenda = (t, i, a) :: rest → t ≤ s.cyc → step s = exec i { s with agenda := rest, arg := a }) ∧
  ((s.moves = [] ∧ ∀ t j b rest, s.agenda = (t, j, b) :: rest → s.cyc < t) →
    (∀ d, s.turn (trapsFirst s) = some (.due d) → step s = .next (s.noteDue d)) ∧
    (s.turn (trapsFirst s) = some (.issue c) → step s = issueWord c s) ∧
    (s.turn (trapsFirst s) = some (.step i a) → step s = exec i { s with arg := a }) ∧
    (s.turn (trapsFirst s) = none → ∃ n, step s = .next { s.unserved with cyc := n } ∧ s.cyc < n)) ∧
  (s.fetch c = .ok w → decodeWord w.toNat = .ok i → issueWord c s = exec i (s.issue c w) ∧ (s.issue c w).cur = c ∧
    (s.issue c w).ir = w ∧ ((s.issue c w).ctx c).pc = (s.ctx c).pc ∧ (s.issue c w).mem = s.mem) ∧
  (∀ f, s.fetch c = .ok w → decodeWord w.toNat = .error f →
    (nearest 6 w.toNat = none → ((s.ctx c).chainImm = none ∨ w.toNat / 67108864 = 13) → (s.ctx c).chainMod = none → issueWord c s = .next ((s.issue c w).takeTrap c
      { cause := 1, field := f, val := w.toNat } ((s.issue c w).ctx c).resume w.toNat)) ∧
    (∀ p, nearest 6 w.toNat = none → w.toNat / 67108864 ≠ 63 → w.toNat / 67108864 ≠ 13 → (s.ctx c).chainImm = some p → issueWord c s = .next ((s.issue c w).takeTrap c
      { cause := 4, detail := 4, val := 4227858432 + p } ((s.issue c w).ctx c).resume w.toNat)) ∧
    (nearest 6 w.toNat = some i → issueWord c s = exec i { s.issue c w with bad := some f })) ∧
  (∀ g f, s.bad = some f → (s.ctx s.cur).chainImm = none → (s.ctx s.cur).chainMod = none → prep g s = trap 1 0 s.ir.toNat f) ∧
  (let pc := (s.ctx c).pc.toNat
   (∀ pa, pc % 4 = 0 → pc < 281474976710656 → s.translate c pc false true = .ok pa → s.poisoned pa 4 = none →
     s.fetch c = .ok (BitVec.ofNat 32 (Mem.read s.mem pa 4))) ∧
   (pc % 4 ≠ 0 → issueWord c s = .next ({ s with cur := c, ir := 0 }.takeTrap c { cause := 5, val := pc } (s.ctx c).resume 0)))

/-- Every step of the machine ends in a next state: what the spec lets a program or the hardware do never stops the model. -/
def Obligations.NeverStops : Prop := (∀ s, GoesOn s) ∧ ∀ (i : Instr) (s : State), ∃ t, exec i s = .next t

/-- R232, R9, R87, R143, R431, R458, R78: right after power-on reset the failed-start count is zero, cycle 0 begins, service core 0's
context 0 is live at H and no other context is, the boot ROM's start is the one step that is due, no launch runs, and the control words
with a reset value hold it. Memory is in its canonical form. -/
def Obligations.ResetState : Prop :=
  let s := State.reset
  s.fsc = 0 ∧ s.cyc = 0 ∧ s.launches = [] ∧ s.flight = [] ∧ s.moves = [] ∧ s.minimal = none ∧
  (s.ctx bootCtx).st = .ready ∧ (s.ctx bootCtx).level = .h ∧ (∀ c, c ≠ bootCtx → (s.ctx c).st = .free) ∧
  s.agenda = [(0, .bootStart, {})] ∧ (∃ t, step s = .next t ∧ t.fsc = 1) ∧
  s.ctl 117440528 = 16 ∧ s.ctl 117440512 = 16777216 ∧ s.ctl 50343936 = 16777216 ∧
  Mem.wf s.mem = true

/-- R18, R20: every pylon has at least 496 enabled clusters; the row words of the capability map show which, and its summary word
counts them. -/
def Obligations.CapabilityMap : Prop := ∀ p : Nat,
  (∀ cy cx, cx < 16 → bit (capRow p cy) cx = enabled p cy cx) ∧
  496 ≤ bits (capSummary p) 9 0 ∧ bits (capSummary p) 9 0 ≤ 512 ∧
  bits (capSummary p) 9 0 = ((List.range 32).map fun cy => ((List.range 16).filter (bit (capRow p cy) ·)).length).sum ∧
  (∀ s : State, p < 8 → ∀ cy, cy < 32 → s.ctlRead (65536 + 256 * p + 8 * cy) = capRow p cy ∧ s.ctlRead (67584 + 8 * p) = capSummary p)

/-- Every step keeps the canonical form of memory: addresses rise, and no entry equals what an unlisted address reads as. -/
def Obligations.MemoryFormKept : Prop := ∀ s t : State, Mem.wf s.mem = true → step s = .next t → Mem.wf t.mem = true

/-- R79 to R81, R268, R296, R327: the registers of a context lie in its window, and each reads as last written. A write of x0 or p0 is
discarded: x0 reads zero, p0 all ones. Writing one x register leaves every other register of every class, and every byte outside its
eight, as it was. -/
def Obligations.RegisterFile : Prop := ∀ (s : State) (c : CtxId) (r v tag : Nat), Mem.wf s.mem = true → r < 32 →
  let w := s.wx c r v
  (r ≠ 0 → w.rx c r = v % 18446744073709551616) ∧ w.rx c 0 = 0 ∧ s.wx c 0 v = s ∧
  (∀ k, k < 32 → k ≠ r → w.rx c k = s.rx c k) ∧
  (∀ k, k < 32 → w.rv c k = s.rv c k ∧ w.vtag c k = s.vtag c k) ∧
  (∀ k, k < 16 → w.ri c k = s.ri c k ∧ w.itag c k = s.itag c k) ∧
  (∀ k, k < 8 → w.rp c k = s.rp c k ∧ w.rq c k = s.rq c k ∧ w.rh c k = s.rh c k ∧ ∀ j, j < 4 → w.rs c k j = s.rs c k j) ∧
  (∀ k, (k < s.win c + 8 * r ∨ s.win c + 8 * r + 8 ≤ k) → Mem.get w.mem k = Mem.get s.mem k) ∧
  (s.wv c r v tag).rv c r = v % 256 ^ 128 ∧ (s.wv c r v tag).vtag c r = tag % 65536 ∧
  (∀ k, k < 32 → k ≠ r → (s.wv c r v tag).rv c k = s.rv c k ∧ (s.wv c r v tag).vtag c k = s.vtag c k) ∧
  (∀ k, k < 32 → (s.wv c r v tag).rx c k = s.rx c k) ∧
  (r < 16 → (s.wi c r v tag).ri c r = v % 256 ^ 128 ∧ (s.wi c r v tag).itag c r = tag % 65536 ∧
    ∀ k, k < 32 → (s.wi c r v tag).rx c k = s.rx c k ∧ (s.wi c r v tag).rv c k = s.rv c k) ∧
  (r < 8 → (r ≠ 0 → (s.wp c r v).rp c r = v % 256 ^ 16) ∧ (s.wp c r v).rp c 0 = ones128 ∧ s.wp c 0 v = s ∧
    (s.wq c r v).rq c r = v % 4294967296 ∧ (s.wh c r v).rh c r = v % 256 ^ 64 ∧
    ∀ j, j < 4 → (s.ws c r j v).rs c r j = v % 18446744073709551616)

/-- R268, R395, R411, R418, R429: a word of registers without hints, on a core that has it and at a level that may run it, has in hand what
its source registers hold, when they are complete and no memory is poisoned; a register whose value is on its way makes any such word wait, whatever it does, and so
each word of the ALU group of two sources. -/
def Obligations.OperandsOfAPlainWord : Prop := ∀ (s : State) (ra rb rd' : Nat),
  let c := s.cur
  let g : Sig := { d := wr .x rd', a := rd .x ra, b := rd .x rb, dd := true, da := true, db := true }
  s.bad = none → (s.ctx c).chainImm = none → (s.ctx c).chainMod = none →
  (s.poison = [] → s.pending c 1 ra = false → s.pending c 1 rb = false →
    prep g s = .ok ({ a := s.rx c ra, b := s.rx c rb, pred := ones128 }, s)) ∧
  (s.pending c 1 ra = true → prep g s = .error (.stall 1 ra)) ∧
  (s.pending c 1 ra = true → (s.ctx c).timed = none →
    (∀ body, word g s body = .next (s.sleep c (.operands 1 ra))) ∧
    ∀ i ∈ ([.add rd' ra rb, .sub rd' ra rb, .and rd' ra rb, .or rd' ra rb, .xor rd' ra rb, .shl rd' ra rb, .shr rd' ra rb, .sra rd' ra rb,
        .mul rd' ra rb, .mulh rd' ra rb, .mulhu rd' ra rb, .div rd' ra rb, .divu rd' ra rb, .rem rd' ra rb, .remu rd' ra rb,
        .min rd' ra rb, .max rd' ra rb, .minu rd' ra rb, .maxu rd' ra rb, .slt rd' ra rb, .sltu rd' ra rb, .seq rd' ra rb,
        .addw rd' ra rb, .subw rd' ra rb, .mkpa rd' ra rb, .mkpaRel rd' ra rb] : List Instr),
      exec i s = .next (s.sleep c (.operands 1 ra))) ∧
  ((s.ctx c).level = .u → prep { g with level := .s } s = .error (.trap { cause := 2, val := s.ir.toNat })) ∧
  (c.core.kind = .service → prep { g with svc := false } s = .error (.trap { cause := 3, val := s.ir.toNat }))

/-- R268, R411: what a scalar result leaves unchanged. A word that completes with one, without a direction and with no value on its way
to its register, changes no byte outside the register's eight; no link, FIFO, core, cluster, home, launch or access; no other context; and
of its own context nothing but the pc and what belongs to the chain. -/
def Obligations.FrameOfAScalarResult : Prop := ∀ (t t' : State) (o : Opnds) (r v : Nat), Mem.wf t.mem = true → o.m.dst = 0 →
  t.pending t.cur 1 r = false → t.putX t.cur o r v = .ok t' →
  let u := t'.advance t.cur
  (∀ k, (r = 0 ∨ k < t.win t.cur + 8 * r ∨ t.win t.cur + 8 * r + 8 ≤ k) → Mem.get u.mem k = Mem.get t.mem k) ∧
  u.cores = t.cores ∧ u.clusters = t.clusters ∧ u.homes = t.homes ∧ u.pylons = t.pylons ∧ u.launches = t.launches ∧ u.flight = t.flight ∧
  u.agenda = t.agenda ∧ u.poison = t.poison ∧ u.cyc = t.cyc ∧
  (∀ c, c ≠ t.cur → u.ctx c = t.ctx c) ∧
  u.ctx t.cur = { t.ctx t.cur with pc := (t.ctx t.cur).pc + 4, st := (u.ctx t.cur).st, wait := (u.ctx t.cur).wait,
                                   chainImm := none, chainMod := none, chainPc := none, resumeAt := 0, raised := false, walked := none,
                                   syncTo := none }

/-! ### Statements of several parts -/

/-- R246, R253, R272 to R274: the immediate forms and the immediate they take. -/
def Obligations.ImmediateWords : Prop := Sys2Proof.Claims.ImmediateResults ∧ Sys2Proof.Claims.WidenedImmediate

/-- R258, R280, R281, R413, R415: what the CSR words do, and the numbers that they refuse. -/
def Obligations.CsrAccess : Prop := Sys2Proof.Claims.CsrWords ∧ Sys2Proof.Claims.CsrRefusals

/-- R76, R282, R283: START of a helper, and the misuse of START and JOINH. -/
def Obligations.HelperStart : Prop := Sys2Proof.Claims.StartHelper ∧ Sys2Proof.Claims.HelperMisuse

/-- R410, R411: taking a trap, and the trap at H inside a handler. -/
def Obligations.TrapTaken : Prop := Sys2Proof.Claims.TrapEntry ∧ Sys2Proof.Claims.FatalTrap

/-- R442, R454, R418: the causes of a barrier word and of a task's descriptor. -/
def Obligations.ArrivalCauses : Prop := Sys2Proof.Claims.BarrierCauses ∧ Sys2Proof.Claims.AnchorCauses

/-- R365 to R370, R110, R116, R443: the words of tasks and pier calls. -/
def Obligations.TaskWords : Prop := Sys2Proof.Claims.PostingWords ∧ Sys2Proof.Claims.StealWords

/-- R372 to R374, R385, R387, R452: the words of packets and of the engines' queues. -/
def Obligations.PacketAndEngineWords : Prop := Sys2Proof.Claims.MessageWords ∧ Sys2Proof.Claims.EngineWords

/-- R275 to R279: branches, jumps and loops. -/
def Obligations.ControlTransfers : Prop := Sys2Proof.Claims.BranchTargets ∧ Sys2Proof.Claims.JumpTargets ∧ Sys2Proof.Claims.LoopCountsDown

/-- The contractors and the set words of intervals. -/
def Obligations.NarrowingWords : Prop := Sys2Proof.Claims.ContractorWords ∧ Sys2Proof.Claims.IntervalSets

/-- R286, R288, R291, R292, R209: the supervisor's words and the command words. -/
def Obligations.SupervisorAndCommandWords : Prop := Sys2Proof.Claims.SupervisorWords ∧ Sys2Proof.Claims.CommandWords

/-- The matrix words: what they queue, and when a command is accepted. -/
def Obligations.MatrixWords : Prop := Sys2Proof.Claims.MatrixCommands ∧ Sys2Proof.Claims.CommandAcceptance

/-- The events of accesses and of the core's units. -/
def Obligations.AccessAndUnitEvents : Prop := Sys2Proof.Claims.AccessEvents ∧ Sys2Proof.Claims.UnitEvents

/-- The events of barriers, and what a release does. -/
def Obligations.BarrierAndReleaseEvents : Prop := Sys2Proof.Claims.BarrierEvents ∧ Sys2Proof.Claims.ReleaseOfABarrier

/-- The events at homes and piers. -/
def Obligations.HomeAndPierEvents : Prop := Sys2Proof.Claims.HomeEvents ∧ Sys2Proof.Claims.PierEvents

/-- The events of the copy engines, matrix units and view engines. -/
def Obligations.EngineAndViewEvents : Prop := Sys2Proof.Claims.EngineEvents ∧ Sys2Proof.Claims.ViewEvents

/-- R282 to R285: NOP, YIELD, JOINH and HALT. -/
def Obligations.PlainSystemWords : Prop := Sys2Proof.Claims.NopYieldJoin ∧ Sys2Proof.Claims.HaltFrees

/-- The moves of vector registers, and the words of predicates and lanes. -/
def Obligations.VectorMovesAndPredicates : Prop := Sys2Proof.Claims.VectorMoves ∧ Sys2Proof.Claims.PredicatesAndLanes

/-- R269 to R271: the words of the ALU group, with division by nonzero and by zero. -/
def Obligations.ScalarArithmetic : Prop := Sys2Proof.Claims.AluResults ∧ Sys2Proof.Claims.DivisionResults
end

