-- ==== Sys2Proof/Laws/Mem.lean ====
section
/-! SUPPORT. Laws of memory: every operation keeps the canonical form, a read after a write gives what was written, and a
write leaves every other byte as it was. -/

namespace Sys2Proof.Machine

/-- The form without its last clause: what holds of a tail after an address. -/
def Mem.above (a : Nat) : List Host.Cell → Prop
  | [] => True
  | (b, _) :: _ => a < b

theorem Mem.wf_cons (a : Nat) (b : Byte) (m : List Host.Cell) :
    Mem.wf ((a, b) :: m) = true ↔ b ≠ unlisted a ∧ Mem.above a m ∧ Mem.wf m = true := by
  cases m with
  | nil => simp [Mem.wf, Mem.above]
  | cons e m =>
    obtain ⟨a', b'⟩ := e
    simp [Mem.wf, Mem.above, and_assoc]

theorem Mem.above_trans {a b : Nat} (h : a < b) : ∀ {m : List Host.Cell}, Mem.above b m → Mem.above a m
  | [], _ => trivial
  | (_, _) :: _, hb => Nat.lt_trans h hb

theorem Mem.above_set {a k : Nat} (v : Byte) (hk : a < k) :
    ∀ {m : List Host.Cell}, Mem.above a m → Mem.wf m = true → Mem.above a (Mem.set m k v)
  | [], _, _ => by unfold Mem.set; split <;> simp [Mem.above, hk]
  | (b, w) :: m, ha, hw => by
    have hm := (Mem.wf_cons b w m).1 hw
    unfold Mem.set
    repeat' split
    · exact Mem.above_trans ha hm.2.1
    · exact hk
    · exact ha
    · exact hk
    · exact ha

/-- A write of one byte keeps the canonical form. -/
theorem Mem.wf_set (k : Nat) (v : Byte) : ∀ {m : List Host.Cell}, Mem.wf m = true → Mem.wf (Mem.set m k v) = true
  | [], _ => by unfold Mem.set; split <;> simp [Mem.wf, *]
  | (a, b) :: m, h => by
    have hm := (Mem.wf_cons a b m).1 h
    unfold Mem.set
    split
    · next hk =>
      split
      · exact hm.2.2
      · next hv => subst hk; exact (Mem.wf_cons _ _ _).2 ⟨hv, hm.2.1, hm.2.2⟩
    · split
      · next hlt =>
        split
        · exact h
        · next hv => exact (Mem.wf_cons _ _ _).2 ⟨hv, hlt, h⟩
      · next hne hlt =>
        exact (Mem.wf_cons _ _ _).2 ⟨hm.1, Mem.above_set v (by omega) hm.2.1 hm.2.2, Mem.wf_set k v hm.2.2⟩

theorem Mem.get_above {k : Nat} : ∀ {m : List Host.Cell} {a : Nat}, Mem.above a m → k ≤ a → Mem.get m k = unlisted k
  | [], _, _, _ => rfl
  | (b, w) :: m, a, h, hk => by
    have hb : a < b := h
    unfold Mem.get
    rw [if_neg (by omega), if_pos (by omega)]

/-- The byte just written is read back; every other byte reads as before. -/
theorem Mem.get_set (k j : Nat) (v : Byte) :
    ∀ {m : List Host.Cell}, Mem.wf m = true → Mem.get (Mem.set m k v) j = if j = k then v else Mem.get m j
  | [], _ => by
    unfold Mem.set
    by_cases hj : j = k
    · subst hj; split <;> simp [Mem.get, *]
    · split <;> simp [Mem.get, hj]
  | (a, b) :: m, h => by
    have hm := (Mem.wf_cons a b m).1 h
    have ih := Mem.get_set k j v hm.2.2
    unfold Mem.set
    by_cases hka : k = a
    · subst hka
      rw [if_pos rfl]
      by_cases hv : v = unlisted k
      · rw [if_pos hv]
        by_cases hj : j = k
        · subst hj; rw [if_pos rfl, Mem.get_above hm.2.1 (Nat.le_refl _), hv]
        · rw [if_neg hj]
          by_cases hlt : j < k
          · rw [Mem.get_above (m := m) hm.2.1 (by omega)]; simp [Mem.get, hj, hlt]
          · simp [Mem.get, hj, hlt]
      · rw [if_neg hv]
        by_cases hj : j = k <;> simp [Mem.get, hj]
    · rw [if_neg hka]
      by_cases hlt : k < a
      · rw [if_pos hlt]
        by_cases hv : v = unlisted k
        · rw [if_pos hv]
          by_cases hj : j = k
          · subst hj; rw [if_pos rfl]; simp [Mem.get, hka, hlt, hv]
          · rw [if_neg hj]
        · rw [if_neg hv]
          by_cases hj : j = k
          · subst hj; simp [Mem.get]
          · rw [if_neg hj]
            by_cases hjl : j < k
            · have h1 : j ≠ a := by omega
              have h2 : j < a := by omega
              simp [Mem.get, hj, hjl, h1, h2]
            · simp [Mem.get, hj, hjl]
      · rw [if_neg hlt]
        by_cases hj : j = k
        · subst hj
          simp only [Mem.get, if_neg hka, if_neg hlt, ih, if_true]
        · simp only [Mem.get, ih, if_neg hj]

/-- A write of n bytes keeps the canonical form. -/
theorem Mem.wf_write : ∀ (n : Nat) (k v : Nat) {m : List Host.Cell}, Mem.wf m = true → Mem.wf (Mem.write m k n v) = true
  | 0, _, _, _, h => h
  | n + 1, k, _, _, h => Mem.wf_write n (k + 1) _ (Mem.wf_set k _ h)

theorem Mem.wf_words : ∀ (ws : List Nat) (k : Nat) {m : List Host.Cell}, Mem.wf m = true → Mem.wf (Mem.words m k ws) = true
  | [], _, _, h => h
  | _ :: ws, k, _, h => Mem.wf_words ws (k + 8) (Mem.wf_write 8 k _ h)

theorem Mem.wf_writeMask : ∀ (n k v mask : Nat) {m : List Host.Cell}, Mem.wf m = true → Mem.wf (Mem.writeMask m k n v mask) = true
  | 0, _, _, _, _, h => h
  | n + 1, k, v, mask, m, h => by
    unfold Mem.writeMask
    exact Mem.wf_writeMask n (k + 1) _ _ (by split; exact Mem.wf_set k _ h; exact h)

/-- A write leaves every byte outside it. -/
theorem Mem.get_write_other : ∀ (n k v j : Nat) {m : List Host.Cell}, Mem.wf m = true → (j < k ∨ k + n ≤ j) →
    Mem.get (Mem.write m k n v) j = Mem.get m j
  | 0, _, _, _, _, _, _ => rfl
  | n + 1, k, v, j, m, h, hj => by
    unfold Mem.write
    rw [Mem.get_write_other n (k + 1) _ j (Mem.wf_set k _ h) (by omega), Mem.get_set k j _ h, if_neg (by omega)]

/-- Byte i of a write is byte i of the number. -/
theorem Mem.get_write : ∀ (n k v i : Nat) {m : List Host.Cell}, Mem.wf m = true → i < n →
    Mem.get (Mem.write m k n v) (k + i) = BitVec.ofNat 8 (v / 256 ^ i)
  | 0, _, _, _, _, _, hi => absurd hi (Nat.not_lt_zero _)
  | n + 1, k, v, i, m, h, hi => by
    unfold Mem.write
    cases i with
    | zero =>
      rw [Mem.get_write_other n (k + 1) _ _ (Mem.wf_set k _ h) (by omega), Mem.get_set k _ _ h]
      simp
    | succ i =>
      have := Mem.get_write n (k + 1) (v / 256) i (Mem.wf_set k (BitVec.ofNat 8 v) h) (by omega)
      rw [show k + (i + 1) = k + 1 + i by omega, this, Nat.div_div_eq_div_mul, Nat.pow_succ, Nat.mul_comm]

/-- Reads agree where the bytes agree. -/
theorem Mem.read_congr : ∀ (n k : Nat) {m m' : List Host.Cell}, (∀ i, i < n → Mem.get m (k + i) = Mem.get m' (k + i)) →
    Mem.read m k n = Mem.read m' k n
  | 0, _, _, _, _ => rfl
  | n + 1, k, m, m', h => by
    unfold Mem.read
    have h0 := h 0 (by omega)
    rw [Nat.add_zero] at h0
    have h1 : ∀ i, i < n → Mem.get m (k + 1 + i) = Mem.get m' (k + 1 + i) := fun i hi => by
      have := h (i + 1) (by omega)
      rwa [show k + (i + 1) = k + 1 + i by omega] at this
    rw [h0, Mem.read_congr n (k + 1) h1]

/-- A read of what lies outside a write is as before. -/
theorem Mem.read_write_other {n k v l j : Nat} {m : List Host.Cell} (h : Mem.wf m = true) (hj : j + l ≤ k ∨ k + n ≤ j) :
    Mem.read (Mem.write m k n v) j l = Mem.read m j l :=
  Mem.read_congr l j fun i hi => Mem.get_write_other n k v (j + i) h (by omega)

/-- A read of what was written gives it back, modulo its width. -/
theorem Mem.read_write : ∀ (n k v : Nat) {m : List Host.Cell}, Mem.wf m = true → Mem.read (Mem.write m k n v) k n = v % 256 ^ n
  | 0, _, v, _, _ => by simp [Mem.read, Nat.mod_one]
  | n + 1, k, v, m, h => by
    have e : 256 ^ (n + 1) = 256 * 256 ^ n := by rw [Nat.pow_succ, Nat.mul_comm]
    have b : (2 : Nat) ^ 8 = 256 := by decide
    unfold Mem.read Mem.write
    rw [Mem.read_write n (k + 1) (v / 256) (Mem.wf_set k _ h),
      Mem.get_write_other n (k + 1) _ k (Mem.wf_set k _ h) (by omega), Mem.get_set k k _ h, if_pos rfl,
      BitVec.toNat_ofNat, b, e, Nat.mod_mul]

/-- A read of n bytes is below 256^n. -/
theorem Mem.read_lt : ∀ (n k : Nat) (m : List Host.Cell), Mem.read m k n < 256 ^ n
  | 0, _, _ => by simp [Mem.read]
  | n + 1, k, m => by
    unfold Mem.read
    have h := Mem.read_lt n (k + 1) m
    have hb := (Mem.get m k).isLt
    rw [Nat.pow_succ]
    omega

/-! ### Tables -/

@[simp] theorem Tab.get_set_self {κ α : Type} [DecidableEq κ] (k : κ) (v d : α) : ∀ t : Tab κ α, Tab.get (Tab.set t k v) k d = v
  | [] => by simp [Tab.set, Tab.get]
  | (k', v') :: t => by
    unfold Tab.set
    split
    · simp [Tab.get]
    · next h => simp [Tab.get, h, Tab.get_set_self k v d t]

theorem Tab.get_set_other {κ α : Type} [DecidableEq κ] {k j : κ} (h : j ≠ k) (v d : α) :
    ∀ t : Tab κ α, Tab.get (Tab.set t k v) j d = Tab.get t j d
  | [] => by simp [Tab.set, Tab.get, h]
  | (k', v') :: t => by
    unfold Tab.set
    split
    · next hk => subst hk; simp [Tab.get, h]
    · simp only [Tab.get, Tab.get_set_other h v d t]

end Sys2Proof.Machine
end

