-- ==== Sys2Proof/Laws/State.lean ====
section
/-! SUPPORT. What the plain updates of the state change and leave: one lemma for each field and update. -/

namespace Sys2Proof.Machine

section
variable (s : State)

/-! ### setCtx -/

@[simp] theorem State.setCtx_cyc (c : CtxId) (x : Ctx) : (s.setCtx c x).cyc = s.cyc := rfl
@[simp] theorem State.setCtx_mem (c : CtxId) (x : Ctx) : (s.setCtx c x).mem = s.mem := rfl
@[simp] theorem State.setCtx_ctxs (c : CtxId) (x : Ctx) : (s.setCtx c x).ctxs = Tab.set s.ctxs c x := rfl
@[simp] theorem State.setCtx_cores (c : CtxId) (x : Ctx) : (s.setCtx c x).cores = s.cores := rfl
@[simp] theorem State.setCtx_clusters (c : CtxId) (x : Ctx) : (s.setCtx c x).clusters = s.clusters := rfl
@[simp] theorem State.setCtx_homes (c : CtxId) (x : Ctx) : (s.setCtx c x).homes = s.homes := rfl
@[simp] theorem State.setCtx_pylons (c : CtxId) (x : Ctx) : (s.setCtx c x).pylons = s.pylons := rfl
@[simp] theorem State.setCtx_launches (c : CtxId) (x : Ctx) : (s.setCtx c x).launches = s.launches := rfl
@[simp] theorem State.setCtx_roots (c : CtxId) (x : Ctx) : (s.setCtx c x).roots = s.roots := rfl
@[simp] theorem State.setCtx_nextLid (c : CtxId) (x : Ctx) : (s.setCtx c x).nextLid = s.nextLid := rfl
@[simp] theorem State.setCtx_flight (c : CtxId) (x : Ctx) : (s.setCtx c x).flight = s.flight := rfl
@[simp] theorem State.setCtx_nextId (c : CtxId) (x : Ctx) : (s.setCtx c x).nextId = s.nextId := rfl
@[simp] theorem State.setCtx_emptyRows (c : CtxId) (x : Ctx) : (s.setCtx c x).emptyRows = s.emptyRows := rfl
@[simp] theorem State.setCtx_poison (c : CtxId) (x : Ctx) : (s.setCtx c x).poison = s.poison := rfl
@[simp] theorem State.setCtx_marks (c : CtxId) (x : Ctx) : (s.setCtx c x).marks = s.marks := rfl
@[simp] theorem State.setCtx_fsc (c : CtxId) (x : Ctx) : (s.setCtx c x).fsc = s.fsc := rfl
@[simp] theorem State.setCtx_failReason (c : CtxId) (x : Ctx) : (s.setCtx c x).failReason = s.failReason := rfl
@[simp] theorem State.setCtx_failStep (c : CtxId) (x : Ctx) : (s.setCtx c x).failStep = s.failStep := rfl
@[simp] theorem State.setCtx_away (c : CtxId) (x : Ctx) : (s.setCtx c x).away = s.away := rfl
@[simp] theorem State.setCtx_msix (c : CtxId) (x : Ctx) : (s.setCtx c x).msix = s.msix := rfl
@[simp] theorem State.setCtx_capKeys (c : CtxId) (x : Ctx) : (s.setCtx c x).capKeys = s.capKeys := rfl
@[simp] theorem State.setCtx_retries (c : CtxId) (x : Ctx) : (s.setCtx c x).retries = s.retries := rfl
@[simp] theorem State.setCtx_sysArr (c : CtxId) (x : Ctx) : (s.setCtx c x).sysArr = s.sysArr := rfl
@[simp] theorem State.setCtx_minimal (c : CtxId) (x : Ctx) : (s.setCtx c x).minimal = s.minimal := rfl
@[simp] theorem State.setCtx_bootImg (c : CtxId) (x : Ctx) : (s.setCtx c x).bootImg = s.bootImg := rfl
@[simp] theorem State.setCtx_acks (c : CtxId) (x : Ctx) : (s.setCtx c x).acks = s.acks := rfl
@[simp] theorem State.setCtx_agenda (c : CtxId) (x : Ctx) : (s.setCtx c x).agenda = s.agenda := rfl
@[simp] theorem State.setCtx_heldWrites (c : CtxId) (x : Ctx) : (s.setCtx c x).heldWrites = s.heldWrites := rfl
@[simp] theorem State.setCtx_moves (c : CtxId) (x : Ctx) : (s.setCtx c x).moves = s.moves := rfl
@[simp] theorem State.setCtx_free (c : CtxId) (x : Ctx) : (s.setCtx c x).free = s.free := rfl
@[simp] theorem State.setCtx_cur (c : CtxId) (x : Ctx) : (s.setCtx c x).cur = s.cur := rfl
@[simp] theorem State.setCtx_ir (c : CtxId) (x : Ctx) : (s.setCtx c x).ir = s.ir := rfl
@[simp] theorem State.setCtx_bad (c : CtxId) (x : Ctx) : (s.setCtx c x).bad = s.bad := rfl
@[simp] theorem State.setCtx_arg (c : CtxId) (x : Ctx) : (s.setCtx c x).arg = s.arg := rfl

/-! ### setCore -/

@[simp] theorem State.setCore_cyc (u : CoreId) (x : Core) : (s.setCore u x).cyc = s.cyc := rfl
@[simp] theorem State.setCore_mem (u : CoreId) (x : Core) : (s.setCore u x).mem = s.mem := rfl
@[simp] theorem State.setCore_ctxs (u : CoreId) (x : Core) : (s.setCore u x).ctxs = s.ctxs := rfl
@[simp] theorem State.setCore_cores (u : CoreId) (x : Core) : (s.setCore u x).cores = Tab.set s.cores u x := rfl
@[simp] theorem State.setCore_clusters (u : CoreId) (x : Core) : (s.setCore u x).clusters = s.clusters := rfl
@[simp] theorem State.setCore_homes (u : CoreId) (x : Core) : (s.setCore u x).homes = s.homes := rfl
@[simp] theorem State.setCore_pylons (u : CoreId) (x : Core) : (s.setCore u x).pylons = s.pylons := rfl
@[simp] theorem State.setCore_launches (u : CoreId) (x : Core) : (s.setCore u x).launches = s.launches := rfl
@[simp] theorem State.setCore_roots (u : CoreId) (x : Core) : (s.setCore u x).roots = s.roots := rfl
@[simp] theorem State.setCore_nextLid (u : CoreId) (x : Core) : (s.setCore u x).nextLid = s.nextLid := rfl
@[simp] theorem State.setCore_flight (u : CoreId) (x : Core) : (s.setCore u x).flight = s.flight := rfl
@[simp] theorem State.setCore_nextId (u : CoreId) (x : Core) : (s.setCore u x).nextId = s.nextId := rfl
@[simp] theorem State.setCore_emptyRows (u : CoreId) (x : Core) : (s.setCore u x).emptyRows = s.emptyRows := rfl
@[simp] theorem State.setCore_poison (u : CoreId) (x : Core) : (s.setCore u x).poison = s.poison := rfl
@[simp] theorem State.setCore_marks (u : CoreId) (x : Core) : (s.setCore u x).marks = s.marks := rfl
@[simp] theorem State.setCore_fsc (u : CoreId) (x : Core) : (s.setCore u x).fsc = s.fsc := rfl
@[simp] theorem State.setCore_failReason (u : CoreId) (x : Core) : (s.setCore u x).failReason = s.failReason := rfl
@[simp] theorem State.setCore_failStep (u : CoreId) (x : Core) : (s.setCore u x).failStep = s.failStep := rfl
@[simp] theorem State.setCore_away (u : CoreId) (x : Core) : (s.setCore u x).away = s.away := rfl
@[simp] theorem State.setCore_msix (u : CoreId) (x : Core) : (s.setCore u x).msix = s.msix := rfl
@[simp] theorem State.setCore_capKeys (u : CoreId) (x : Core) : (s.setCore u x).capKeys = s.capKeys := rfl
@[simp] theorem State.setCore_retries (u : CoreId) (x : Core) : (s.setCore u x).retries = s.retries := rfl
@[simp] theorem State.setCore_sysArr (u : CoreId) (x : Core) : (s.setCore u x).sysArr = s.sysArr := rfl
@[simp] theorem State.setCore_minimal (u : CoreId) (x : Core) : (s.setCore u x).minimal = s.minimal := rfl
@[simp] theorem State.setCore_bootImg (u : CoreId) (x : Core) : (s.setCore u x).bootImg = s.bootImg := rfl
@[simp] theorem State.setCore_acks (u : CoreId) (x : Core) : (s.setCore u x).acks = s.acks := rfl
@[simp] theorem State.setCore_agenda (u : CoreId) (x : Core) : (s.setCore u x).agenda = s.agenda := rfl
@[simp] theorem State.setCore_heldWrites (u : CoreId) (x : Core) : (s.setCore u x).heldWrites = s.heldWrites := rfl
@[simp] theorem State.setCore_moves (u : CoreId) (x : Core) : (s.setCore u x).moves = s.moves := rfl
@[simp] theorem State.setCore_free (u : CoreId) (x : Core) : (s.setCore u x).free = s.free := rfl
@[simp] theorem State.setCore_cur (u : CoreId) (x : Core) : (s.setCore u x).cur = s.cur := rfl
@[simp] theorem State.setCore_ir (u : CoreId) (x : Core) : (s.setCore u x).ir = s.ir := rfl
@[simp] theorem State.setCore_bad (u : CoreId) (x : Core) : (s.setCore u x).bad = s.bad := rfl
@[simp] theorem State.setCore_arg (u : CoreId) (x : Core) : (s.setCore u x).arg = s.arg := rfl

/-! ### setCluster -/

@[simp] theorem State.setCluster_cyc (n : Nat) (x : Cluster) : (s.setCluster n x).cyc = s.cyc := rfl
@[simp] theorem State.setCluster_mem (n : Nat) (x : Cluster) : (s.setCluster n x).mem = s.mem := rfl
@[simp] theorem State.setCluster_ctxs (n : Nat) (x : Cluster) : (s.setCluster n x).ctxs = s.ctxs := rfl
@[simp] theorem State.setCluster_cores (n : Nat) (x : Cluster) : (s.setCluster n x).cores = s.cores := rfl
@[simp] theorem State.setCluster_clusters (n : Nat) (x : Cluster) : (s.setCluster n x).clusters = Tab.set s.clusters n x := rfl
@[simp] theorem State.setCluster_homes (n : Nat) (x : Cluster) : (s.setCluster n x).homes = s.homes := rfl
@[simp] theorem State.setCluster_pylons (n : Nat) (x : Cluster) : (s.setCluster n x).pylons = s.pylons := rfl
@[simp] theorem State.setCluster_launches (n : Nat) (x : Cluster) : (s.setCluster n x).launches = s.launches := rfl
@[simp] theorem State.setCluster_roots (n : Nat) (x : Cluster) : (s.setCluster n x).roots = s.roots := rfl
@[simp] theorem State.setCluster_nextLid (n : Nat) (x : Cluster) : (s.setCluster n x).nextLid = s.nextLid := rfl
@[simp] theorem State.setCluster_flight (n : Nat) (x : Cluster) : (s.setCluster n x).flight = s.flight := rfl
@[simp] theorem State.setCluster_nextId (n : Nat) (x : Cluster) : (s.setCluster n x).nextId = s.nextId := rfl
@[simp] theorem State.setCluster_emptyRows (n : Nat) (x : Cluster) : (s.setCluster n x).emptyRows = s.emptyRows := rfl
@[simp] theorem State.setCluster_poison (n : Nat) (x : Cluster) : (s.setCluster n x).poison = s.poison := rfl
@[simp] theorem State.setCluster_marks (n : Nat) (x : Cluster) : (s.setCluster n x).marks = s.marks := rfl
@[simp] theorem State.setCluster_fsc (n : Nat) (x : Cluster) : (s.setCluster n x).fsc = s.fsc := rfl
@[simp] theorem State.setCluster_failReason (n : Nat) (x : Cluster) : (s.setCluster n x).failReason = s.failReason := rfl
@[simp] theorem State.setCluster_failStep (n : Nat) (x : Cluster) : (s.setCluster n x).failStep = s.failStep := rfl
@[simp] theorem State.setCluster_away (n : Nat) (x : Cluster) : (s.setCluster n x).away = s.away := rfl
@[simp] theorem State.setCluster_msix (n : Nat) (x : Cluster) : (s.setCluster n x).msix = s.msix := rfl
@[simp] theorem State.setCluster_capKeys (n : Nat) (x : Cluster) : (s.setCluster n x).capKeys = s.capKeys := rfl
@[simp] theorem State.setCluster_retries (n : Nat) (x : Cluster) : (s.setCluster n x).retries = s.retries := rfl
@[simp] theorem State.setCluster_sysArr (n : Nat) (x : Cluster) : (s.setCluster n x).sysArr = s.sysArr := rfl
@[simp] theorem State.setCluster_minimal (n : Nat) (x : Cluster) : (s.setCluster n x).minimal = s.minimal := rfl
@[simp] theorem State.setCluster_bootImg (n : Nat) (x : Cluster) : (s.setCluster n x).bootImg = s.bootImg := rfl
@[simp] theorem State.setCluster_acks (n : Nat) (x : Cluster) : (s.setCluster n x).acks = s.acks := rfl
@[simp] theorem State.setCluster_agenda (n : Nat) (x : Cluster) : (s.setCluster n x).agenda = s.agenda := rfl
@[simp] theorem State.setCluster_heldWrites (n : Nat) (x : Cluster) : (s.setCluster n x).heldWrites = s.heldWrites := rfl
@[simp] theorem State.setCluster_moves (n : Nat) (x : Cluster) : (s.setCluster n x).moves = s.moves := rfl
@[simp] theorem State.setCluster_free (n : Nat) (x : Cluster) : (s.setCluster n x).free = s.free := rfl
@[simp] theorem State.setCluster_cur (n : Nat) (x : Cluster) : (s.setCluster n x).cur = s.cur := rfl
@[simp] theorem State.setCluster_ir (n : Nat) (x : Cluster) : (s.setCluster n x).ir = s.ir := rfl
@[simp] theorem State.setCluster_bad (n : Nat) (x : Cluster) : (s.setCluster n x).bad = s.bad := rfl
@[simp] theorem State.setCluster_arg (n : Nat) (x : Cluster) : (s.setCluster n x).arg = s.arg := rfl

/-! ### setHome -/

@[simp] theorem State.setHome_cyc (n : Nat) (x : Home) : (s.setHome n x).cyc = s.cyc := rfl
@[simp] theorem State.setHome_mem (n : Nat) (x : Home) : (s.setHome n x).mem = s.mem := rfl
@[simp] theorem State.setHome_ctxs (n : Nat) (x : Home) : (s.setHome n x).ctxs = s.ctxs := rfl
@[simp] theorem State.setHome_cores (n : Nat) (x : Home) : (s.setHome n x).cores = s.cores := rfl
@[simp] theorem State.setHome_clusters (n : Nat) (x : Home) : (s.setHome n x).clusters = s.clusters := rfl
@[simp] theorem State.setHome_homes (n : Nat) (x : Home) : (s.setHome n x).homes = Tab.set s.homes n x := rfl
@[simp] theorem State.setHome_pylons (n : Nat) (x : Home) : (s.setHome n x).pylons = s.pylons := rfl
@[simp] theorem State.setHome_launches (n : Nat) (x : Home) : (s.setHome n x).launches = s.launches := rfl
@[simp] theorem State.setHome_roots (n : Nat) (x : Home) : (s.setHome n x).roots = s.roots := rfl
@[simp] theorem State.setHome_nextLid (n : Nat) (x : Home) : (s.setHome n x).nextLid = s.nextLid := rfl
@[simp] theorem State.setHome_flight (n : Nat) (x : Home) : (s.setHome n x).flight = s.flight := rfl
@[simp] theorem State.setHome_nextId (n : Nat) (x : Home) : (s.setHome n x).nextId = s.nextId := rfl
@[simp] theorem State.setHome_emptyRows (n : Nat) (x : Home) : (s.setHome n x).emptyRows = s.emptyRows := rfl
@[simp] theorem State.setHome_poison (n : Nat) (x : Home) : (s.setHome n x).poison = s.poison := rfl
@[simp] theorem State.setHome_marks (n : Nat) (x : Home) : (s.setHome n x).marks = s.marks := rfl
@[simp] theorem State.setHome_fsc (n : Nat) (x : Home) : (s.setHome n x).fsc = s.fsc := rfl
@[simp] theorem State.setHome_failReason (n : Nat) (x : Home) : (s.setHome n x).failReason = s.failReason := rfl
@[simp] theorem State.setHome_failStep (n : Nat) (x : Home) : (s.setHome n x).failStep = s.failStep := rfl
@[simp] theorem State.setHome_away (n : Nat) (x : Home) : (s.setHome n x).away = s.away := rfl
@[simp] theorem State.setHome_msix (n : Nat) (x : Home) : (s.setHome n x).msix = s.msix := rfl
@[simp] theorem State.setHome_capKeys (n : Nat) (x : Home) : (s.setHome n x).capKeys = s.capKeys := rfl
@[simp] theorem State.setHome_retries (n : Nat) (x : Home) : (s.setHome n x).retries = s.retries := rfl
@[simp] theorem State.setHome_sysArr (n : Nat) (x : Home) : (s.setHome n x).sysArr = s.sysArr := rfl
@[simp] theorem State.setHome_minimal (n : Nat) (x : Home) : (s.setHome n x).minimal = s.minimal := rfl
@[simp] theorem State.setHome_bootImg (n : Nat) (x : Home) : (s.setHome n x).bootImg = s.bootImg := rfl
@[simp] theorem State.setHome_acks (n : Nat) (x : Home) : (s.setHome n x).acks = s.acks := rfl
@[simp] theorem State.setHome_agenda (n : Nat) (x : Home) : (s.setHome n x).agenda = s.agenda := rfl
@[simp] theorem State.setHome_heldWrites (n : Nat) (x : Home) : (s.setHome n x).heldWrites = s.heldWrites := rfl
@[simp] theorem State.setHome_moves (n : Nat) (x : Home) : (s.setHome n x).moves = s.moves := rfl
@[simp] theorem State.setHome_free (n : Nat) (x : Home) : (s.setHome n x).free = s.free := rfl
@[simp] theorem State.setHome_cur (n : Nat) (x : Home) : (s.setHome n x).cur = s.cur := rfl
@[simp] theorem State.setHome_ir (n : Nat) (x : Home) : (s.setHome n x).ir = s.ir := rfl
@[simp] theorem State.setHome_bad (n : Nat) (x : Home) : (s.setHome n x).bad = s.bad := rfl
@[simp] theorem State.setHome_arg (n : Nat) (x : Home) : (s.setHome n x).arg = s.arg := rfl

/-! ### setPylon -/

@[simp] theorem State.setPylon_cyc (n : Nat) (x : Pylon) : (s.setPylon n x).cyc = s.cyc := rfl
@[simp] theorem State.setPylon_mem (n : Nat) (x : Pylon) : (s.setPylon n x).mem = s.mem := rfl
@[simp] theorem State.setPylon_ctxs (n : Nat) (x : Pylon) : (s.setPylon n x).ctxs = s.ctxs := rfl
@[simp] theorem State.setPylon_cores (n : Nat) (x : Pylon) : (s.setPylon n x).cores = s.cores := rfl
@[simp] theorem State.setPylon_clusters (n : Nat) (x : Pylon) : (s.setPylon n x).clusters = s.clusters := rfl
@[simp] theorem State.setPylon_homes (n : Nat) (x : Pylon) : (s.setPylon n x).homes = s.homes := rfl
@[simp] theorem State.setPylon_pylons (n : Nat) (x : Pylon) : (s.setPylon n x).pylons = Tab.set s.pylons n x := rfl
@[simp] theorem State.setPylon_launches (n : Nat) (x : Pylon) : (s.setPylon n x).launches = s.launches := rfl
@[simp] theorem State.setPylon_roots (n : Nat) (x : Pylon) : (s.setPylon n x).roots = s.roots := rfl
@[simp] theorem State.setPylon_nextLid (n : Nat) (x : Pylon) : (s.setPylon n x).nextLid = s.nextLid := rfl
@[simp] theorem State.setPylon_flight (n : Nat) (x : Pylon) : (s.setPylon n x).flight = s.flight := rfl
@[simp] theorem State.setPylon_nextId (n : Nat) (x : Pylon) : (s.setPylon n x).nextId = s.nextId := rfl
@[simp] theorem State.setPylon_emptyRows (n : Nat) (x : Pylon) : (s.setPylon n x).emptyRows = s.emptyRows := rfl
@[simp] theorem State.setPylon_poison (n : Nat) (x : Pylon) : (s.setPylon n x).poison = s.poison := rfl
@[simp] theorem State.setPylon_marks (n : Nat) (x : Pylon) : (s.setPylon n x).marks = s.marks := rfl
@[simp] theorem State.setPylon_fsc (n : Nat) (x : Pylon) : (s.setPylon n x).fsc = s.fsc := rfl
@[simp] theorem State.setPylon_failReason (n : Nat) (x : Pylon) : (s.setPylon n x).failReason = s.failReason := rfl
@[simp] theorem State.setPylon_failStep (n : Nat) (x : Pylon) : (s.setPylon n x).failStep = s.failStep := rfl
@[simp] theorem State.setPylon_away (n : Nat) (x : Pylon) : (s.setPylon n x).away = s.away := rfl
@[simp] theorem State.setPylon_msix (n : Nat) (x : Pylon) : (s.setPylon n x).msix = s.msix := rfl
@[simp] theorem State.setPylon_capKeys (n : Nat) (x : Pylon) : (s.setPylon n x).capKeys = s.capKeys := rfl
@[simp] theorem State.setPylon_retries (n : Nat) (x : Pylon) : (s.setPylon n x).retries = s.retries := rfl
@[simp] theorem State.setPylon_sysArr (n : Nat) (x : Pylon) : (s.setPylon n x).sysArr = s.sysArr := rfl
@[simp] theorem State.setPylon_minimal (n : Nat) (x : Pylon) : (s.setPylon n x).minimal = s.minimal := rfl
@[simp] theorem State.setPylon_bootImg (n : Nat) (x : Pylon) : (s.setPylon n x).bootImg = s.bootImg := rfl
@[simp] theorem State.setPylon_acks (n : Nat) (x : Pylon) : (s.setPylon n x).acks = s.acks := rfl
@[simp] theorem State.setPylon_agenda (n : Nat) (x : Pylon) : (s.setPylon n x).agenda = s.agenda := rfl
@[simp] theorem State.setPylon_heldWrites (n : Nat) (x : Pylon) : (s.setPylon n x).heldWrites = s.heldWrites := rfl
@[simp] theorem State.setPylon_moves (n : Nat) (x : Pylon) : (s.setPylon n x).moves = s.moves := rfl
@[simp] theorem State.setPylon_free (n : Nat) (x : Pylon) : (s.setPylon n x).free = s.free := rfl
@[simp] theorem State.setPylon_cur (n : Nat) (x : Pylon) : (s.setPylon n x).cur = s.cur := rfl
@[simp] theorem State.setPylon_ir (n : Nat) (x : Pylon) : (s.setPylon n x).ir = s.ir := rfl
@[simp] theorem State.setPylon_bad (n : Nat) (x : Pylon) : (s.setPylon n x).bad = s.bad := rfl
@[simp] theorem State.setPylon_arg (n : Nat) (x : Pylon) : (s.setPylon n x).arg = s.arg := rfl

/-! ### setLaunch -/

@[simp] theorem State.setLaunch_cyc (l : Launch) : (s.setLaunch l).cyc = s.cyc := rfl
@[simp] theorem State.setLaunch_mem (l : Launch) : (s.setLaunch l).mem = s.mem := rfl
@[simp] theorem State.setLaunch_ctxs (l : Launch) : (s.setLaunch l).ctxs = s.ctxs := rfl
@[simp] theorem State.setLaunch_cores (l : Launch) : (s.setLaunch l).cores = s.cores := rfl
@[simp] theorem State.setLaunch_clusters (l : Launch) : (s.setLaunch l).clusters = s.clusters := rfl
@[simp] theorem State.setLaunch_homes (l : Launch) : (s.setLaunch l).homes = s.homes := rfl
@[simp] theorem State.setLaunch_pylons (l : Launch) : (s.setLaunch l).pylons = s.pylons := rfl
@[simp] theorem State.setLaunch_launches (l : Launch) : (s.setLaunch l).launches = s.launches.map fun m => if m.id = l.id then l else m := rfl
@[simp] theorem State.setLaunch_roots (l : Launch) : (s.setLaunch l).roots = s.roots := rfl
@[simp] theorem State.setLaunch_nextLid (l : Launch) : (s.setLaunch l).nextLid = s.nextLid := rfl
@[simp] theorem State.setLaunch_flight (l : Launch) : (s.setLaunch l).flight = s.flight := rfl
@[simp] theorem State.setLaunch_nextId (l : Launch) : (s.setLaunch l).nextId = s.nextId := rfl
@[simp] theorem State.setLaunch_emptyRows (l : Launch) : (s.setLaunch l).emptyRows = s.emptyRows := rfl
@[simp] theorem State.setLaunch_poison (l : Launch) : (s.setLaunch l).poison = s.poison := rfl
@[simp] theorem State.setLaunch_marks (l : Launch) : (s.setLaunch l).marks = s.marks := rfl
@[simp] theorem State.setLaunch_fsc (l : Launch) : (s.setLaunch l).fsc = s.fsc := rfl
@[simp] theorem State.setLaunch_failReason (l : Launch) : (s.setLaunch l).failReason = s.failReason := rfl
@[simp] theorem State.setLaunch_failStep (l : Launch) : (s.setLaunch l).failStep = s.failStep := rfl
@[simp] theorem State.setLaunch_away (l : Launch) : (s.setLaunch l).away = s.away := rfl
@[simp] theorem State.setLaunch_msix (l : Launch) : (s.setLaunch l).msix = s.msix := rfl
@[simp] theorem State.setLaunch_capKeys (l : Launch) : (s.setLaunch l).capKeys = s.capKeys := rfl
@[simp] theorem State.setLaunch_retries (l : Launch) : (s.setLaunch l).retries = s.retries := rfl
@[simp] theorem State.setLaunch_sysArr (l : Launch) : (s.setLaunch l).sysArr = s.sysArr := rfl
@[simp] theorem State.setLaunch_minimal (l : Launch) : (s.setLaunch l).minimal = s.minimal := rfl
@[simp] theorem State.setLaunch_bootImg (l : Launch) : (s.setLaunch l).bootImg = s.bootImg := rfl
@[simp] theorem State.setLaunch_acks (l : Launch) : (s.setLaunch l).acks = s.acks := rfl
@[simp] theorem State.setLaunch_agenda (l : Launch) : (s.setLaunch l).agenda = s.agenda := rfl
@[simp] theorem State.setLaunch_heldWrites (l : Launch) : (s.setLaunch l).heldWrites = s.heldWrites := rfl
@[simp] theorem State.setLaunch_moves (l : Launch) : (s.setLaunch l).moves = s.moves := rfl
@[simp] theorem State.setLaunch_free (l : Launch) : (s.setLaunch l).free = s.free := rfl
@[simp] theorem State.setLaunch_cur (l : Launch) : (s.setLaunch l).cur = s.cur := rfl
@[simp] theorem State.setLaunch_ir (l : Launch) : (s.setLaunch l).ir = s.ir := rfl
@[simp] theorem State.setLaunch_bad (l : Launch) : (s.setLaunch l).bad = s.bad := rfl
@[simp] theorem State.setLaunch_arg (l : Launch) : (s.setLaunch l).arg = s.arg := rfl

/-! ### fresh -/

@[simp] theorem State.fresh_cyc : (s.fresh).cyc = s.cyc := rfl
@[simp] theorem State.fresh_mem : (s.fresh).mem = s.mem := rfl
@[simp] theorem State.fresh_ctxs : (s.fresh).ctxs = s.ctxs := rfl
@[simp] theorem State.fresh_cores : (s.fresh).cores = s.cores := rfl
@[simp] theorem State.fresh_clusters : (s.fresh).clusters = s.clusters := rfl
@[simp] theorem State.fresh_homes : (s.fresh).homes = s.homes := rfl
@[simp] theorem State.fresh_pylons : (s.fresh).pylons = s.pylons := rfl
@[simp] theorem State.fresh_launches : (s.fresh).launches = s.launches := rfl
@[simp] theorem State.fresh_roots : (s.fresh).roots = s.roots := rfl
@[simp] theorem State.fresh_nextLid : (s.fresh).nextLid = s.nextLid := rfl
@[simp] theorem State.fresh_flight : (s.fresh).flight = s.flight := rfl
@[simp] theorem State.fresh_nextId : (s.fresh).nextId = s.nextId + 1 := rfl
@[simp] theorem State.fresh_emptyRows : (s.fresh).emptyRows = s.emptyRows := rfl
@[simp] theorem State.fresh_poison : (s.fresh).poison = s.poison := rfl
@[simp] theorem State.fresh_marks : (s.fresh).marks = s.marks := rfl
@[simp] theorem State.fresh_fsc : (s.fresh).fsc = s.fsc := rfl
@[simp] theorem State.fresh_failReason : (s.fresh).failReason = s.failReason := rfl
@[simp] theorem State.fresh_failStep : (s.fresh).failStep = s.failStep := rfl
@[simp] theorem State.fresh_away : (s.fresh).away = s.away := rfl
@[simp] theorem State.fresh_msix : (s.fresh).msix = s.msix := rfl
@[simp] theorem State.fresh_capKeys : (s.fresh).capKeys = s.capKeys := rfl
@[simp] theorem State.fresh_retries : (s.fresh).retries = s.retries := rfl
@[simp] theorem State.fresh_sysArr : (s.fresh).sysArr = s.sysArr := rfl
@[simp] theorem State.fresh_minimal : (s.fresh).minimal = s.minimal := rfl
@[simp] theorem State.fresh_bootImg : (s.fresh).bootImg = s.bootImg := rfl
@[simp] theorem State.fresh_acks : (s.fresh).acks = s.acks := rfl
@[simp] theorem State.fresh_agenda : (s.fresh).agenda = s.agenda := rfl
@[simp] theorem State.fresh_heldWrites : (s.fresh).heldWrites = s.heldWrites := rfl
@[simp] theorem State.fresh_moves : (s.fresh).moves = s.moves := rfl
@[simp] theorem State.fresh_free : (s.fresh).free = s.free := rfl
@[simp] theorem State.fresh_cur : (s.fresh).cur = s.cur := rfl
@[simp] theorem State.fresh_ir : (s.fresh).ir = s.ir := rfl
@[simp] theorem State.fresh_bad : (s.fresh).bad = s.bad := rfl
@[simp] theorem State.fresh_arg : (s.fresh).arg = s.arg := rfl

/-! ### at_ -/

@[simp] theorem State.at__cyc (t : Nat) (i : Instr) (a : Arg) : (s.at_ t i a).cyc = s.cyc := rfl
@[simp] theorem State.at__mem (t : Nat) (i : Instr) (a : Arg) : (s.at_ t i a).mem = s.mem := rfl
@[simp] theorem State.at__ctxs (t : Nat) (i : Instr) (a : Arg) : (s.at_ t i a).ctxs = s.ctxs := rfl
@[simp] theorem State.at__cores (t : Nat) (i : Instr) (a : Arg) : (s.at_ t i a).cores = s.cores := rfl
@[simp] theorem State.at__clusters (t : Nat) (i : Instr) (a : Arg) : (s.at_ t i a).clusters = s.clusters := rfl
@[simp] theorem State.at__homes (t : Nat) (i : Instr) (a : Arg) : (s.at_ t i a).homes = s.homes := rfl
@[simp] theorem State.at__pylons (t : Nat) (i : Instr) (a : Arg) : (s.at_ t i a).pylons = s.pylons := rfl
@[simp] theorem State.at__launches (t : Nat) (i : Instr) (a : Arg) : (s.at_ t i a).launches = s.launches := rfl
@[simp] theorem State.at__roots (t : Nat) (i : Instr) (a : Arg) : (s.at_ t i a).roots = s.roots := rfl
@[simp] theorem State.at__nextLid (t : Nat) (i : Instr) (a : Arg) : (s.at_ t i a).nextLid = s.nextLid := rfl
@[simp] theorem State.at__flight (t : Nat) (i : Instr) (a : Arg) : (s.at_ t i a).flight = s.flight := rfl
@[simp] theorem State.at__nextId (t : Nat) (i : Instr) (a : Arg) : (s.at_ t i a).nextId = s.nextId := rfl
@[simp] theorem State.at__emptyRows (t : Nat) (i : Instr) (a : Arg) : (s.at_ t i a).emptyRows = s.emptyRows := rfl
@[simp] theorem State.at__poison (t : Nat) (i : Instr) (a : Arg) : (s.at_ t i a).poison = s.poison := rfl
@[simp] theorem State.at__marks (t : Nat) (i : Instr) (a : Arg) : (s.at_ t i a).marks = s.marks := rfl
@[simp] theorem State.at__fsc (t : Nat) (i : Instr) (a : Arg) : (s.at_ t i a).fsc = s.fsc := rfl
@[simp] theorem State.at__failReason (t : Nat) (i : Instr) (a : Arg) : (s.at_ t i a).failReason = s.failReason := rfl
@[simp] theorem State.at__failStep (t : Nat) (i : Instr) (a : Arg) : (s.at_ t i a).failStep = s.failStep := rfl
@[simp] theorem State.at__away (t : Nat) (i : Instr) (a : Arg) : (s.at_ t i a).away = s.away := rfl
@[simp] theorem State.at__msix (t : Nat) (i : Instr) (a : Arg) : (s.at_ t i a).msix = s.msix := rfl
@[simp] theorem State.at__capKeys (t : Nat) (i : Instr) (a : Arg) : (s.at_ t i a).capKeys = s.capKeys := rfl
@[simp] theorem State.at__retries (t : Nat) (i : Instr) (a : Arg) : (s.at_ t i a).retries = s.retries := rfl
@[simp] theorem State.at__sysArr (t : Nat) (i : Instr) (a : Arg) : (s.at_ t i a).sysArr = s.sysArr := rfl
@[simp] theorem State.at__minimal (t : Nat) (i : Instr) (a : Arg) : (s.at_ t i a).minimal = s.minimal := rfl
@[simp] theorem State.at__bootImg (t : Nat) (i : Instr) (a : Arg) : (s.at_ t i a).bootImg = s.bootImg := rfl
@[simp] theorem State.at__acks (t : Nat) (i : Instr) (a : Arg) : (s.at_ t i a).acks = s.acks := rfl
@[simp] theorem State.at__agenda (t : Nat) (i : Instr) (a : Arg) : (s.at_ t i a).agenda = agendaInsert t (i, a) s.agenda := rfl
@[simp] theorem State.at__heldWrites (t : Nat) (i : Instr) (a : Arg) : (s.at_ t i a).heldWrites = s.heldWrites := rfl
@[simp] theorem State.at__moves (t : Nat) (i : Instr) (a : Arg) : (s.at_ t i a).moves = s.moves := rfl
@[simp] theorem State.at__free (t : Nat) (i : Instr) (a : Arg) : (s.at_ t i a).free = s.free := rfl
@[simp] theorem State.at__cur (t : Nat) (i : Instr) (a : Arg) : (s.at_ t i a).cur = s.cur := rfl
@[simp] theorem State.at__ir (t : Nat) (i : Instr) (a : Arg) : (s.at_ t i a).ir = s.ir := rfl
@[simp] theorem State.at__bad (t : Nat) (i : Instr) (a : Arg) : (s.at_ t i a).bad = s.bad := rfl
@[simp] theorem State.at__arg (t : Nat) (i : Instr) (a : Arg) : (s.at_ t i a).arg = s.arg := rfl

/-! ### after -/

@[simp] theorem State.after_cyc (n : Nat) (i : Instr) (a : Arg) : (s.after n i a).cyc = s.cyc := rfl
@[simp] theorem State.after_mem (n : Nat) (i : Instr) (a : Arg) : (s.after n i a).mem = s.mem := rfl
@[simp] theorem State.after_ctxs (n : Nat) (i : Instr) (a : Arg) : (s.after n i a).ctxs = s.ctxs := rfl
@[simp] theorem State.after_cores (n : Nat) (i : Instr) (a : Arg) : (s.after n i a).cores = s.cores := rfl
@[simp] theorem State.after_clusters (n : Nat) (i : Instr) (a : Arg) : (s.after n i a).clusters = s.clusters := rfl
@[simp] theorem State.after_homes (n : Nat) (i : Instr) (a : Arg) : (s.after n i a).homes = s.homes := rfl
@[simp] theorem State.after_pylons (n : Nat) (i : Instr) (a : Arg) : (s.after n i a).pylons = s.pylons := rfl
@[simp] theorem State.after_launches (n : Nat) (i : Instr) (a : Arg) : (s.after n i a).launches = s.launches := rfl
@[simp] theorem State.after_roots (n : Nat) (i : Instr) (a : Arg) : (s.after n i a).roots = s.roots := rfl
@[simp] theorem State.after_nextLid (n : Nat) (i : Instr) (a : Arg) : (s.after n i a).nextLid = s.nextLid := rfl
@[simp] theorem State.after_flight (n : Nat) (i : Instr) (a : Arg) : (s.after n i a).flight = s.flight := rfl
@[simp] theorem State.after_nextId (n : Nat) (i : Instr) (a : Arg) : (s.after n i a).nextId = s.nextId := rfl
@[simp] theorem State.after_emptyRows (n : Nat) (i : Instr) (a : Arg) : (s.after n i a).emptyRows = s.emptyRows := rfl
@[simp] theorem State.after_poison (n : Nat) (i : Instr) (a : Arg) : (s.after n i a).poison = s.poison := rfl
@[simp] theorem State.after_marks (n : Nat) (i : Instr) (a : Arg) : (s.after n i a).marks = s.marks := rfl
@[simp] theorem State.after_fsc (n : Nat) (i : Instr) (a : Arg) : (s.after n i a).fsc = s.fsc := rfl
@[simp] theorem State.after_failReason (n : Nat) (i : Instr) (a : Arg) : (s.after n i a).failReason = s.failReason := rfl
@[simp] theorem State.after_failStep (n : Nat) (i : Instr) (a : Arg) : (s.after n i a).failStep = s.failStep := rfl
@[simp] theorem State.after_away (n : Nat) (i : Instr) (a : Arg) : (s.after n i a).away = s.away := rfl
@[simp] theorem State.after_msix (n : Nat) (i : Instr) (a : Arg) : (s.after n i a).msix = s.msix := rfl
@[simp] theorem State.after_capKeys (n : Nat) (i : Instr) (a : Arg) : (s.after n i a).capKeys = s.capKeys := rfl
@[simp] theorem State.after_retries (n : Nat) (i : Instr) (a : Arg) : (s.after n i a).retries = s.retries := rfl
@[simp] theorem State.after_sysArr (n : Nat) (i : Instr) (a : Arg) : (s.after n i a).sysArr = s.sysArr := rfl
@[simp] theorem State.after_minimal (n : Nat) (i : Instr) (a : Arg) : (s.after n i a).minimal = s.minimal := rfl
@[simp] theorem State.after_bootImg (n : Nat) (i : Instr) (a : Arg) : (s.after n i a).bootImg = s.bootImg := rfl
@[simp] theorem State.after_acks (n : Nat) (i : Instr) (a : Arg) : (s.after n i a).acks = s.acks := rfl
@[simp] theorem State.after_agenda (n : Nat) (i : Instr) (a : Arg) : (s.after n i a).agenda = agendaInsert (s.cyc + n) (i, a) s.agenda := rfl
@[simp] theorem State.after_heldWrites (n : Nat) (i : Instr) (a : Arg) : (s.after n i a).heldWrites = s.heldWrites := rfl
@[simp] theorem State.after_moves (n : Nat) (i : Instr) (a : Arg) : (s.after n i a).moves = s.moves := rfl
@[simp] theorem State.after_free (n : Nat) (i : Instr) (a : Arg) : (s.after n i a).free = s.free := rfl
@[simp] theorem State.after_cur (n : Nat) (i : Instr) (a : Arg) : (s.after n i a).cur = s.cur := rfl
@[simp] theorem State.after_ir (n : Nat) (i : Instr) (a : Arg) : (s.after n i a).ir = s.ir := rfl
@[simp] theorem State.after_bad (n : Nat) (i : Instr) (a : Arg) : (s.after n i a).bad = s.bad := rfl
@[simp] theorem State.after_arg (n : Nat) (i : Instr) (a : Arg) : (s.after n i a).arg = s.arg := rfl

/-! ### raiseMsix -/

@[simp] theorem State.raiseMsix_cyc (v : Nat) : (s.raiseMsix v).cyc = s.cyc := rfl
@[simp] theorem State.raiseMsix_mem (v : Nat) : (s.raiseMsix v).mem = s.mem := rfl
@[simp] theorem State.raiseMsix_ctxs (v : Nat) : (s.raiseMsix v).ctxs = s.ctxs := rfl
@[simp] theorem State.raiseMsix_cores (v : Nat) : (s.raiseMsix v).cores = s.cores := rfl
@[simp] theorem State.raiseMsix_clusters (v : Nat) : (s.raiseMsix v).clusters = s.clusters := rfl
@[simp] theorem State.raiseMsix_homes (v : Nat) : (s.raiseMsix v).homes = s.homes := rfl
@[simp] theorem State.raiseMsix_pylons (v : Nat) : (s.raiseMsix v).pylons = s.pylons := rfl
@[simp] theorem State.raiseMsix_launches (v : Nat) : (s.raiseMsix v).launches = s.launches := rfl
@[simp] theorem State.raiseMsix_roots (v : Nat) : (s.raiseMsix v).roots = s.roots := rfl
@[simp] theorem State.raiseMsix_nextLid (v : Nat) : (s.raiseMsix v).nextLid = s.nextLid := rfl
@[simp] theorem State.raiseMsix_flight (v : Nat) : (s.raiseMsix v).flight = s.flight := rfl
@[simp] theorem State.raiseMsix_nextId (v : Nat) : (s.raiseMsix v).nextId = s.nextId := rfl
@[simp] theorem State.raiseMsix_emptyRows (v : Nat) : (s.raiseMsix v).emptyRows = s.emptyRows := rfl
@[simp] theorem State.raiseMsix_poison (v : Nat) : (s.raiseMsix v).poison = s.poison := rfl
@[simp] theorem State.raiseMsix_marks (v : Nat) : (s.raiseMsix v).marks = s.marks := rfl
@[simp] theorem State.raiseMsix_fsc (v : Nat) : (s.raiseMsix v).fsc = s.fsc := rfl
@[simp] theorem State.raiseMsix_failReason (v : Nat) : (s.raiseMsix v).failReason = s.failReason := rfl
@[simp] theorem State.raiseMsix_failStep (v : Nat) : (s.raiseMsix v).failStep = s.failStep := rfl
@[simp] theorem State.raiseMsix_away (v : Nat) : (s.raiseMsix v).away = s.away := rfl
@[simp] theorem State.raiseMsix_msix (v : Nat) : (s.raiseMsix v).msix = s.msix ++ [v] := rfl
@[simp] theorem State.raiseMsix_capKeys (v : Nat) : (s.raiseMsix v).capKeys = s.capKeys := rfl
@[simp] theorem State.raiseMsix_retries (v : Nat) : (s.raiseMsix v).retries = s.retries := rfl
@[simp] theorem State.raiseMsix_sysArr (v : Nat) : (s.raiseMsix v).sysArr = s.sysArr := rfl
@[simp] theorem State.raiseMsix_minimal (v : Nat) : (s.raiseMsix v).minimal = s.minimal := rfl
@[simp] theorem State.raiseMsix_bootImg (v : Nat) : (s.raiseMsix v).bootImg = s.bootImg := rfl
@[simp] theorem State.raiseMsix_acks (v : Nat) : (s.raiseMsix v).acks = s.acks := rfl
@[simp] theorem State.raiseMsix_agenda (v : Nat) : (s.raiseMsix v).agenda = s.agenda := rfl
@[simp] theorem State.raiseMsix_heldWrites (v : Nat) : (s.raiseMsix v).heldWrites = s.heldWrites := rfl
@[simp] theorem State.raiseMsix_moves (v : Nat) : (s.raiseMsix v).moves = s.moves := rfl
@[simp] theorem State.raiseMsix_free (v : Nat) : (s.raiseMsix v).free = s.free := rfl
@[simp] theorem State.raiseMsix_cur (v : Nat) : (s.raiseMsix v).cur = s.cur := rfl
@[simp] theorem State.raiseMsix_ir (v : Nat) : (s.raiseMsix v).ir = s.ir := rfl
@[simp] theorem State.raiseMsix_bad (v : Nat) : (s.raiseMsix v).bad = s.bad := rfl
@[simp] theorem State.raiseMsix_arg (v : Nat) : (s.raiseMsix v).arg = s.arg := rfl

/-! ### What is set is read back -/

@[simp] theorem State.ctx_setCtx (c : CtxId) (x : Ctx) : (s.setCtx c x).ctx c = x := Tab.get_set_self _ _ _ _
theorem State.ctx_setCtx_other (c : CtxId) (x : Ctx) {k : CtxId} (h : k ≠ c) : (s.setCtx c x).ctx k = s.ctx k := Tab.get_set_other h _ _ _
@[simp] theorem State.core_setCore (u : CoreId) (x : Core) : (s.setCore u x).core u = x := Tab.get_set_self _ _ _ _
theorem State.core_setCore_other (u : CoreId) (x : Core) {k : CoreId} (h : k ≠ u) : (s.setCore u x).core k = s.core k := Tab.get_set_other h _ _ _
@[simp] theorem State.cluster_setCluster (n : Nat) (x : Cluster) : (s.setCluster n x).cluster n = x := Tab.get_set_self _ _ _ _
theorem State.cluster_setCluster_other (n : Nat) (x : Cluster) {k : Nat} (h : k ≠ n) : (s.setCluster n x).cluster k = s.cluster k := Tab.get_set_other h _ _ _
@[simp] theorem State.home_setHome (n : Nat) (x : Home) : (s.setHome n x).home n = x := Tab.get_set_self _ _ _ _
theorem State.home_setHome_other (n : Nat) (x : Home) {k : Nat} (h : k ≠ n) : (s.setHome n x).home k = s.home k := Tab.get_set_other h _ _ _
@[simp] theorem State.pylon_setPylon (n : Nat) (x : Pylon) : (s.setPylon n x).pylon n = x := Tab.get_set_self _ _ _ _
theorem State.pylon_setPylon_other (n : Nat) (x : Pylon) {k : Nat} (h : k ≠ n) : (s.setPylon n x).pylon k = s.pylon k := Tab.get_set_other h _ _ _
@[simp] theorem State.core_setCtx (c : CtxId) (x : Ctx) (k_ : CoreId) : (s.setCtx c x).core k_ = s.core k_ := rfl
@[simp] theorem State.cluster_setCtx (c : CtxId) (x : Ctx) (k_ : Nat) : (s.setCtx c x).cluster k_ = s.cluster k_ := rfl
@[simp] theorem State.home_setCtx (c : CtxId) (x : Ctx) (k_ : Nat) : (s.setCtx c x).home k_ = s.home k_ := rfl
@[simp] theorem State.pylon_setCtx (c : CtxId) (x : Ctx) (k_ : Nat) : (s.setCtx c x).pylon k_ = s.pylon k_ := rfl
@[simp] theorem State.ctx_setCore (u : CoreId) (x : Core) (k_ : CtxId) : (s.setCore u x).ctx k_ = s.ctx k_ := rfl
@[simp] theorem State.cluster_setCore (u : CoreId) (x : Core) (k_ : Nat) : (s.setCore u x).cluster k_ = s.cluster k_ := rfl
@[simp] theorem State.home_setCore (u : CoreId) (x : Core) (k_ : Nat) : (s.setCore u x).home k_ = s.home k_ := rfl
@[simp] theorem State.pylon_setCore (u : CoreId) (x : Core) (k_ : Nat) : (s.setCore u x).pylon k_ = s.pylon k_ := rfl
@[simp] theorem State.ctx_setCluster (n : Nat) (x : Cluster) (k_ : CtxId) : (s.setCluster n x).ctx k_ = s.ctx k_ := rfl
@[simp] theorem State.core_setCluster (n : Nat) (x : Cluster) (k_ : CoreId) : (s.setCluster n x).core k_ = s.core k_ := rfl
@[simp] theorem State.home_setCluster (n : Nat) (x : Cluster) (k_ : Nat) : (s.setCluster n x).home k_ = s.home k_ := rfl
@[simp] theorem State.pylon_setCluster (n : Nat) (x : Cluster) (k_ : Nat) : (s.setCluster n x).pylon k_ = s.pylon k_ := rfl
@[simp] theorem State.ctx_setHome (n : Nat) (x : Home) (k_ : CtxId) : (s.setHome n x).ctx k_ = s.ctx k_ := rfl
@[simp] theorem State.core_setHome (n : Nat) (x : Home) (k_ : CoreId) : (s.setHome n x).core k_ = s.core k_ := rfl
@[simp] theorem State.cluster_setHome (n : Nat) (x : Home) (k_ : Nat) : (s.setHome n x).cluster k_ = s.cluster k_ := rfl
@[simp] theorem State.pylon_setHome (n : Nat) (x : Home) (k_ : Nat) : (s.setHome n x).pylon k_ = s.pylon k_ := rfl
@[simp] theorem State.ctx_setPylon (n : Nat) (x : Pylon) (k_ : CtxId) : (s.setPylon n x).ctx k_ = s.ctx k_ := rfl
@[simp] theorem State.core_setPylon (n : Nat) (x : Pylon) (k_ : CoreId) : (s.setPylon n x).core k_ = s.core k_ := rfl
@[simp] theorem State.cluster_setPylon (n : Nat) (x : Pylon) (k_ : Nat) : (s.setPylon n x).cluster k_ = s.cluster k_ := rfl
@[simp] theorem State.home_setPylon (n : Nat) (x : Pylon) (k_ : Nat) : (s.setPylon n x).home k_ = s.home k_ := rfl
@[simp] theorem State.ctx_setLaunch (l : Launch) (k_ : CtxId) : (s.setLaunch l).ctx k_ = s.ctx k_ := rfl
@[simp] theorem State.core_setLaunch (l : Launch) (k_ : CoreId) : (s.setLaunch l).core k_ = s.core k_ := rfl
@[simp] theorem State.cluster_setLaunch (l : Launch) (k_ : Nat) : (s.setLaunch l).cluster k_ = s.cluster k_ := rfl
@[simp] theorem State.home_setLaunch (l : Launch) (k_ : Nat) : (s.setLaunch l).home k_ = s.home k_ := rfl
@[simp] theorem State.pylon_setLaunch (l : Launch) (k_ : Nat) : (s.setLaunch l).pylon k_ = s.pylon k_ := rfl
@[simp] theorem State.ctx_fresh (k_ : CtxId) : (s.fresh).ctx k_ = s.ctx k_ := rfl
@[simp] theorem State.core_fresh (k_ : CoreId) : (s.fresh).core k_ = s.core k_ := rfl
@[simp] theorem State.cluster_fresh (k_ : Nat) : (s.fresh).cluster k_ = s.cluster k_ := rfl
@[simp] theorem State.home_fresh (k_ : Nat) : (s.fresh).home k_ = s.home k_ := rfl
@[simp] theorem State.pylon_fresh (k_ : Nat) : (s.fresh).pylon k_ = s.pylon k_ := rfl
@[simp] theorem State.ctx_at_ (t : Nat) (i : Instr) (a : Arg) (k_ : CtxId) : (s.at_ t i a).ctx k_ = s.ctx k_ := rfl
@[simp] theorem State.core_at_ (t : Nat) (i : Instr) (a : Arg) (k_ : CoreId) : (s.at_ t i a).core k_ = s.core k_ := rfl
@[simp] theorem State.cluster_at_ (t : Nat) (i : Instr) (a : Arg) (k_ : Nat) : (s.at_ t i a).cluster k_ = s.cluster k_ := rfl
@[simp] theorem State.home_at_ (t : Nat) (i : Instr) (a : Arg) (k_ : Nat) : (s.at_ t i a).home k_ = s.home k_ := rfl
@[simp] theorem State.pylon_at_ (t : Nat) (i : Instr) (a : Arg) (k_ : Nat) : (s.at_ t i a).pylon k_ = s.pylon k_ := rfl
@[simp] theorem State.ctx_after (n : Nat) (i : Instr) (a : Arg) (k_ : CtxId) : (s.after n i a).ctx k_ = s.ctx k_ := rfl
@[simp] theorem State.core_after (n : Nat) (i : Instr) (a : Arg) (k_ : CoreId) : (s.after n i a).core k_ = s.core k_ := rfl
@[simp] theorem State.cluster_after (n : Nat) (i : Instr) (a : Arg) (k_ : Nat) : (s.after n i a).cluster k_ = s.cluster k_ := rfl
@[simp] theorem State.home_after (n : Nat) (i : Instr) (a : Arg) (k_ : Nat) : (s.after n i a).home k_ = s.home k_ := rfl
@[simp] theorem State.pylon_after (n : Nat) (i : Instr) (a : Arg) (k_ : Nat) : (s.after n i a).pylon k_ = s.pylon k_ := rfl
@[simp] theorem State.ctx_raiseMsix (v : Nat) (k_ : CtxId) : (s.raiseMsix v).ctx k_ = s.ctx k_ := rfl
@[simp] theorem State.core_raiseMsix (v : Nat) (k_ : CoreId) : (s.raiseMsix v).core k_ = s.core k_ := rfl
@[simp] theorem State.cluster_raiseMsix (v : Nat) (k_ : Nat) : (s.raiseMsix v).cluster k_ = s.cluster k_ := rfl
@[simp] theorem State.home_raiseMsix (v : Nat) (k_ : Nat) : (s.raiseMsix v).home k_ = s.home k_ := rfl
@[simp] theorem State.pylon_raiseMsix (v : Nat) (k_ : Nat) : (s.raiseMsix v).pylon k_ = s.pylon k_ := rfl

/-! ### Registers -/

@[simp] theorem State.rx_zero (c : CtxId) : s.rx c 0 = 0 := by simp [State.rx]
@[simp] theorem State.wx_zero (c : CtxId) (v : Nat) : s.wx c 0 v = s := by simp [State.wx]
@[simp] theorem State.rp_zero (c : CtxId) : s.rp c 0 = ones128 := by simp [State.rp]
@[simp] theorem State.wp_zero (c : CtxId) (v : Nat) : s.wp c 0 v = s := by simp [State.wp]

@[simp] theorem State.wx_cyc (c : CtxId) (r v : Nat) : (s.wx c r v).cyc = s.cyc := by unfold State.wx; split <;> rfl
@[simp] theorem State.wx_ctxs (c : CtxId) (r v : Nat) : (s.wx c r v).ctxs = s.ctxs := by unfold State.wx; split <;> rfl
@[simp] theorem State.wx_cores (c : CtxId) (r v : Nat) : (s.wx c r v).cores = s.cores := by unfold State.wx; split <;> rfl
@[simp] theorem State.wx_clusters (c : CtxId) (r v : Nat) : (s.wx c r v).clusters = s.clusters := by unfold State.wx; split <;> rfl
@[simp] theorem State.wx_homes (c : CtxId) (r v : Nat) : (s.wx c r v).homes = s.homes := by unfold State.wx; split <;> rfl
@[simp] theorem State.wx_pylons (c : CtxId) (r v : Nat) : (s.wx c r v).pylons = s.pylons := by unfold State.wx; split <;> rfl
@[simp] theorem State.wx_launches (c : CtxId) (r v : Nat) : (s.wx c r v).launches = s.launches := by unfold State.wx; split <;> rfl
@[simp] theorem State.wx_roots (c : CtxId) (r v : Nat) : (s.wx c r v).roots = s.roots := by unfold State.wx; split <;> rfl
@[simp] theorem State.wx_nextLid (c : CtxId) (r v : Nat) : (s.wx c r v).nextLid = s.nextLid := by unfold State.wx; split <;> rfl
@[simp] theorem State.wx_flight (c : CtxId) (r v : Nat) : (s.wx c r v).flight = s.flight := by unfold State.wx; split <;> rfl
@[simp] theorem State.wx_nextId (c : CtxId) (r v : Nat) : (s.wx c r v).nextId = s.nextId := by unfold State.wx; split <;> rfl
@[simp] theorem State.wx_emptyRows (c : CtxId) (r v : Nat) : (s.wx c r v).emptyRows = s.emptyRows := by unfold State.wx; split <;> rfl
@[simp] theorem State.wx_poison (c : CtxId) (r v : Nat) : (s.wx c r v).poison = s.poison := by unfold State.wx; split <;> rfl
@[simp] theorem State.wx_marks (c : CtxId) (r v : Nat) : (s.wx c r v).marks = s.marks := by unfold State.wx; split <;> rfl
@[simp] theorem State.wx_fsc (c : CtxId) (r v : Nat) : (s.wx c r v).fsc = s.fsc := by unfold State.wx; split <;> rfl
@[simp] theorem State.wx_failReason (c : CtxId) (r v : Nat) : (s.wx c r v).failReason = s.failReason := by unfold State.wx; split <;> rfl
@[simp] theorem State.wx_failStep (c : CtxId) (r v : Nat) : (s.wx c r v).failStep = s.failStep := by unfold State.wx; split <;> rfl
@[simp] theorem State.wx_away (c : CtxId) (r v : Nat) : (s.wx c r v).away = s.away := by unfold State.wx; split <;> rfl
@[simp] theorem State.wx_msix (c : CtxId) (r v : Nat) : (s.wx c r v).msix = s.msix := by unfold State.wx; split <;> rfl
@[simp] theorem State.wx_capKeys (c : CtxId) (r v : Nat) : (s.wx c r v).capKeys = s.capKeys := by unfold State.wx; split <;> rfl
@[simp] theorem State.wx_retries (c : CtxId) (r v : Nat) : (s.wx c r v).retries = s.retries := by unfold State.wx; split <;> rfl
@[simp] theorem State.wx_sysArr (c : CtxId) (r v : Nat) : (s.wx c r v).sysArr = s.sysArr := by unfold State.wx; split <;> rfl
@[simp] theorem State.wx_minimal (c : CtxId) (r v : Nat) : (s.wx c r v).minimal = s.minimal := by unfold State.wx; split <;> rfl
@[simp] theorem State.wx_bootImg (c : CtxId) (r v : Nat) : (s.wx c r v).bootImg = s.bootImg := by unfold State.wx; split <;> rfl
@[simp] theorem State.wx_acks (c : CtxId) (r v : Nat) : (s.wx c r v).acks = s.acks := by unfold State.wx; split <;> rfl
@[simp] theorem State.wx_agenda (c : CtxId) (r v : Nat) : (s.wx c r v).agenda = s.agenda := by unfold State.wx; split <;> rfl
@[simp] theorem State.wx_heldWrites (c : CtxId) (r v : Nat) : (s.wx c r v).heldWrites = s.heldWrites := by unfold State.wx; split <;> rfl
@[simp] theorem State.wx_moves (c : CtxId) (r v : Nat) : (s.wx c r v).moves = s.moves := by unfold State.wx; split <;> rfl
@[simp] theorem State.wx_free (c : CtxId) (r v : Nat) : (s.wx c r v).free = s.free := by unfold State.wx; split <;> rfl
@[simp] theorem State.wx_cur (c : CtxId) (r v : Nat) : (s.wx c r v).cur = s.cur := by unfold State.wx; split <;> rfl
@[simp] theorem State.wx_ir (c : CtxId) (r v : Nat) : (s.wx c r v).ir = s.ir := by unfold State.wx; split <;> rfl
@[simp] theorem State.wx_bad (c : CtxId) (r v : Nat) : (s.wx c r v).bad = s.bad := by unfold State.wx; split <;> rfl
@[simp] theorem State.wx_arg (c : CtxId) (r v : Nat) : (s.wx c r v).arg = s.arg := by unfold State.wx; split <;> rfl
@[simp] theorem State.wp_cyc (c : CtxId) (r v : Nat) : (s.wp c r v).cyc = s.cyc := by unfold State.wp; split <;> rfl
@[simp] theorem State.wp_ctxs (c : CtxId) (r v : Nat) : (s.wp c r v).ctxs = s.ctxs := by unfold State.wp; split <;> rfl
@[simp] theorem State.wp_cores (c : CtxId) (r v : Nat) : (s.wp c r v).cores = s.cores := by unfold State.wp; split <;> rfl
@[simp] theorem State.wp_clusters (c : CtxId) (r v : Nat) : (s.wp c r v).clusters = s.clusters := by unfold State.wp; split <;> rfl
@[simp] theorem State.wp_homes (c : CtxId) (r v : Nat) : (s.wp c r v).homes = s.homes := by unfold State.wp; split <;> rfl
@[simp] theorem State.wp_pylons (c : CtxId) (r v : Nat) : (s.wp c r v).pylons = s.pylons := by unfold State.wp; split <;> rfl
@[simp] theorem State.wp_launches (c : CtxId) (r v : Nat) : (s.wp c r v).launches = s.launches := by unfold State.wp; split <;> rfl
@[simp] theorem State.wp_roots (c : CtxId) (r v : Nat) : (s.wp c r v).roots = s.roots := by unfold State.wp; split <;> rfl
@[simp] theorem State.wp_nextLid (c : CtxId) (r v : Nat) : (s.wp c r v).nextLid = s.nextLid := by unfold State.wp; split <;> rfl
@[simp] theorem State.wp_flight (c : CtxId) (r v : Nat) : (s.wp c r v).flight = s.flight := by unfold State.wp; split <;> rfl
@[simp] theorem State.wp_nextId (c : CtxId) (r v : Nat) : (s.wp c r v).nextId = s.nextId := by unfold State.wp; split <;> rfl
@[simp] theorem State.wp_emptyRows (c : CtxId) (r v : Nat) : (s.wp c r v).emptyRows = s.emptyRows := by unfold State.wp; split <;> rfl
@[simp] theorem State.wp_poison (c : CtxId) (r v : Nat) : (s.wp c r v).poison = s.poison := by unfold State.wp; split <;> rfl
@[simp] theorem State.wp_marks (c : CtxId) (r v : Nat) : (s.wp c r v).marks = s.marks := by unfold State.wp; split <;> rfl
@[simp] theorem State.wp_fsc (c : CtxId) (r v : Nat) : (s.wp c r v).fsc = s.fsc := by unfold State.wp; split <;> rfl
@[simp] theorem State.wp_failReason (c : CtxId) (r v : Nat) : (s.wp c r v).failReason = s.failReason := by unfold State.wp; split <;> rfl
@[simp] theorem State.wp_failStep (c : CtxId) (r v : Nat) : (s.wp c r v).failStep = s.failStep := by unfold State.wp; split <;> rfl
@[simp] theorem State.wp_away (c : CtxId) (r v : Nat) : (s.wp c r v).away = s.away := by unfold State.wp; split <;> rfl
@[simp] theorem State.wp_msix (c : CtxId) (r v : Nat) : (s.wp c r v).msix = s.msix := by unfold State.wp; split <;> rfl
@[simp] theorem State.wp_capKeys (c : CtxId) (r v : Nat) : (s.wp c r v).capKeys = s.capKeys := by unfold State.wp; split <;> rfl
@[simp] theorem State.wp_retries (c : CtxId) (r v : Nat) : (s.wp c r v).retries = s.retries := by unfold State.wp; split <;> rfl
@[simp] theorem State.wp_sysArr (c : CtxId) (r v : Nat) : (s.wp c r v).sysArr = s.sysArr := by unfold State.wp; split <;> rfl
@[simp] theorem State.wp_minimal (c : CtxId) (r v : Nat) : (s.wp c r v).minimal = s.minimal := by unfold State.wp; split <;> rfl
@[simp] theorem State.wp_bootImg (c : CtxId) (r v : Nat) : (s.wp c r v).bootImg = s.bootImg := by unfold State.wp; split <;> rfl
@[simp] theorem State.wp_acks (c : CtxId) (r v : Nat) : (s.wp c r v).acks = s.acks := by unfold State.wp; split <;> rfl
@[simp] theorem State.wp_agenda (c : CtxId) (r v : Nat) : (s.wp c r v).agenda = s.agenda := by unfold State.wp; split <;> rfl
@[simp] theorem State.wp_heldWrites (c : CtxId) (r v : Nat) : (s.wp c r v).heldWrites = s.heldWrites := by unfold State.wp; split <;> rfl
@[simp] theorem State.wp_moves (c : CtxId) (r v : Nat) : (s.wp c r v).moves = s.moves := by unfold State.wp; split <;> rfl
@[simp] theorem State.wp_free (c : CtxId) (r v : Nat) : (s.wp c r v).free = s.free := by unfold State.wp; split <;> rfl
@[simp] theorem State.wp_cur (c : CtxId) (r v : Nat) : (s.wp c r v).cur = s.cur := by unfold State.wp; split <;> rfl
@[simp] theorem State.wp_ir (c : CtxId) (r v : Nat) : (s.wp c r v).ir = s.ir := by unfold State.wp; split <;> rfl
@[simp] theorem State.wp_bad (c : CtxId) (r v : Nat) : (s.wp c r v).bad = s.bad := by unfold State.wp; split <;> rfl
@[simp] theorem State.wp_arg (c : CtxId) (r v : Nat) : (s.wp c r v).arg = s.arg := by unfold State.wp; split <;> rfl
@[simp] theorem State.wq_cyc (c : CtxId) (r v : Nat) : (s.wq c r v).cyc = s.cyc := by simp only [State.wq]
@[simp] theorem State.wq_ctxs (c : CtxId) (r v : Nat) : (s.wq c r v).ctxs = s.ctxs := by simp only [State.wq]
@[simp] theorem State.wq_cores (c : CtxId) (r v : Nat) : (s.wq c r v).cores = s.cores := by simp only [State.wq]
@[simp] theorem State.wq_clusters (c : CtxId) (r v : Nat) : (s.wq c r v).clusters = s.clusters := by simp only [State.wq]
@[simp] theorem State.wq_homes (c : CtxId) (r v : Nat) : (s.wq c r v).homes = s.homes := by simp only [State.wq]
@[simp] theorem State.wq_pylons (c : CtxId) (r v : Nat) : (s.wq c r v).pylons = s.pylons := by simp only [State.wq]
@[simp] theorem State.wq_launches (c : CtxId) (r v : Nat) : (s.wq c r v).launches = s.launches := by simp only [State.wq]
@[simp] theorem State.wq_roots (c : CtxId) (r v : Nat) : (s.wq c r v).roots = s.roots := by simp only [State.wq]
@[simp] theorem State.wq_nextLid (c : CtxId) (r v : Nat) : (s.wq c r v).nextLid = s.nextLid := by simp only [State.wq]
@[simp] theorem State.wq_flight (c : CtxId) (r v : Nat) : (s.wq c r v).flight = s.flight := by simp only [State.wq]
@[simp] theorem State.wq_nextId (c : CtxId) (r v : Nat) : (s.wq c r v).nextId = s.nextId := by simp only [State.wq]
@[simp] theorem State.wq_emptyRows (c : CtxId) (r v : Nat) : (s.wq c r v).emptyRows = s.emptyRows := by simp only [State.wq]
@[simp] theorem State.wq_poison (c : CtxId) (r v : Nat) : (s.wq c r v).poison = s.poison := by simp only [State.wq]
@[simp] theorem State.wq_marks (c : CtxId) (r v : Nat) : (s.wq c r v).marks = s.marks := by simp only [State.wq]
@[simp] theorem State.wq_fsc (c : CtxId) (r v : Nat) : (s.wq c r v).fsc = s.fsc := by simp only [State.wq]
@[simp] theorem State.wq_failReason (c : CtxId) (r v : Nat) : (s.wq c r v).failReason = s.failReason := by simp only [State.wq]
@[simp] theorem State.wq_failStep (c : CtxId) (r v : Nat) : (s.wq c r v).failStep = s.failStep := by simp only [State.wq]
@[simp] theorem State.wq_away (c : CtxId) (r v : Nat) : (s.wq c r v).away = s.away := by simp only [State.wq]
@[simp] theorem State.wq_msix (c : CtxId) (r v : Nat) : (s.wq c r v).msix = s.msix := by simp only [State.wq]
@[simp] theorem State.wq_capKeys (c : CtxId) (r v : Nat) : (s.wq c r v).capKeys = s.capKeys := by simp only [State.wq]
@[simp] theorem State.wq_retries (c : CtxId) (r v : Nat) : (s.wq c r v).retries = s.retries := by simp only [State.wq]
@[simp] theorem State.wq_sysArr (c : CtxId) (r v : Nat) : (s.wq c r v).sysArr = s.sysArr := by simp only [State.wq]
@[simp] theorem State.wq_minimal (c : CtxId) (r v : Nat) : (s.wq c r v).minimal = s.minimal := by simp only [State.wq]
@[simp] theorem State.wq_bootImg (c : CtxId) (r v : Nat) : (s.wq c r v).bootImg = s.bootImg := by simp only [State.wq]
@[simp] theorem State.wq_acks (c : CtxId) (r v : Nat) : (s.wq c r v).acks = s.acks := by simp only [State.wq]
@[simp] theorem State.wq_agenda (c : CtxId) (r v : Nat) : (s.wq c r v).agenda = s.agenda := by simp only [State.wq]
@[simp] theorem State.wq_heldWrites (c : CtxId) (r v : Nat) : (s.wq c r v).heldWrites = s.heldWrites := by simp only [State.wq]
@[simp] theorem State.wq_moves (c : CtxId) (r v : Nat) : (s.wq c r v).moves = s.moves := by simp only [State.wq]
@[simp] theorem State.wq_free (c : CtxId) (r v : Nat) : (s.wq c r v).free = s.free := by simp only [State.wq]
@[simp] theorem State.wq_cur (c : CtxId) (r v : Nat) : (s.wq c r v).cur = s.cur := by simp only [State.wq]
@[simp] theorem State.wq_ir (c : CtxId) (r v : Nat) : (s.wq c r v).ir = s.ir := by simp only [State.wq]
@[simp] theorem State.wq_bad (c : CtxId) (r v : Nat) : (s.wq c r v).bad = s.bad := by simp only [State.wq]
@[simp] theorem State.wq_arg (c : CtxId) (r v : Nat) : (s.wq c r v).arg = s.arg := by simp only [State.wq]
@[simp] theorem State.wh_cyc (c : CtxId) (r v : Nat) : (s.wh c r v).cyc = s.cyc := by simp only [State.wh]
@[simp] theorem State.wh_ctxs (c : CtxId) (r v : Nat) : (s.wh c r v).ctxs = s.ctxs := by simp only [State.wh]
@[simp] theorem State.wh_cores (c : CtxId) (r v : Nat) : (s.wh c r v).cores = s.cores := by simp only [State.wh]
@[simp] theorem State.wh_clusters (c : CtxId) (r v : Nat) : (s.wh c r v).clusters = s.clusters := by simp only [State.wh]
@[simp] theorem State.wh_homes (c : CtxId) (r v : Nat) : (s.wh c r v).homes = s.homes := by simp only [State.wh]
@[simp] theorem State.wh_pylons (c : CtxId) (r v : Nat) : (s.wh c r v).pylons = s.pylons := by simp only [State.wh]
@[simp] theorem State.wh_launches (c : CtxId) (r v : Nat) : (s.wh c r v).launches = s.launches := by simp only [State.wh]
@[simp] theorem State.wh_roots (c : CtxId) (r v : Nat) : (s.wh c r v).roots = s.roots := by simp only [State.wh]
@[simp] theorem State.wh_nextLid (c : CtxId) (r v : Nat) : (s.wh c r v).nextLid = s.nextLid := by simp only [State.wh]
@[simp] theorem State.wh_flight (c : CtxId) (r v : Nat) : (s.wh c r v).flight = s.flight := by simp only [State.wh]
@[simp] theorem State.wh_nextId (c : CtxId) (r v : Nat) : (s.wh c r v).nextId = s.nextId := by simp only [State.wh]
@[simp] theorem State.wh_emptyRows (c : CtxId) (r v : Nat) : (s.wh c r v).emptyRows = s.emptyRows := by simp only [State.wh]
@[simp] theorem State.wh_poison (c : CtxId) (r v : Nat) : (s.wh c r v).poison = s.poison := by simp only [State.wh]
@[simp] theorem State.wh_marks (c : CtxId) (r v : Nat) : (s.wh c r v).marks = s.marks := by simp only [State.wh]
@[simp] theorem State.wh_fsc (c : CtxId) (r v : Nat) : (s.wh c r v).fsc = s.fsc := by simp only [State.wh]
@[simp] theorem State.wh_failReason (c : CtxId) (r v : Nat) : (s.wh c r v).failReason = s.failReason := by simp only [State.wh]
@[simp] theorem State.wh_failStep (c : CtxId) (r v : Nat) : (s.wh c r v).failStep = s.failStep := by simp only [State.wh]
@[simp] theorem State.wh_away (c : CtxId) (r v : Nat) : (s.wh c r v).away = s.away := by simp only [State.wh]
@[simp] theorem State.wh_msix (c : CtxId) (r v : Nat) : (s.wh c r v).msix = s.msix := by simp only [State.wh]
@[simp] theorem State.wh_capKeys (c : CtxId) (r v : Nat) : (s.wh c r v).capKeys = s.capKeys := by simp only [State.wh]
@[simp] theorem State.wh_retries (c : CtxId) (r v : Nat) : (s.wh c r v).retries = s.retries := by simp only [State.wh]
@[simp] theorem State.wh_sysArr (c : CtxId) (r v : Nat) : (s.wh c r v).sysArr = s.sysArr := by simp only [State.wh]
@[simp] theorem State.wh_minimal (c : CtxId) (r v : Nat) : (s.wh c r v).minimal = s.minimal := by simp only [State.wh]
@[simp] theorem State.wh_bootImg (c : CtxId) (r v : Nat) : (s.wh c r v).bootImg = s.bootImg := by simp only [State.wh]
@[simp] theorem State.wh_acks (c : CtxId) (r v : Nat) : (s.wh c r v).acks = s.acks := by simp only [State.wh]
@[simp] theorem State.wh_agenda (c : CtxId) (r v : Nat) : (s.wh c r v).agenda = s.agenda := by simp only [State.wh]
@[simp] theorem State.wh_heldWrites (c : CtxId) (r v : Nat) : (s.wh c r v).heldWrites = s.heldWrites := by simp only [State.wh]
@[simp] theorem State.wh_moves (c : CtxId) (r v : Nat) : (s.wh c r v).moves = s.moves := by simp only [State.wh]
@[simp] theorem State.wh_free (c : CtxId) (r v : Nat) : (s.wh c r v).free = s.free := by simp only [State.wh]
@[simp] theorem State.wh_cur (c : CtxId) (r v : Nat) : (s.wh c r v).cur = s.cur := by simp only [State.wh]
@[simp] theorem State.wh_ir (c : CtxId) (r v : Nat) : (s.wh c r v).ir = s.ir := by simp only [State.wh]
@[simp] theorem State.wh_bad (c : CtxId) (r v : Nat) : (s.wh c r v).bad = s.bad := by simp only [State.wh]
@[simp] theorem State.wh_arg (c : CtxId) (r v : Nat) : (s.wh c r v).arg = s.arg := by simp only [State.wh]
@[simp] theorem State.ws_cyc (c : CtxId) (r j v : Nat) : (s.ws c r j v).cyc = s.cyc := by simp only [State.ws]
@[simp] theorem State.ws_ctxs (c : CtxId) (r j v : Nat) : (s.ws c r j v).ctxs = s.ctxs := by simp only [State.ws]
@[simp] theorem State.ws_cores (c : CtxId) (r j v : Nat) : (s.ws c r j v).cores = s.cores := by simp only [State.ws]
@[simp] theorem State.ws_clusters (c : CtxId) (r j v : Nat) : (s.ws c r j v).clusters = s.clusters := by simp only [State.ws]
@[simp] theorem State.ws_homes (c : CtxId) (r j v : Nat) : (s.ws c r j v).homes = s.homes := by simp only [State.ws]
@[simp] theorem State.ws_pylons (c : CtxId) (r j v : Nat) : (s.ws c r j v).pylons = s.pylons := by simp only [State.ws]
@[simp] theorem State.ws_launches (c : CtxId) (r j v : Nat) : (s.ws c r j v).launches = s.launches := by simp only [State.ws]
@[simp] theorem State.ws_roots (c : CtxId) (r j v : Nat) : (s.ws c r j v).roots = s.roots := by simp only [State.ws]
@[simp] theorem State.ws_nextLid (c : CtxId) (r j v : Nat) : (s.ws c r j v).nextLid = s.nextLid := by simp only [State.ws]
@[simp] theorem State.ws_flight (c : CtxId) (r j v : Nat) : (s.ws c r j v).flight = s.flight := by simp only [State.ws]
@[simp] theorem State.ws_nextId (c : CtxId) (r j v : Nat) : (s.ws c r j v).nextId = s.nextId := by simp only [State.ws]
@[simp] theorem State.ws_emptyRows (c : CtxId) (r j v : Nat) : (s.ws c r j v).emptyRows = s.emptyRows := by simp only [State.ws]
@[simp] theorem State.ws_poison (c : CtxId) (r j v : Nat) : (s.ws c r j v).poison = s.poison := by simp only [State.ws]
@[simp] theorem State.ws_marks (c : CtxId) (r j v : Nat) : (s.ws c r j v).marks = s.marks := by simp only [State.ws]
@[simp] theorem State.ws_fsc (c : CtxId) (r j v : Nat) : (s.ws c r j v).fsc = s.fsc := by simp only [State.ws]
@[simp] theorem State.ws_failReason (c : CtxId) (r j v : Nat) : (s.ws c r j v).failReason = s.failReason := by simp only [State.ws]
@[simp] theorem State.ws_failStep (c : CtxId) (r j v : Nat) : (s.ws c r j v).failStep = s.failStep := by simp only [State.ws]
@[simp] theorem State.ws_away (c : CtxId) (r j v : Nat) : (s.ws c r j v).away = s.away := by simp only [State.ws]
@[simp] theorem State.ws_msix (c : CtxId) (r j v : Nat) : (s.ws c r j v).msix = s.msix := by simp only [State.ws]
@[simp] theorem State.ws_capKeys (c : CtxId) (r j v : Nat) : (s.ws c r j v).capKeys = s.capKeys := by simp only [State.ws]
@[simp] theorem State.ws_retries (c : CtxId) (r j v : Nat) : (s.ws c r j v).retries = s.retries := by simp only [State.ws]
@[simp] theorem State.ws_sysArr (c : CtxId) (r j v : Nat) : (s.ws c r j v).sysArr = s.sysArr := by simp only [State.ws]
@[simp] theorem State.ws_minimal (c : CtxId) (r j v : Nat) : (s.ws c r j v).minimal = s.minimal := by simp only [State.ws]
@[simp] theorem State.ws_bootImg (c : CtxId) (r j v : Nat) : (s.ws c r j v).bootImg = s.bootImg := by simp only [State.ws]
@[simp] theorem State.ws_acks (c : CtxId) (r j v : Nat) : (s.ws c r j v).acks = s.acks := by simp only [State.ws]
@[simp] theorem State.ws_agenda (c : CtxId) (r j v : Nat) : (s.ws c r j v).agenda = s.agenda := by simp only [State.ws]
@[simp] theorem State.ws_heldWrites (c : CtxId) (r j v : Nat) : (s.ws c r j v).heldWrites = s.heldWrites := by simp only [State.ws]
@[simp] theorem State.ws_moves (c : CtxId) (r j v : Nat) : (s.ws c r j v).moves = s.moves := by simp only [State.ws]
@[simp] theorem State.ws_free (c : CtxId) (r j v : Nat) : (s.ws c r j v).free = s.free := by simp only [State.ws]
@[simp] theorem State.ws_cur (c : CtxId) (r j v : Nat) : (s.ws c r j v).cur = s.cur := by simp only [State.ws]
@[simp] theorem State.ws_ir (c : CtxId) (r j v : Nat) : (s.ws c r j v).ir = s.ir := by simp only [State.ws]
@[simp] theorem State.ws_bad (c : CtxId) (r j v : Nat) : (s.ws c r j v).bad = s.bad := by simp only [State.ws]
@[simp] theorem State.ws_arg (c : CtxId) (r j v : Nat) : (s.ws c r j v).arg = s.arg := by simp only [State.ws]
@[simp] theorem State.wv_cyc (c : CtxId) (r v t : Nat) : (s.wv c r v t).cyc = s.cyc := by simp only [State.wv]
@[simp] theorem State.wv_ctxs (c : CtxId) (r v t : Nat) : (s.wv c r v t).ctxs = s.ctxs := by simp only [State.wv]
@[simp] theorem State.wv_cores (c : CtxId) (r v t : Nat) : (s.wv c r v t).cores = s.cores := by simp only [State.wv]
@[simp] theorem State.wv_clusters (c : CtxId) (r v t : Nat) : (s.wv c r v t).clusters = s.clusters := by simp only [State.wv]
@[simp] theorem State.wv_homes (c : CtxId) (r v t : Nat) : (s.wv c r v t).homes = s.homes := by simp only [State.wv]
@[simp] theorem State.wv_pylons (c : CtxId) (r v t : Nat) : (s.wv c r v t).pylons = s.pylons := by simp only [State.wv]
@[simp] theorem State.wv_launches (c : CtxId) (r v t : Nat) : (s.wv c r v t).launches = s.launches := by simp only [State.wv]
@[simp] theorem State.wv_roots (c : CtxId) (r v t : Nat) : (s.wv c r v t).roots = s.roots := by simp only [State.wv]
@[simp] theorem State.wv_nextLid (c : CtxId) (r v t : Nat) : (s.wv c r v t).nextLid = s.nextLid := by simp only [State.wv]
@[simp] theorem State.wv_flight (c : CtxId) (r v t : Nat) : (s.wv c r v t).flight = s.flight := by simp only [State.wv]
@[simp] theorem State.wv_nextId (c : CtxId) (r v t : Nat) : (s.wv c r v t).nextId = s.nextId := by simp only [State.wv]
@[simp] theorem State.wv_emptyRows (c : CtxId) (r v t : Nat) : (s.wv c r v t).emptyRows = s.emptyRows := by simp only [State.wv]
@[simp] theorem State.wv_poison (c : CtxId) (r v t : Nat) : (s.wv c r v t).poison = s.poison := by simp only [State.wv]
@[simp] theorem State.wv_marks (c : CtxId) (r v t : Nat) : (s.wv c r v t).marks = s.marks := by simp only [State.wv]
@[simp] theorem State.wv_fsc (c : CtxId) (r v t : Nat) : (s.wv c r v t).fsc = s.fsc := by simp only [State.wv]
@[simp] theorem State.wv_failReason (c : CtxId) (r v t : Nat) : (s.wv c r v t).failReason = s.failReason := by simp only [State.wv]
@[simp] theorem State.wv_failStep (c : CtxId) (r v t : Nat) : (s.wv c r v t).failStep = s.failStep := by simp only [State.wv]
@[simp] theorem State.wv_away (c : CtxId) (r v t : Nat) : (s.wv c r v t).away = s.away := by simp only [State.wv]
@[simp] theorem State.wv_msix (c : CtxId) (r v t : Nat) : (s.wv c r v t).msix = s.msix := by simp only [State.wv]
@[simp] theorem State.wv_capKeys (c : CtxId) (r v t : Nat) : (s.wv c r v t).capKeys = s.capKeys := by simp only [State.wv]
@[simp] theorem State.wv_retries (c : CtxId) (r v t : Nat) : (s.wv c r v t).retries = s.retries := by simp only [State.wv]
@[simp] theorem State.wv_sysArr (c : CtxId) (r v t : Nat) : (s.wv c r v t).sysArr = s.sysArr := by simp only [State.wv]
@[simp] theorem State.wv_minimal (c : CtxId) (r v t : Nat) : (s.wv c r v t).minimal = s.minimal := by simp only [State.wv]
@[simp] theorem State.wv_bootImg (c : CtxId) (r v t : Nat) : (s.wv c r v t).bootImg = s.bootImg := by simp only [State.wv]
@[simp] theorem State.wv_acks (c : CtxId) (r v t : Nat) : (s.wv c r v t).acks = s.acks := by simp only [State.wv]
@[simp] theorem State.wv_agenda (c : CtxId) (r v t : Nat) : (s.wv c r v t).agenda = s.agenda := by simp only [State.wv]
@[simp] theorem State.wv_heldWrites (c : CtxId) (r v t : Nat) : (s.wv c r v t).heldWrites = s.heldWrites := by simp only [State.wv]
@[simp] theorem State.wv_moves (c : CtxId) (r v t : Nat) : (s.wv c r v t).moves = s.moves := by simp only [State.wv]
@[simp] theorem State.wv_free (c : CtxId) (r v t : Nat) : (s.wv c r v t).free = s.free := by simp only [State.wv]
@[simp] theorem State.wv_cur (c : CtxId) (r v t : Nat) : (s.wv c r v t).cur = s.cur := by simp only [State.wv]
@[simp] theorem State.wv_ir (c : CtxId) (r v t : Nat) : (s.wv c r v t).ir = s.ir := by simp only [State.wv]
@[simp] theorem State.wv_bad (c : CtxId) (r v t : Nat) : (s.wv c r v t).bad = s.bad := by simp only [State.wv]
@[simp] theorem State.wv_arg (c : CtxId) (r v t : Nat) : (s.wv c r v t).arg = s.arg := by simp only [State.wv]
@[simp] theorem State.wi_cyc (c : CtxId) (r v t : Nat) : (s.wi c r v t).cyc = s.cyc := by simp only [State.wi]
@[simp] theorem State.wi_ctxs (c : CtxId) (r v t : Nat) : (s.wi c r v t).ctxs = s.ctxs := by simp only [State.wi]
@[simp] theorem State.wi_cores (c : CtxId) (r v t : Nat) : (s.wi c r v t).cores = s.cores := by simp only [State.wi]
@[simp] theorem State.wi_clusters (c : CtxId) (r v t : Nat) : (s.wi c r v t).clusters = s.clusters := by simp only [State.wi]
@[simp] theorem State.wi_homes (c : CtxId) (r v t : Nat) : (s.wi c r v t).homes = s.homes := by simp only [State.wi]
@[simp] theorem State.wi_pylons (c : CtxId) (r v t : Nat) : (s.wi c r v t).pylons = s.pylons := by simp only [State.wi]
@[simp] theorem State.wi_launches (c : CtxId) (r v t : Nat) : (s.wi c r v t).launches = s.launches := by simp only [State.wi]
@[simp] theorem State.wi_roots (c : CtxId) (r v t : Nat) : (s.wi c r v t).roots = s.roots := by simp only [State.wi]
@[simp] theorem State.wi_nextLid (c : CtxId) (r v t : Nat) : (s.wi c r v t).nextLid = s.nextLid := by simp only [State.wi]
@[simp] theorem State.wi_flight (c : CtxId) (r v t : Nat) : (s.wi c r v t).flight = s.flight := by simp only [State.wi]
@[simp] theorem State.wi_nextId (c : CtxId) (r v t : Nat) : (s.wi c r v t).nextId = s.nextId := by simp only [State.wi]
@[simp] theorem State.wi_emptyRows (c : CtxId) (r v t : Nat) : (s.wi c r v t).emptyRows = s.emptyRows := by simp only [State.wi]
@[simp] theorem State.wi_poison (c : CtxId) (r v t : Nat) : (s.wi c r v t).poison = s.poison := by simp only [State.wi]
@[simp] theorem State.wi_marks (c : CtxId) (r v t : Nat) : (s.wi c r v t).marks = s.marks := by simp only [State.wi]
@[simp] theorem State.wi_fsc (c : CtxId) (r v t : Nat) : (s.wi c r v t).fsc = s.fsc := by simp only [State.wi]
@[simp] theorem State.wi_failReason (c : CtxId) (r v t : Nat) : (s.wi c r v t).failReason = s.failReason := by simp only [State.wi]
@[simp] theorem State.wi_failStep (c : CtxId) (r v t : Nat) : (s.wi c r v t).failStep = s.failStep := by simp only [State.wi]
@[simp] theorem State.wi_away (c : CtxId) (r v t : Nat) : (s.wi c r v t).away = s.away := by simp only [State.wi]
@[simp] theorem State.wi_msix (c : CtxId) (r v t : Nat) : (s.wi c r v t).msix = s.msix := by simp only [State.wi]
@[simp] theorem State.wi_capKeys (c : CtxId) (r v t : Nat) : (s.wi c r v t).capKeys = s.capKeys := by simp only [State.wi]
@[simp] theorem State.wi_retries (c : CtxId) (r v t : Nat) : (s.wi c r v t).retries = s.retries := by simp only [State.wi]
@[simp] theorem State.wi_sysArr (c : CtxId) (r v t : Nat) : (s.wi c r v t).sysArr = s.sysArr := by simp only [State.wi]
@[simp] theorem State.wi_minimal (c : CtxId) (r v t : Nat) : (s.wi c r v t).minimal = s.minimal := by simp only [State.wi]
@[simp] theorem State.wi_bootImg (c : CtxId) (r v t : Nat) : (s.wi c r v t).bootImg = s.bootImg := by simp only [State.wi]
@[simp] theorem State.wi_acks (c : CtxId) (r v t : Nat) : (s.wi c r v t).acks = s.acks := by simp only [State.wi]
@[simp] theorem State.wi_agenda (c : CtxId) (r v t : Nat) : (s.wi c r v t).agenda = s.agenda := by simp only [State.wi]
@[simp] theorem State.wi_heldWrites (c : CtxId) (r v t : Nat) : (s.wi c r v t).heldWrites = s.heldWrites := by simp only [State.wi]
@[simp] theorem State.wi_moves (c : CtxId) (r v t : Nat) : (s.wi c r v t).moves = s.moves := by simp only [State.wi]
@[simp] theorem State.wi_free (c : CtxId) (r v t : Nat) : (s.wi c r v t).free = s.free := by simp only [State.wi]
@[simp] theorem State.wi_cur (c : CtxId) (r v t : Nat) : (s.wi c r v t).cur = s.cur := by simp only [State.wi]
@[simp] theorem State.wi_ir (c : CtxId) (r v t : Nat) : (s.wi c r v t).ir = s.ir := by simp only [State.wi]
@[simp] theorem State.wi_bad (c : CtxId) (r v t : Nat) : (s.wi c r v t).bad = s.bad := by simp only [State.wi]
@[simp] theorem State.wi_arg (c : CtxId) (r v t : Nat) : (s.wi c r v t).arg = s.arg := by simp only [State.wi]

end

/-- A write of a register keeps memory's form. -/
theorem State.wf_wx {s : State} (c : CtxId) (r v : Nat) (h : Mem.wf s.mem = true) : Mem.wf (s.wx c r v).mem = true := by
  unfold State.wx; split; exact h; exact Mem.wf_write _ _ _ h
theorem State.wf_wp {s : State} (c : CtxId) (r v : Nat) (h : Mem.wf s.mem = true) : Mem.wf (s.wp c r v).mem = true := by
  unfold State.wp; split; exact h; exact Mem.wf_write _ _ _ h
theorem State.wf_wv {s : State} (c : CtxId) (r v t : Nat) (h : Mem.wf s.mem = true) : Mem.wf (s.wv c r v t).mem = true := by
  simp only [State.wv]; exact Mem.wf_write _ _ _ (Mem.wf_write _ _ _ h)
theorem State.wf_wi {s : State} (c : CtxId) (r v t : Nat) (h : Mem.wf s.mem = true) : Mem.wf (s.wi c r v t).mem = true := by
  simp only [State.wi]; exact Mem.wf_write _ _ _ (Mem.wf_write _ _ _ h)
theorem State.wf_wq {s : State} (c : CtxId) (r v : Nat) (h : Mem.wf s.mem = true) : Mem.wf (s.wq c r v).mem = true := by
  simp only [State.wq]; exact Mem.wf_write _ _ _ h
theorem State.wf_wh {s : State} (c : CtxId) (r v : Nat) (h : Mem.wf s.mem = true) : Mem.wf (s.wh c r v).mem = true := by
  simp only [State.wh]; exact Mem.wf_write _ _ _ h
theorem State.wf_ws {s : State} (c : CtxId) (r j v : Nat) (h : Mem.wf s.mem = true) : Mem.wf (s.ws c r j v).mem = true := by
  simp only [State.ws]; exact Mem.wf_write _ _ _ h

/-! ### The end of a word -/

@[simp] theorem State.goOn_mem (s : State) (c : CtxId) (pc : Word) : (s.goOn c pc).mem = s.mem := rfl
@[simp] theorem State.advance_mem (s : State) (c : CtxId) : (s.advance c).mem = s.mem := rfl
@[simp] theorem State.sleep_mem (s : State) (c : CtxId) (w : Wait) : (s.sleep c w).mem = s.mem := rfl
@[simp] theorem State.wake_mem (s : State) (c : CtxId) : (s.wake c).mem = s.mem := rfl
@[simp] theorem State.advance_pc (s : State) (c : CtxId) : ((s.advance c).ctx c).pc = (s.ctx c).pc + 4 := by
  simp [State.advance, State.goOn]
@[simp] theorem State.goOn_pc (s : State) (c : CtxId) (pc : Word) : ((s.goOn c pc).ctx c).pc = pc := by simp [State.goOn]

end Sys2Proof.Machine
end

