-- ==== Sys2Proof/Laws/Frame.lean ====
section
/-! SUPPORT. The frame of a word: what `word` answers for each way that an effect ends, and what `prep` gives a word without
hints. -/

namespace Sys2Proof.Machine

variable {g : Sig} {s t t' : State} {o : Opnds} {body : Opnds → State → Chk Out}

/-- Whatever a word does, the machine goes on. -/
theorem word_goes_on (g : Sig) (s : State) (body : Opnds → State → Chk Out) : ∃ t, word g s body = .next t := ⟨_, rfl⟩

/-- Once its operands are at hand, a word is its effect. -/
theorem word_of_prep (h : prep g s = .ok (o, t)) : word g s body = .next (s.finish s.cur (body o t)) := by
  simp only [word, h]; rfl
theorem word_done (h : prep g s = .ok (o, t)) (hb : body o t = .ok (.done t')) : word g s body = .next (t'.advance s.cur) := by
  rw [word_of_prep h, hb]; rfl
theorem word_goto {pc : Nat} (h : prep g s = .ok (o, t)) (hb : body o t = .ok (.goto t' pc)) :
    word g s body = .next (t'.goOn s.cur (Word.ofN pc)) := by
  rw [word_of_prep h, hb]; rfl
theorem word_left (h : prep g s = .ok (o, t)) (hb : body o t = .ok (.left t')) : word g s body = .next t' := by
  rw [word_of_prep h, hb]; rfl
theorem word_call {why : Trap} (h : prep g s = .ok (o, t)) (hb : body o t = .ok (.call t' why)) :
    word g s body = .next (t'.takeTrap s.cur why ((t'.ctx s.cur).pc + 4) s.ir.toNat) := by
  rw [word_of_prep h, hb]; rfl
theorem word_trap {why : Trap} (h : prep g s = .ok (o, t)) (hb : body o t = .error (.trap why)) :
    word g s body = .next (s.takeTrap s.cur why (s.ctx s.cur).resume s.ir.toNat) := by
  rw [word_of_prep h, hb]; rfl
/-- A word that fails a check has no effect but its trap. -/
theorem word_prep_trap {why : Trap} (h : prep g s = .error (.trap why)) :
    word g s body = .next (s.takeTrap s.cur why (s.ctx s.cur).resume s.ir.toNat) := by
  simp only [word, h]; rfl

/-- A scalar result that has a place to go. -/
theorem retX_ok {u : State} {c : CtxId} {r v : Nat} (h : u.putX c o r v = .ok t') : retX u c o r v = .ok (.done t') := by
  simp only [retX, h]; rfl
theorem retV_ok {u : State} {c : CtxId} {r v tag : Nat} (h : u.putV c o r v tag = .ok t') : retV u c o r v tag = .ok (.done t') := by
  simp only [retV, h]; rfl
/-- Without a direction a scalar result goes to its register. -/
theorem putX_register {u : State} {c : CtxId} {r v : Nat} (h : o.m.dst = 0) : u.putX c o r v = .ok ((u.cancel c 1 r).wx c r v) := by
  simp [State.putX, h]
theorem putV_register {u : State} {c : CtxId} {r v tag : Nat} (h : o.m.dst = 0) :
    u.putV c o r v tag = .ok ((u.cancel c 2 r).wv c r v tag) := by
  simp [State.putV, h]
/-- No value is on its way to a register that is complete. -/
theorem cancel_complete {c : CtxId} {cls reg : Nat} (h : s.pending c cls reg = false) : s.cancel c cls reg = s := by
  simp [State.cancel, h]

/-- A word of x registers without hints, on a core and at a level that may run it, has in hand what its source registers hold, when they
are complete and no memory is poisoned (R418). -/
theorem prep_plain {ra rb rd' : Nat} (hb0 : s.bad = none) (hi : (s.ctx s.cur).chainImm = none) (hm : (s.ctx s.cur).chainMod = none)
    (hp : s.poison = []) (hu : unitCheck g {} s.cur.core.kind s.ir.toNat = .ok ())
    (hl : levelCheck (s.ctx s.cur).level g.level s.ir.toNat = .ok ()) (hd : g.d = none ∨ g.d = wr .x rd')
    (ha : g.a = none ∨ (g.a = rd .x ra ∧ s.pending s.cur 1 ra = false))
    (hb : g.b = none ∨ (g.b = rd .x rb ∧ s.pending s.cur 1 rb = false)) (hc : g.c = none) (hx : g.apart = false) :
    ∃ o : Opnds, prep g s = .ok (o, s) ∧ o.m = {} ∧ (g.a = rd .x ra → o.a = s.rx s.cur ra) ∧ (g.b = rd .x rb → o.b = s.rx s.cur rb) := by
  have hlt : ∀ r, s.rx s.cur r % 18446744073709551616 = s.rx s.cur r := by
    intro r; apply Nat.mod_eq_of_lt; simp only [State.rx]; split
    · omega
    · exact Mem.read_lt _ _ _
  have no (q : Option Opr) : noStream q 0 = false := by cases q <;> simp [noStream]
  have ok {α β : Type} (a : α) (f : α → Chk β) : (Except.ok a >>= f) = f a := rfl
  have pu {α : Type} (a : α) : (pure a : Chk α) = .ok a := rfl
  unfold prep
  simp only [hi, hm, Option.getD_none, hintCheck, hb0, no, bne_self_eq_false, Bool.false_and, Bool.or_false,
    if_false, replacedCheck, hx, hu, hl, ok, pu, hc, State.source, Bool.false_eq_true, ne_eq, not_true_eq_false, false_and]
  rcases ha with ha | ⟨ha, pa⟩ <;> rcases hb with hb | ⟨hb, pb⟩ <;> rcases hd with hd | hd <;>
    simp_all [State.readReg, rd, wr, Opr.take, Cls.num]

end Sys2Proof.Machine
end

