-- ==== Sys2Proof/Laws/Access.lean ====
section
/-! SUPPORT. What the shared operations of accesses, writes and traps can do: when an access is performed in its issue cycle, what a
write leaves in memory, and that sending an access and taking a trap write no memory. -/

namespace Sys2Proof.Machine

variable {s t : State} {f : Access}

/-- An access is performed in its issue cycle exactly at a near place, with nothing that it must follow (R147, R148). -/
theorem State.atOnce_true {p : Place} : s.atOnce p f = .ok true ↔ p.near f.ctx = true ∧ s.ahead f = [] := by
  unfold State.atOnce
  split
  · rename_i h; simp_all
  · split <;> simp_all
    split <;> simp
/-- Elsewhere it is sent. -/
theorem State.atOnce_far {p : Place} (h : p.near f.ctx = false) : s.atOnce p f = .ok false := by simp [State.atOnce, h]
/-- At the own window it waits for what it must follow (R81). -/
theorem State.atOnce_waits {p : Place} {ids : List Nat} (h : s.atOnce p f = .error (.retry (.accesses ids))) :
    s.ownWindow f.ctx f.key = true ∧ s.ahead f = ids := by
  unfold State.atOnce at h
  split at h
  · cases h
  · split at h
    · cases h
    · split at h
      · exact ⟨by assumption, by injection h with h; injection h with h; injection h⟩
      · cases h

/-! ### Writes -/

@[simp] theorem State.fireWatch_mem (k n m : Nat) (b : Bool) : (s.fireWatch k n m b).mem = s.mem := rfl
@[simp] theorem State.overtake_mem (k n m : Nat) (w : Option CtxId) : (s.overtake k n m w).mem = s.mem := rfl
@[simp] theorem State.clearPoison_mem (k n m : Nat) : (s.clearPoison k n m).mem = s.mem := by unfold State.clearPoison; split <;> rfl
/-- Bytes of a write whose mask is 1 are written, but for a register that the hardware keeps (R80). -/
theorem State.wrBytes_mem (k n v m : Nat) (w : Option CtxId) :
    (s.wrBytes k n v m w).mem = Mem.writeMask s.mem k n v (if s.hardZero k then m / 256 * 256 else m) := by
  simp only [State.wrBytes]
  split <;> split <;> simp
/-- A write of bytes keeps the canonical form of memory. -/
theorem State.wf_wrBytes (k n v m : Nat) (w : Option CtxId) (h : Mem.wf s.mem = true) : Mem.wf (s.wrBytes k n v m w).mem = true := by
  rw [State.wrBytes_mem]; exact Mem.wf_writeMask _ _ _ _ h
@[simp] theorem State.stampBlock_mem (p b : Nat) (m : Master) : (s.stampBlock p m b).mem = s.mem := by
  simp only [State.stampBlock]; split <;> rfl
/-- A stamp is kept apart from memory (R190). -/
@[simp] theorem State.stampAll_mem (ps : List (Nat × Nat)) : (s.stampAll ps).mem = s.mem := by
  unfold State.stampAll
  generalize (ps.flatMap fun p => s.blocksOf p.1 p.2).eraseDups = l
  induction l generalizing s with
  | nil => rfl
  | cons e l ih => rw [List.foldl_cons, ih]; split <;> simp
@[simp] theorem State.stamp_mem (k n : Nat) : (s.stamp k n).mem = s.mem := by simp [State.stamp]

/-! ### Sending, and traps -/

@[simp] theorem State.snapBoundary_mem (c : CtxId) : (s.snapBoundary c).mem = s.mem := rfl
@[simp] theorem State.loadNow_mem (v l : Nat) : (s.loadNow f v l).mem = s.mem := rfl
@[simp] theorem State.taken_mem (l : List Nat) (v : Nat) : (s.taken f l v).1.mem = s.mem := by
  simp only [State.taken]; split
  · rfl
  · split <;> rfl
/-- Sending an access writes no memory. -/
@[simp] theorem State.send_mem : (s.send f).mem = s.mem := by
  simp only [State.send]
  split
  · split <;> split <;> (try split) <;> simp
  · split <;> split <;> simp
@[simp] theorem State.sfuWithdraw_mem (c : CtxId) (lv : Option Level) : (s.sfuWithdraw c lv).mem = s.mem := by
  simp only [State.sfuWithdraw]
  split
  · rfl
  · rw [State.setCtx_mem]
    generalize (sfuAdvance s.cyc s.cyc _).1 = q
    generalize hs : s.setCore c.core _ = u
    have hu : u.mem = s.mem := by rw [← hs]; rfl
    rw [← hu]
    clear hs hu
    induction q generalizing u with
    | nil => rfl
    | cons r q ih => rw [List.foldl_cons, ih]; split <;> simp
@[simp] theorem State.dropLinkWords_mem (c : CtxId) : (s.dropLinkWords c).mem = s.mem := by
  simp only [State.dropLinkWords]; split
  · rfl
  · split <;> simp
/-- A trap that a handler takes writes no memory (R410). -/
theorem State.takeTrap_mem {c : CtxId} {w : Trap} {lv : Level} {pc : Word} {i : Nat} (h : (s.ctx c).handler w = some lv) :
    (s.takeTrap c w pc i).mem = s.mem := by simp [State.takeTrap, h]

end Sys2Proof.Machine
end

