-- ==== Sys2Proof/Laws/Dispatch.lean ====
section
/-! SUPPORT. What `exec` runs for each constructor, so that no proof unfolds its table. -/

namespace Sys2Proof.Machine

section
variable (s : State)

theorem exec_start (a b n : Nat) (keep : Bool) : exec (.start a b n keep) s = execStart a b n keep s := rfl
theorem exec_joinh (n : Nat) : exec (.joinh n) s = execJoinh n s := rfl
theorem exec_wfi (d a : Nat) : exec (.wfi d a) s = execWfi d a s := rfl
theorem exec_pgate (d a : Nat) : exec (.pgate d a) s = execPgate d a s := rfl
theorem exec_cstop (a b : Nat) : exec (.cstop a b) s = execCstop a b s := rfl
theorem exec_cresume (a b : Nat) : exec (.cresume a b) s = execCresume a b s := rfl
theorem exec_launch (a : Nat) : exec (.launch a) s = execLaunch a s := rfl
theorem exec_qpost (a : Nat) : exec (.qpost a) s = execQpost a s := rfl
theorem exec_tlbinvAsid (b : Nat) : exec (.tlbinvAsid b) s = execTlbinvAsid b s := rfl
theorem exec_tlbinvPage (a b : Nat) : exec (.tlbinvPage a b) s = execTlbinvPage a b s := rfl
theorem exec_add (d a b : Nat) : exec (.add d a b) s = execAdd d a b s := rfl
theorem exec_sub (d a b : Nat) : exec (.sub d a b) s = execSub d a b s := rfl
theorem exec_and (d a b : Nat) : exec (.and d a b) s = execAnd d a b s := rfl
theorem exec_or (d a b : Nat) : exec (.or d a b) s = execOr d a b s := rfl
theorem exec_xor (d a b : Nat) : exec (.xor d a b) s = execXor d a b s := rfl
theorem exec_shl (d a b : Nat) : exec (.shl d a b) s = execShl d a b s := rfl
theorem exec_shr (d a b : Nat) : exec (.shr d a b) s = execShr d a b s := rfl
theorem exec_sra (d a b : Nat) : exec (.sra d a b) s = execSra d a b s := rfl
theorem exec_mul (d a b : Nat) : exec (.mul d a b) s = execMul d a b s := rfl
theorem exec_mulh (d a b : Nat) : exec (.mulh d a b) s = execMulh d a b s := rfl
theorem exec_mulhu (d a b : Nat) : exec (.mulhu d a b) s = execMulhu d a b s := rfl
theorem exec_div (d a b : Nat) : exec (.div d a b) s = execDiv d a b s := rfl
theorem exec_divu (d a b : Nat) : exec (.divu d a b) s = execDivu d a b s := rfl
theorem exec_rem (d a b : Nat) : exec (.rem d a b) s = execRem d a b s := rfl
theorem exec_remu (d a b : Nat) : exec (.remu d a b) s = execRemu d a b s := rfl
theorem exec_min (d a b : Nat) : exec (.min d a b) s = execMin d a b s := rfl
theorem exec_max (d a b : Nat) : exec (.max d a b) s = execMax d a b s := rfl
theorem exec_minu (d a b : Nat) : exec (.minu d a b) s = execMinu d a b s := rfl
theorem exec_maxu (d a b : Nat) : exec (.maxu d a b) s = execMaxu d a b s := rfl
theorem exec_slt (d a b : Nat) : exec (.slt d a b) s = execSlt d a b s := rfl
theorem exec_sltu (d a b : Nat) : exec (.sltu d a b) s = execSltu d a b s := rfl
theorem exec_seq (d a b : Nat) : exec (.seq d a b) s = execSeq d a b s := rfl
theorem exec_sel (d a b c : Nat) : exec (.sel d a b c) s = execSel d a b c s := rfl
theorem exec_clz (d a : Nat) : exec (.clz d a) s = execClz d a s := rfl
theorem exec_ctz (d a : Nat) : exec (.ctz d a) s = execCtz d a s := rfl
theorem exec_popc (d a : Nat) : exec (.popc d a) s = execPopc d a s := rfl
theorem exec_addw (d a b : Nat) : exec (.addw d a b) s = execAddw d a b s := rfl
theorem exec_subw (d a b : Nat) : exec (.subw d a b) s = execSubw d a b s := rfl
theorem exec_mkpa (d a b : Nat) : exec (.mkpa d a b) s = execMkpa d a b s := rfl
theorem exec_mkpaRel (d a b : Nat) : exec (.mkpaRel d a b) s = execMkpaRel d a b s := rfl
theorem exec_addi (d a imm : Nat) : exec (.addi d a imm) s = execAddi d a imm s := rfl
theorem exec_andi (d a imm : Nat) : exec (.andi d a imm) s = execAndi d a imm s := rfl
theorem exec_ori (d a imm : Nat) : exec (.ori d a imm) s = execOri d a imm s := rfl
theorem exec_xori (d a imm : Nat) : exec (.xori d a imm) s = execXori d a imm s := rfl
theorem exec_shli (d a n n5 : Nat) : exec (.shli d a n n5) s = execShli d a n n5 s := rfl
theorem exec_shri (d a n n5 : Nat) : exec (.shri d a n n5) s = execShri d a n n5 s := rfl
theorem exec_srai (d a n n5 : Nat) : exec (.srai d a n n5) s = execSrai d a n n5 s := rfl
theorem exec_movi (d imm : Nat) : exec (.movi d imm) s = execMovi d imm s := rfl
theorem exec_movk (d pos imm : Nat) : exec (.movk d pos imm) s = execMovk d pos imm s := rfl
theorem exec_slti (d a imm : Nat) : exec (.slti d a imm) s = execSlti d a imm s := rfl
theorem exec_ld (d a : Nat) (k : AccKind) (sz : Nat) (sg : Bool) (off : Nat) : exec (.ld d a k sz sg off) s = execLd d a k sz sg off s := rfl
theorem exec_st (d a : Nat) (k : AccKind) (sz off : Nat) : exec (.st d a k sz off) s = execSt d a k sz off s := rfl
theorem exec_aadd (d a b ord scope : Nat) (anch : Bool) : exec (.aadd d a b ord scope anch) s = execAadd d a b ord scope anch s := rfl
theorem exec_aand (d a b ord scope : Nat) (anch : Bool) : exec (.aand d a b ord scope anch) s = execAand d a b ord scope anch s := rfl
theorem exec_aor (d a b ord scope : Nat) (anch : Bool) : exec (.aor d a b ord scope anch) s = execAor d a b ord scope anch s := rfl
theorem exec_axor (d a b ord scope : Nat) (anch : Bool) : exec (.axor d a b ord scope anch) s = execAxor d a b ord scope anch s := rfl
theorem exec_amin (d a b ord scope : Nat) (anch : Bool) : exec (.amin d a b ord scope anch) s = execAmin d a b ord scope anch s := rfl
theorem exec_amax (d a b ord scope : Nat) (anch : Bool) : exec (.amax d a b ord scope anch) s = execAmax d a b ord scope anch s := rfl
theorem exec_aminu (d a b ord scope : Nat) (anch : Bool) : exec (.aminu d a b ord scope anch) s = execAminu d a b ord scope anch s := rfl
theorem exec_amaxu (d a b ord scope : Nat) (anch : Bool) : exec (.amaxu d a b ord scope anch) s = execAmaxu d a b ord scope anch s := rfl
theorem exec_aswp (d a b ord scope : Nat) (anch : Bool) : exec (.aswp d a b ord scope anch) s = execAswp d a b ord scope anch s := rfl
theorem exec_acas (d a b ord scope : Nat) (anch : Bool) : exec (.acas d a b ord scope anch) s = execAcas d a b ord scope anch s := rfl
theorem exec_ainc (d a ord scope : Nat) (anch : Bool) : exec (.ainc d a ord scope anch) s = execAinc d a ord scope anch s := rfl
theorem exec_afadd (d a b ord scope : Nat) (anch : Bool) : exec (.afadd d a b ord scope anch) s = execAfadd d a b ord scope anch s := rfl
theorem exec_beq (a b off : Nat) : exec (.beq a b off) s = execBeq a b off s := rfl
theorem exec_bne (a b off : Nat) : exec (.bne a b off) s = execBne a b off s := rfl
theorem exec_blt (a b off : Nat) : exec (.blt a b off) s = execBlt a b off s := rfl
theorem exec_bge (a b off : Nat) : exec (.bge a b off) s = execBge a b off s := rfl
theorem exec_bltu (a b off : Nat) : exec (.bltu a b off) s = execBltu a b off s := rfl
theorem exec_bgeu (a b off : Nat) : exec (.bgeu a b off) s = execBgeu a b off s := rfl
theorem exec_bz (a off : Nat) : exec (.bz a off) s = execBz a off s := rfl
theorem exec_bnz (a off : Nat) : exec (.bnz a off) s = execBnz a off s := rfl
theorem exec_j (off : Nat) : exec (.j off) s = execJ off s := rfl
theorem exec_jal (off : Nat) : exec (.jal off) s = execJal off s := rfl
theorem exec_jr (a : Nat) : exec (.jr a) s = execJr a s := rfl
theorem exec_jalr (d a : Nat) : exec (.jalr d a) s = execJalr d a s := rfl
theorem exec_loop (d imm : Nat) : exec (.loop d imm) s = execLoop d imm s := rfl
theorem exec_csrr (d csr : Nat) : exec (.csrr d csr) s = execCsrr d csr s := rfl
theorem exec_csrw (d a csr : Nat) : exec (.csrw d a csr) s = execCsrw d a csr s := rfl
theorem exec_csrs (d a csr : Nat) : exec (.csrs d a csr) s = execCsrs d a csr s := rfl
theorem exec_csrc (d a csr : Nat) : exec (.csrc d a csr) s = execCsrc d a csr s := rfl
theorem exec_fenceX (a b : Nat) : exec (.fenceX a b) s = execFenceX a b s := rfl
theorem exec_phase (b : Nat) (ex : Bool) : exec (.phase b ex) s = execPhase b ex s := rfl
theorem exec_parrive (b : Nat) (ex : Bool) : exec (.parrive b ex) s = execParrive b ex s := rfl
theorem exec_bdom (a : Nat) : exec (.bdom a) s = execBdom a s := rfl
theorem exec_bexp (a b : Nat) : exec (.bexp a b) s = execBexp a b s := rfl
theorem exec_mon (d a b n : Nat) : exec (.mon d a b n) s = execMon d a b n s := rfl
theorem exec_mwait (d : Nat) : exec (.mwait d) s = execMwait d s := rfl
theorem exec_waitt (a : Nat) : exec (.waitt a) s = execWaitt a s := rfl
theorem exec_ewait (a : Nat) : exec (.ewait a) s = execEwait a s := rfl
theorem exec_xbegin (b : Nat) (ex : Bool) : exec (.xbegin b ex) s = execXbegin b ex s := rfl
theorem exec_preduce (a b : Nat) (ex : Bool) (ty op : Nat) : exec (.preduce a b ex ty op) s = execPreduce a b ex ty op s := rfl
theorem exec_tpost (a b : Nat) : exec (.tpost a b) s = execTpost a b s := rfl
theorem exec_tpostC (a b : Nat) : exec (.tpostC a b) s = execTpostC a b s := rfl
theorem exec_tsteal (d a b : Nat) : exec (.tsteal d a b) s = execTsteal d a b s := rfl
theorem exec_tjoin (a b : Nat) : exec (.tjoin a b) s = execTjoin a b s := rfl
theorem exec_twait (d a : Nat) : exec (.twait d a) s = execTwait d a s := rfl
theorem exec_pcall (a : Nat) : exec (.pcall a) s = execPcall a s := rfl
theorem exec_qinfo (d a b : Nat) : exec (.qinfo d a b) s = execQinfo d a b s := rfl
theorem exec_send (d a : Nat) : exec (.send d a) s = execSend d a s := rfl
theorem exec_sende (d a : Nat) : exec (.sende d a) s = execSende d a s := rfl
theorem exec_recv (d : Nat) : exec (.recv d) s = execRecv d s := rfl
theorem exec_rpeek (d : Nat) : exec (.rpeek d) s = execRpeek d s := rfl
theorem exec_gpost (a : Nat) : exec (.gpost a) s = execGpost a s := rfl
theorem exec_msend (a b : Nat) : exec (.msend a b) s = execMsend a b s := rfl
theorem exec_mcap (d a : Nat) : exec (.mcap d a) s = execMcap d a s := rfl
theorem exec_vld (d a fs : Nat) (k : AccKind) (off : Nat) : exec (.vld d a fs k off) s = execVld d a fs k off s := rfl
theorem exec_vst (d a fs : Nat) (k : AccKind) (off : Nat) : exec (.vst d a fs k off) s = execVst d a fs k off s := rfl
theorem exec_vadd (d a b : Nat) : exec (.vadd d a b) s = execVadd d a b s := rfl
theorem exec_vsub (d a b : Nat) : exec (.vsub d a b) s = execVsub d a b s := rfl
theorem exec_vmul (d a b : Nat) : exec (.vmul d a b) s = execVmul d a b s := rfl
theorem exec_vfma (d a b c : Nat) : exec (.vfma d a b c) s = execVfma d a b c s := rfl
theorem exec_vfms (d a b c : Nat) : exec (.vfms d a b c) s = execVfms d a b c s := rfl
theorem exec_vmin (d a b : Nat) : exec (.vmin d a b) s = execVmin d a b s := rfl
theorem exec_vmax (d a b : Nat) : exec (.vmax d a b) s = execVmax d a b s := rfl
theorem exec_vminp (d a b : Nat) : exec (.vminp d a b) s = execVminp d a b s := rfl
theorem exec_vmaxp (d a b : Nat) : exec (.vmaxp d a b) s = execVmaxp d a b s := rfl
theorem exec_vabs (d a : Nat) : exec (.vabs d a) s = execVabs d a s := rfl
theorem exec_vneg (d a : Nat) : exec (.vneg d a) s = execVneg d a s := rfl
theorem exec_vand (d a b : Nat) : exec (.vand d a b) s = execVand d a b s := rfl
theorem exec_vor (d a b : Nat) : exec (.vor d a b) s = execVor d a b s := rfl
theorem exec_vxor (d a b : Nat) : exec (.vxor d a b) s = execVxor d a b s := rfl
theorem exec_vnot (d a : Nat) : exec (.vnot d a) s = execVnot d a s := rfl
theorem exec_vshl (d a b : Nat) : exec (.vshl d a b) s = execVshl d a b s := rfl
theorem exec_vshr (d a b : Nat) : exec (.vshr d a b) s = execVshr d a b s := rfl
theorem exec_vsra (d a b : Nat) : exec (.vsra d a b) s = execVsra d a b s := rfl
theorem exec_vadds (d a b : Nat) : exec (.vadds d a b) s = execVadds d a b s := rfl
theorem exec_vsubs (d a b : Nat) : exec (.vsubs d a b) s = execVsubs d a b s := rfl
theorem exec_vmov (d a : Nat) : exec (.vmov d a) s = execVmov d a s := rfl
theorem exec_vcmpeq (d a b : Nat) : exec (.vcmpeq d a b) s = execVcmpeq d a b s := rfl
theorem exec_vcmplt (d a b : Nat) : exec (.vcmplt d a b) s = execVcmplt d a b s := rfl
theorem exec_vcmple (d a b : Nat) : exec (.vcmple d a b) s = execVcmple d a b s := rfl
theorem exec_vcmpne (d a b : Nat) : exec (.vcmpne d a b) s = execVcmpne d a b s := rfl
theorem exec_vsel (d a b c : Nat) : exec (.vsel d a b c) s = execVsel d a b c s := rfl
theorem exec_vperm (d a b : Nat) : exec (.vperm d a b) s = execVperm d a b s := rfl
theorem exec_vslide (d a b c : Nat) : exec (.vslide d a b c) s = execVslide d a b c s := rfl
theorem exec_vzip (d a b : Nat) (h : Bool) : exec (.vzip d a b h) s = execVzip d a b h s := rfl
theorem exec_vunzip (d a b : Nat) (h : Bool) : exec (.vunzip d a b h) s = execVunzip d a b h s := rfl
theorem exec_pand (d a b : Nat) : exec (.pand d a b) s = execPand d a b s := rfl
theorem exec_por (d a b : Nat) : exec (.por d a b) s = execPor d a b s := rfl
theorem exec_pnot (d a : Nat) : exec (.pnot d a) s = execPnot d a s := rfl
theorem exec_pcnt (d a : Nat) : exec (.pcnt d a) s = execPcnt d a s := rfl
theorem exec_vcvt (d a p c : Nat) : exec (.vcvt d a p c) s = execVcvt d a p c s := rfl
theorem exec_vquant (d a c : Nat) : exec (.vquant d a c) s = execVquant d a c s := rfl
theorem exec_vdeq (d a p c : Nat) : exec (.vdeq d a p c) s = execVdeq d a p c s := rfl
theorem exec_vretag (d a b : Nat) (ireg : Bool) : exec (.vretag d a b ireg) s = execVretag d a b ireg s := rfl
theorem exec_vtagr (d a : Nat) (ireg : Bool) : exec (.vtagr d a ireg) s = execVtagr d a ireg s := rfl
theorem exec_vscale (d a b : Nat) : exec (.vscale d a b) s = execVscale d a b s := rfl
theorem exec_vpack (d a b : Nat) : exec (.vpack d a b) s = execVpack d a b s := rfl
theorem exec_vunpk (d a : Nat) (h : Bool) (c : Nat) : exec (.vunpk d a h c) s = execVunpk d a h c s := rfl
theorem exec_vexp2 (d a b c : Nat) : exec (.vexp2 d a b c) s = execVexp2 d a b c s := rfl
theorem exec_vlog2 (d a : Nat) : exec (.vlog2 d a) s = execVlog2 d a s := rfl
theorem exec_vrcp (d a : Nat) : exec (.vrcp d a) s = execVrcp d a s := rfl
theorem exec_vrsqrt (d a : Nat) : exec (.vrsqrt d a) s = execVrsqrt d a s := rfl
theorem exec_vsqrt (d a : Nat) : exec (.vsqrt d a) s = execVsqrt d a s := rfl
theorem exec_vdiv (d a b : Nat) : exec (.vdiv d a b) s = execVdiv d a b s := rfl
theorem exec_vtanh (d a : Nat) : exec (.vtanh d a) s = execVtanh d a s := rfl
theorem exec_vsigm (d a : Nat) : exec (.vsigm d a) s = execVsigm d a s := rfl
theorem exec_vrsum (d a : Nat) : exec (.vrsum d a) s = execVrsum d a s := rfl
theorem exec_vrmax (d a : Nat) : exec (.vrmax d a) s = execVrmax d a s := rfl
theorem exec_vrmin (d a : Nat) : exec (.vrmin d a) s = execVrmin d a s := rfl
theorem exec_vbcast (d a c : Nat) : exec (.vbcast d a c) s = execVbcast d a c s := rfl
theorem exec_vmovx (d a b : Nat) : exec (.vmovx d a b) s = execVmovx d a b s := rfl
theorem exec_vins (d a b : Nat) : exec (.vins d a b) s = execVins d a b s := rfl
theorem exec_vrsump (d a : Nat) : exec (.vrsump d a) s = execVrsump d a s := rfl
theorem exec_sbind (d a : Nat) : exec (.sbind d a) s = execSbind d a s := rfl
theorem exec_sfree (d : Nat) : exec (.sfree d) s = execSfree d s := rfl
theorem exec_sstat (d a : Nat) : exec (.sstat d a) s = execSstat d a s := rfl
theorem exec_ild (d a fs : Nat) (k : AccKind) (off : Nat) : exec (.ild d a fs k off) s = execIld d a fs k off s := rfl
theorem exec_ist (d a fs : Nat) (k : AccKind) (off : Nat) : exec (.ist d a fs k off) s = execIst d a fs k off s := rfl
theorem exec_iadd (d a b : Nat) : exec (.iadd d a b) s = execIadd d a b s := rfl
theorem exec_isub (d a b : Nat) : exec (.isub d a b) s = execIsub d a b s := rfl
theorem exec_imul (d a b : Nat) : exec (.imul d a b) s = execImul d a b s := rfl
theorem exec_idiv (d a b : Nat) : exec (.idiv d a b) s = execIdiv d a b s := rfl
theorem exec_isqr (d a : Nat) : exec (.isqr d a) s = execIsqr d a s := rfl
theorem exec_isqrt (d a : Nat) : exec (.isqrt d a) s = execIsqrt d a s := rfl
theorem exec_iexp2 (d a : Nat) : exec (.iexp2 d a) s = execIexp2 d a s := rfl
theorem exec_ilog2 (d a : Nat) : exec (.ilog2 d a) s = execIlog2 d a s := rfl
theorem exec_imin (d a b : Nat) : exec (.imin d a b) s = execImin d a b s := rfl
theorem exec_imax (d a b : Nat) : exec (.imax d a b) s = execImax d a b s := rfl
theorem exec_irelu (d a : Nat) : exec (.irelu d a) s = execIrelu d a s := rfl
theorem exec_ineg (d a : Nat) : exec (.ineg d a) s = execIneg d a s := rfl
theorem exec_iabs (d a : Nat) : exec (.iabs d a) s = execIabs d a s := rfl
theorem exec_ifma (d a b c : Nat) : exec (.ifma d a b c) s = execIfma d a b c s := rfl
theorem exec_iscale (d a b : Nat) : exec (.iscale d a b) s = execIscale d a b s := rfl
theorem exec_cadd (d a b : Nat) : exec (.cadd d a b) s = execCadd d a b s := rfl
theorem exec_csub (d a b : Nat) : exec (.csub d a b) s = execCsub d a b s := rfl
theorem exec_cmul (d a b : Nat) : exec (.cmul d a b) s = execCmul d a b s := rfl
theorem exec_cdiv (d a b : Nat) : exec (.cdiv d a b) s = execCdiv d a b s := rfl
theorem exec_csqr (d a : Nat) : exec (.csqr d a) s = execCsqr d a s := rfl
theorem exec_csqrt (d a : Nat) : exec (.csqrt d a) s = execCsqrt d a s := rfl
theorem exec_cexp2 (d a : Nat) : exec (.cexp2 d a) s = execCexp2 d a s := rfl
theorem exec_cmax (d a b : Nat) : exec (.cmax d a b) s = execCmax d a b s := rfl
theorem exec_cmin (d a b : Nat) : exec (.cmin d a b) s = execCmin d a b s := rfl
theorem exec_crelu (d a : Nat) : exec (.crelu d a) s = execCrelu d a s := rfl
theorem exec_cabs (d a : Nat) : exec (.cabs d a) s = execCabs d a s := rfl
theorem exec_ihull (d a b : Nat) : exec (.ihull d a b) s = execIhull d a b s := rfl
theorem exec_imeet (d a b : Nat) : exec (.imeet d a b) s = execImeet d a b s := rfl
theorem exec_isplit (d a b : Nat) : exec (.isplit d a b) s = execIsplit d a b s := rfl
theorem exec_imid (d a : Nat) (h : Bool) : exec (.imid d a h) s = execImid d a h s := rfl
theorem exec_irad (d a : Nat) (h : Bool) : exec (.irad d a h) s = execIrad d a h s := rfl
theorem exec_iwid (d a : Nat) (h : Bool) : exec (.iwid d a h) s = execIwid d a h s := rfl
theorem exec_imk (d a b : Nat) (h : Bool) : exec (.imk d a b h) s = execImk d a b h s := rfl
theorem exec_ilo (d a : Nat) (h : Bool) : exec (.ilo d a h) s = execIlo d a h s := rfl
theorem exec_ihi (d a : Nat) (h : Bool) : exec (.ihi d a h) s = execIhi d a h s := rfl
theorem exec_iempty (d : Nat) (w : Bool) : exec (.iempty d w) s = execIempty d w s := rfl
theorem exec_iclt (d a b : Nat) : exec (.iclt d a b) s = execIclt d a b s := rfl
theorem exec_icle (d a b : Nat) : exec (.icle d a b) s = execIcle d a b s := rfl
theorem exec_iceq (d a b : Nat) : exec (.iceq d a b) s = execIceq d a b s := rfl
theorem exec_isubset (d a b : Nat) : exec (.isubset d a b) s = execIsubset d a b s := rfl
theorem exec_idisj (d a b : Nat) : exec (.idisj d a b) s = execIdisj d a b s := rfl
theorem exec_iisemp (d a : Nat) : exec (.iisemp d a) s = execIisemp d a s := rfl
theorem exec_qand (d a b : Nat) : exec (.qand d a b) s = execQand d a b s := rfl
theorem exec_qor (d a b : Nat) : exec (.qor d a b) s = execQor d a b s := rfl
theorem exec_qnot (d a : Nat) : exec (.qnot d a) s = execQnot d a s := rfl
theorem exec_qall (d a : Nat) (h : Bool) : exec (.qall d a h) s = execQall d a h s := rfl
theorem exec_qany (d a : Nat) (h : Bool) : exec (.qany d a h) s = execQany d a h s := rfl
theorem exec_qsel (d a b c : Nat) : exec (.qsel d a b c) s = execQsel d a b c s := rfl
theorem exec_iprog (d : Nat) : exec (.iprog d) s = execIprog d s := rfl
theorem exec_mma (d a b sq : Nat) : exec (.mma d a b sq) s = execMma d a b sq s := rfl
theorem exec_mmaiv (d a b sq : Nat) : exec (.mmaiv d a b sq) s = execMmaiv d a b sq s := rfl
theorem exec_mma64 (d a b c : Nat) : exec (.mma64 d a b c) s = execMma64 d a b c s := rfl
theorem exec_mldw (d a b n : Nat) : exec (.mldw d a b n) s = execMldw d a b n s := rfl
theorem exec_mzero (d : Nat) (w : Bool) : exec (.mzero d w) s = execMzero d w s := rfl
theorem exec_mdrain (d a b r : Nat) : exec (.mdrain d a b r) s = execMdrain d a b r s := rfl
theorem exec_msync (l : Bool) : exec (.msync l) s = execMsync l s := rfl
theorem exec_mstat (d a : Nat) (l : Bool) : exec (.mstat d a l) s = execMstat d a l s := rfl
theorem exec_vwreg (d a : Nat) : exec (.vwreg d a) s = execVwreg d a s := rfl
theorem exec_vwdel (a : Nat) : exec (.vwdel a) s = execVwdel a s := rfl
theorem exec_vwsync (a : Nat) : exec (.vwsync a) s = execVwsync a s := rfl
theorem exec_vwpol (a b : Nat) : exec (.vwpol a b) s = execVwpol a b s := rfl
theorem exec_vwstat (d a : Nat) : exec (.vwstat d a) s = execVwstat d a s := rfl
theorem exec_vwkick (a : Nat) : exec (.vwkick a) s = execVwkick a s := rfl
theorem exec_hld (d a : Nat) : exec (.hld d a) s = execHld d a s := rfl
theorem exec_hqry (d a b : Nat) : exec (.hqry d a b) s = execHqry d a b s := rfl
theorem exec_hclr (d : Nat) : exec (.hclr d) s = execHclr d s := rfl
theorem exec_fmtset (d a : Nat) : exec (.fmtset d a) s = execFmtset d a s := rfl
theorem exec_fmtget (d a : Nat) : exec (.fmtget d a) s = execFmtget d a s := rfl
theorem exec_vlds (d a b c : Nat) : exec (.vlds d a b c) s = execVlds d a b c s := rfl
theorem exec_vsts (d a b : Nat) (m : Bool) : exec (.vsts d a b m) s = execVsts d a b m s := rfl
theorem exec_vldm (d a b n : Nat) : exec (.vldm d a b n) s = execVldm d a b n s := rfl
theorem exec_vstm (d a b n : Nat) : exec (.vstm d a b n) s = execVstm d a b n s := rfl
theorem exec_vldi (d a b c : Nat) : exec (.vldi d a b c) s = execVldi d a b c s := rfl
theorem exec_vsti (d a b c : Nat) : exec (.vsti d a b c) s = execVsti d a b c s := rfl
theorem exec_nop : exec .nop s = execNop s := rfl
theorem exec_halt : exec .halt s = execHalt s := rfl
theorem exec_yield : exec .yield s = execYield s := rfl
theorem exec_trap : exec .trap s = execTrap s := rfl
theorem exec_scall : exec .scall s = execScall s := rfl
theorem exec_eret : exec .eret s = execEret s := rfl
theorem exec_tlbinvAll : exec .tlbinvAll s = execTlbinvAll s := rfl
theorem exec_brk : exec .brk s = execBrk s := rfl
theorem exec_ret : exec .ret s = execRet s := rfl
theorem exec_fenceO : exec .fenceO s = execFenceO s := rfl
theorem exec_pwait : exec .pwait s = execPwait s := rfl
theorem exec_snapinv : exec .snapinv s = execSnapinv s := rfl
theorem exec_xend : exec .xend s = execXend s := rfl
theorem exec_tret : exec .tret s = execTret s := rfl
theorem exec_tleave : exec .tleave s = execTleave s := rfl
theorem exec_hintImm : exec .hintImm s = execHintImm s := rfl
theorem exec_hintMod : exec .hintMod s = execHintMod s := rfl
theorem exec_hintDly : exec .hintDly s = execHintDly s := rfl
theorem exec_hintPrf : exec .hintPrf s = execHintPrf s := rfl
theorem exec_asyncTrapTake : exec .asyncTrapTake s = execAsyncTrapTake s := rfl
theorem exec_delayExpiry : exec .delayExpiry s = execDelayExpiry s := rfl
theorem exec_yieldEnd : exec .yieldEnd s = execYieldEnd s := rfl
theorem exec_cpGo : exec .cpGo s = execCpGo s := rfl
theorem exec_copyComplete : exec .copyComplete s = execCopyComplete s := rfl
theorem exec_promiseMissed : exec .promiseMissed s = execPromiseMissed s := rfl
theorem exec_gatherDescriptorRun : exec .gatherDescriptorRun s = execGatherDescriptorRun s := rfl
theorem exec_matrixCommandRun : exec .matrixCommandRun s = execMatrixCommandRun s := rfl
theorem exec_downFifoRecordTake : exec .downFifoRecordTake s = execDownFifoRecordTake s := rfl
theorem exec_msendRecordArrival : exec .msendRecordArrival s = execMsendRecordArrival s := rfl
theorem exec_sfuResult : exec .sfuResult s = execSfuResult s := rfl
theorem exec_tlbWalkEnd : exec .tlbWalkEnd s = execTlbWalkEnd s := rfl
theorem exec_accessAtOrderingPoint : exec .accessAtOrderingPoint s = execAccessAtOrderingPoint s := rfl
theorem exec_loadValueReturn : exec .loadValueReturn s = execLoadValueReturn s := rfl
theorem exec_storeAck : exec .storeAck s = execStoreAck s := rfl
theorem exec_feTimeout : exec .feTimeout s = execFeTimeout s := rfl
theorem exec_streamReadAhead : exec .streamReadAhead s = execStreamReadAhead s := rfl
theorem exec_mwaitTimeout : exec .mwaitTimeout s = execMwaitTimeout s := rfl
theorem exec_waittExpiry : exec .waittExpiry s = execWaittExpiry s := rfl
theorem exec_twaitTimeout : exec .twaitTimeout s = execTwaitTimeout s := rfl
theorem exec_wfiTimeout : exec .wfiTimeout s = execWfiTimeout s := rfl
theorem exec_linkValueArrival : exec .linkValueArrival s = execLinkValueArrival s := rfl
theorem exec_fifoEntryVisible : exec .fifoEntryVisible s = execFifoEntryVisible s := rfl
theorem exec_routedWordArrival : exec .routedWordArrival s = execRoutedWordArrival s := rfl
theorem exec_scheduleLimit : exec .scheduleLimit s = execScheduleLimit s := rfl
theorem exec_coreArrival : exec .coreArrival s = execCoreArrival s := rfl
theorem exec_barrierRelease : exec .barrierRelease s = execBarrierRelease s := rfl
theorem exec_systemBarrierRelease : exec .systemBarrierRelease s = execSystemBarrierRelease s := rfl
theorem exec_barrierTimeout : exec .barrierTimeout s = execBarrierTimeout s := rfl
theorem exec_tpostArrival : exec .tpostArrival s = execTpostArrival s := rfl
theorem exec_counterReport : exec .counterReport s = execCounterReport s := rfl
theorem exec_watchReread : exec .watchReread s = execWatchReread s := rfl
theorem exec_taskUrgentDue : exec .taskUrgentDue s = execTaskUrgentDue s := rfl
theorem exec_tstealArrival : exec .tstealArrival s = execTstealArrival s := rfl
theorem exec_tstealAnswerArrival : exec .tstealAnswerArrival s = execTstealAnswerArrival s := rfl
theorem exec_offerArrival : exec .offerArrival s = execOfferArrival s := rfl
theorem exec_tjoinArrival : exec .tjoinArrival s = execTjoinArrival s := rfl
theorem exec_tleaveArrival : exec .tleaveArrival s = execTleaveArrival s := rfl
theorem exec_qinfoArrival : exec .qinfoArrival s = execQinfoArrival s := rfl
theorem exec_tretArrival : exec .tretArrival s = execTretArrival s := rfl
theorem exec_tretAnswerArrival : exec .tretAnswerArrival s = execTretAnswerArrival s := rfl
theorem exec_pierJobEnd : exec .pierJobEnd s = execPierJobEnd s := rfl
theorem exec_pcallAccept : exec .pcallAccept s = execPcallAccept s := rfl
theorem exec_pcallAcceptNews : exec .pcallAcceptNews s = execPcallAcceptNews s := rfl
theorem exec_refreshDue : exec .refreshDue s = execRefreshDue s := rfl
theorem exec_governorSample : exec .governorSample s = execGovernorSample s := rfl
theorem exec_dirtyNotice : exec .dirtyNotice s = execDirtyNotice s := rfl
theorem exec_viewBlockRefresh : exec .viewBlockRefresh s = execViewBlockRefresh s := rfl
theorem exec_computeCommandTake : exec .computeCommandTake s = execComputeCommandTake s := rfl
theorem exec_placementWaitExpiry : exec .placementWaitExpiry s = execPlacementWaitExpiry s := rfl
theorem exec_copyJobTake : exec .copyJobTake s = execCopyJobTake s := rfl
theorem exec_inMemoryJobTake : exec .inMemoryJobTake s = execInMemoryJobTake s := rfl
theorem exec_commandAging : exec .commandAging s = execCommandAging s := rfl
theorem exec_startCapture : exec .startCapture s = execStartCapture s := rfl
theorem exec_stopCapture : exec .stopCapture s = execStopCapture s := rfl
theorem exec_launchCompletion : exec .launchCompletion s = execLaunchCompletion s := rfl
theorem exec_clusterGate : exec .clusterGate s = execClusterGate s := rfl
theorem exec_packIdleGate : exec .packIdleGate s = execPackIdleGate s := rfl
theorem exec_clusterWakeDone : exec .clusterWakeDone s = execClusterWakeDone s := rfl
theorem exec_wakeFailure : exec .wakeFailure s = execWakeFailure s := rfl
theorem exec_cstopRequestArrival : exec .cstopRequestArrival s = execCstopRequestArrival s := rfl
theorem exec_contextStop : exec .contextStop s = execContextStop s := rfl
theorem exec_stopAckArrival : exec .stopAckArrival s = execStopAckArrival s := rfl
theorem exec_packetStopLimit : exec .packetStopLimit s = execPacketStopLimit s := rfl
theorem exec_coreSave : exec .coreSave s = execCoreSave s := rfl
theorem exec_coreRestore : exec .coreRestore s = execCoreRestore s := rfl
theorem exec_preciseStopArm : exec .preciseStopArm s = execPreciseStopArm s := rfl
theorem exec_preciseStopLift : exec .preciseStopLift s = execPreciseStopLift s := rfl
theorem exec_replayControlWrite : exec .replayControlWrite s = execReplayControlWrite s := rfl
theorem exec_capabilityEpochAdvance : exec .capabilityEpochAdvance s = execCapabilityEpochAdvance s := rfl
theorem exec_pierQuiesceWrite : exec .pierQuiesceWrite s = execPierQuiesceWrite s := rfl
theorem exec_rowRepair : exec .rowRepair s = execRowRepair s := rfl
theorem exec_startGoodWrite : exec .startGoodWrite s = execStartGoodWrite s := rfl
theorem exec_controlWordWrite : exec .controlWordWrite s = execControlWordWrite s := rfl
theorem exec_attestationSign : exec .attestationSign s = execAttestationSign s := rfl
theorem exec_powerOnReset : exec .powerOnReset s = execPowerOnReset s := rfl
theorem exec_warmReset : exec .warmReset s = execWarmReset s := rfl
theorem exec_bootStart : exec .bootStart s = execBootStart s := rfl
theorem exec_startWatchdog : exec .startWatchdog s = execStartWatchdog s := rfl
theorem exec_recoveryImageMessage : exec .recoveryImageMessage s = execRecoveryImageMessage s := rfl
theorem exec_hostRingHeadWrite : exec .hostRingHeadWrite s = execHostRingHeadWrite s := rfl
theorem exec_hostRingTailWrite : exec .hostRingTailWrite s = execHostRingTailWrite s := rfl
theorem exec_peerRequestArrival : exec .peerRequestArrival s = execPeerRequestArrival s := rfl
theorem exec_peerTimeout : exec .peerTimeout s = execPeerTimeout s := rfl
theorem exec_flitCrcFail : exec .flitCrcFail s = execFlitCrcFail s := rfl
theorem exec_uncorrectableError : exec .uncorrectableError s = execUncorrectableError s := rfl
theorem exec_commandBlockArrival : exec .commandBlockArrival s = execCommandBlockArrival s := rfl
theorem exec_commandQueuedNews : exec .commandQueuedNews s = execCommandQueuedNews s := rfl
theorem exec_viewRequestArrival : exec .viewRequestArrival s = execViewRequestArrival s := rfl
theorem exec_viewAnswerArrival : exec .viewAnswerArrival s = execViewAnswerArrival s := rfl
theorem exec_msendAnswerArrival : exec .msendAnswerArrival s = execMsendAnswerArrival s := rfl
theorem exec_counterReadAnswer : exec .counterReadAnswer s = execCounterReadAnswer s := rfl
theorem exec_coreSaveDone : exec .coreSaveDone s = execCoreSaveDone s := rfl
theorem exec_rowRepairDone : exec .rowRepairDone s = execRowRepairDone s := rfl
theorem exec_stagingRegionWrite : exec .stagingRegionWrite s = execStagingRegionWrite s := rfl
theorem exec_debugHaltBegin : exec .debugHaltBegin s = execDebugHaltBegin s := rfl
theorem exec_debugHaltEnd : exec .debugHaltEnd s = execDebugHaltEnd s := rfl

end

end Sys2Proof.Machine
end

