-- ==== Sys2Proof/Tests/Slice0.lean ====
section
/-! SUPPORT. Tests: decoding of words as the spec writes them, well-formedness, single steps on small states, and for every
statement with hypotheses a state that meets them. Each theorem is a check of fixed values. -/

namespace Sys2Proof.Machine

/-- The state with typed values in vector registers: number, slot, value. -/
def State.withV (s : State) (vs : List (Nat × Nat × Nat)) : State := vs.foldl (fun s v => s.wv s.cur v.1 v.2.2 (16384 + v.2.1)) s
/-- The same, with VA pages 0 to 3 (64 KB) in the TLB at the physical page of the same number, writable. -/
def State.mapped (s : State) : State :=
  let u := s.cur.core
  { s with clusters := Tab.set s.clusters (tlbNo u) { s.cluster (tlbNo u) with
    tlb := (upFrom 0 4).map fun n => { asid := 1, page := n, big := false, pa := n * 65536, w := true, x := true, vsrc := false, d := true } } }
/-- Changes to the context in issue. -/
def State.own (s : State) (f : Ctx → Ctx) : State := s.setCtx s.cur (f (s.ctx s.cur))
/-- The argument of a step. -/
def State.with_ (s : State) (c : CtxId) (ns : List Nat) : State := { s with arg := { ctx := c, ns := ns } }

end Sys2Proof.Machine

namespace Sys2Proof.Tests
set_option Elab.async false
open Sys2Proof Sys2Proof.Machine Sys2Proof.Claims

/-! ### Helpers -/

/-- Does a word decode to an instruction? -/
def decodes (w : Nat) (i : Instr) : Bool := match decodeWord w with
  | .ok j => decide (j = i)
  | .error _ => false
/-- Is a word refused with a FIELD? -/
def refused (w f : Nat) : Bool := match decodeWord w with
  | .ok _ => false
  | .error g => decide (g = f)
/-- Do the checks that come first pass, with operands and a state of which p holds? -/
def met (g : Sig) (s : State) (p : Opnds → State → Bool) : Bool := match prep g s with
  | .ok (o, t) => p o t
  | .error _ => false
/-- Does a check pass, with a result of which p holds? -/
def okay {ε α : Type} (r : Except ε α) (p : α → Bool) : Bool := match r with
  | .ok x => p x
  | .error _ => false
/-- Does it end in a trap of a cause, DETAIL and value? -/
def traps {α : Type} (r : Chk α) (cause detail val : Nat) : Bool := match r with
  | .error (.trap t) => t.cause == cause && t.detail == detail && t.val == val
  | _ => false
/-- Does an instruction end in a next state of which p holds? -/
def after (i : Instr) (s : State) (p : State → Bool) : Bool := match exec i s with
  | .next t => p t
  | _ => false

theorem met_spec {g : Sig} {s : State} {p : Opnds → State → Bool} (h : met g s p = true) :
    ∃ o t, prep g s = .ok (o, t) ∧ p o t = true := by
  unfold met at h
  split at h
  · exact ⟨_, _, by assumption, h⟩
  · cases h

theorem okay_spec {ε α : Type} {r : Except ε α} {p : α → Bool} (h : okay r p = true) : ∃ x, r = .ok x ∧ p x = true := by
  cases r with
  | error _ => cases h
  | ok x => exact ⟨x, rfl, h⟩

theorem after_spec {i : Instr} {s : State} {p : State → Bool} (h : after i s p = true) : ∃ t, exec i s = .next t ∧ p t = true := by
  unfold after at h
  split at h
  · exact ⟨_, by assumption, h⟩
  · cases h

/-- A span core, its deck core, and a service core. -/
def spanA : CoreId := ⟨.span, 0, 0, 0⟩
def deckA : CoreId := ⟨.deck, 0, 0, 0⟩
def svcA : CoreId := ⟨.service, 0, 0, 0⟩
/-- A launch of one cluster. -/
def launchA : Launch :=
  { id := 1, pyls := 1, orgX := 0, orgY := 0, extW := 2, extH := 2, asid := 1, root := 0, part := 0, lperm := true, power := 0,
    dmask := 32, doms := [(5, [spanA])], started := true }
/-- Context 0 of a core in issue at pc 0x1000, with values in its scalar registers. -/
def at_ (u : CoreId) (lv : Level) (regs : List (Nat × Nat)) : State :=
  let c : CtxId := ⟨u, 0⟩
  let s : State := { ctxs := [(c, { st := .ready, level := lv, pc := 4096, asid := 1 })],
                     cores := [(u, { lid := 1, pw := 43, memb := 33 })], launches := [launchA], cur := c }
  regs.foldl (fun s r => s.wx c r.1 r.2) s
/-- The span core's state at U. -/
def span (regs : List (Nat × Nat)) : State := at_ spanA .u regs
/-- Is it a target that R279 allows? -/
def good (pc : Nat) : Bool := pc % 4 == 0 && bits pc 63 60 == 0
/-- Can a scalar result be put where the word directs it? -/
def puts (d : Nat) (v : Opnds → State → Nat) (o : Opnds) (t : State) : Bool := okay (t.putX t.cur o d (v o t)) fun _ => true
/-- The access that context 0 of the span core makes at a place. -/
def made (p : Place) (act : Act) (k : AccKind) (va n cls reg : Nat) : Access :=
  { p.access ⟨spanA, 0⟩ act k va n with dcls := cls, dreg := reg }
/-- Is nothing on its way that an access has to follow? -/
def clear (t : State) (f : Access) : Bool := (t.ahead f).isEmpty
/-- Own pool at offset 0x18000, a neighbour's pool there, VA 0x10000. -/
def poolVa : Nat := 4611686018427486208
def nextVa : Nat := 4611756387171663872
def memVa : Nat := 65536
/-- The windows of the core. -/
def winVa : Nat := 8070450532247928832
/-- An access of the span core's context 0 to VA 0x10000, with number 7. -/
def acc (act : Act) (k : AccKind) : Access := { id := 7, ctx := ⟨spanA, 0⟩, act := act, kind := k, key := memVa, va := memVa, n := 8, val := 5 }
/-- Does a check end in a trap? -/
def stops {α : Type} (r : Chk α) : Bool := match r with
  | .error (.trap _) => true
  | _ => false
/-- A loan in SNAP mode of 2,048 doublewords at VA 0x10000. -/
def loanA (buf : List Held) : Grant :=
  { home := 0, queue := 0, seq := 0, va := memVa, pa := memVa, len8 := 2048, snap := true, buf := buf }

/-! ### Decoding -/

/-- The scalar words that the spec prints beside their source lines. -/
theorem test_decode_printed_scalar : ([
    (0x04A63800, .add 5 6 7), (0x08A6FFFC, .addi 5 6 65532), (0x18840203, .shri 4 4 8 1), (0x28A35404, .ld 5 3 .f 2 true 4),
    (0x344A0FFD, .bne 5 0 4093), (0x48A00001, .csrr 5 1), (0x30A332E0, .aadd 5 3 6 1 3 true), (0xFC000001, .hintImm),
    (0x1CE02345, .movi 7 9029), (0xFC400200, .hintMod), (0x04053000, .add 0 5 6), (0xFC510000, .hintMod),
    (0xFC40000A, .hintMod), (0x04A63A16, .sel 5 6 7 8), (0x04A6380C, .divu 5 6 7), (0x04A6380A, .mulhu 5 6 7),
    (0x04A60017, .clz 5 6), (0x04A6385C, .mkpaRel 5 6 7), (0x1CA00000, .movi 5 0), (0x20A08000, .movk 5 0 32768),
    (0x20A28000, .movk 5 2 32768), (0x20A351F8, .movk 5 3 20984), (0x358A0004, .bz 5 4), (0x348A6000, .blt 5 6 0),
    (0x3C000010, .jal 16), (0x40270001, .jalr 1 7), (0x40000002, .ret), (0x4520FFFE, .loop 9 65534),
    (0x4C050100, .csrw 0 5 256), (0x48A00205, .csrr 5 517), (0x24A6FFFF, .slti 5 6 65535), (0x00000001, .halt),
    (0x000531C2, .start 5 6 3 true), (0x00000183, .joinh 3), (0x00000004, .yield), (0x00000A85, .trap), (0x00000007, .eret),
    (0x0000000F, .brk), (0x00A60009, .pgate 5 6), (0x0005300A, .cstop 5 6), (0x0005300B, .cresume 5 6),
    (0x0004000C, .launch 4), (0x0005304E, .tlbinvPage 5 6), (0x0000008E, .tlbinvAll), (0xFC000000, .hintImm),
    (0xFC440000, .hintMod), (0xFC500000, .hintMod), (0x28E30BFF, .ld 7 3 .l 1 false 1023), (0x29049800, .ld 8 4 .v 3 false 0),
    (0x2CA35801, .st 5 3 .f 3 1), (0x2CA37001, .st 5 3 .a 2 1), (0x2CC43A00, .st 6 4 .g 3 512),
    (0x30A33489, .acas 5 3 6 2 2 false), (0x300400CA, .ainc 0 4 0 3 false), (0x30A8330B, .afadd 5 8 6 1 4 false),
    (0x18A600C0, .shli 5 6 3 0)] : List (Nat × Instr)).all (fun e => decodes e.1 e.2) = true := by
  decide +kernel

/-- The vector words that the spec prints beside their source lines. -/
theorem test_decode_printed_vector : ([
    (0x70221800, .vadd 1 2 3), (0x70201800, .vadd 1 0 3), (0x6883C202, .vld 4 3 24 .f 2), (0x6C839000, .vst 4 3 18 .l 0),
    (0x6883D080, .vld 4 3 26 .l 128), (0xAD442C80, .vlds 10 4 5 18), (0xAE04D0C2, .vldm 16 4 26 3),
    (0x70221903, .vfma 1 2 3 4), (0x70040014, .vmov 0 4), (0x74453001, .vcmplt 2 5 6), (0x74E53084, .vsel 7 5 6 2),
    (0x74E53005, .vperm 7 5 6), (0x79090E00, .vcvt 8 9 1 24), (0x794C0501, .vquant 10 12 20), (0x790A0682, .vdeq 8 10 0 26),
    (0x80410001, .vrmax 2 1), (0x80E20004, .vmovx 7 2 0), (0x80670683, .vbcast 3 7 26), (0x7C811980, .vexp2 4 1 3 6),
    (0x80A40000, .vrsum 5 4), (0x81050004, .vmovx 8 5 0), (0x80C80683, .vbcast 6 8 26), (0x7CE43005, .vdiv 7 4 6),
    (0x84490000, .sbind 2 9), (0x84A20002, .sstat 5 2)] : List (Nat × Instr)).all (fun e => decodes e.1 e.2) = true := by
  decide +kernel

/-- The engines words that the spec prints beside their source lines. -/
theorem test_decode_printed_engines : ([
    (0x8844D001, .ild 2 4 26 .l 1), (0x8C44D200, .ist 2 4 26 .f 0), (0x8844DA00, .ild 2 4 27 .f 0), (0x90611000, .iadd 3 1 2),
    (0x90611002, .imul 3 1 2), (0x90820004, .isqr 4 2), (0x90A4000A, .irelu 5 4), (0x908110CD, .ifma 4 1 2 3),
    (0x94611000, .cadd 3 1 2), (0x94A40009, .crelu 5 4), (0x95030004, .csqr 8 3), (0x98611000, .ihull 3 1 2),
    (0x98411802, .isplit 2 1 3), (0x98242846, .imk 1 4 5 true), (0x98E00049, .iempty 7 true), (0x98C20003, .imid 6 2 false),
    (0x9825300A, .iclt 1 5 6), (0x98611010, .qand 3 1 2), (0x98E30013, .qall 7 3 false), (0x98E30053, .qall 7 3 true),
    (0x98400016, .iprog 2), (0x9C012800, .mma 0 1 5 0), (0x9C212A00, .mma 1 1 5 8), (0x9C023001, .mmaiv 0 2 6 0),
    (0x9C2111C2, .mma64 1 1 2 7), (0x9C834043, .mldw 4 3 8 1), (0x9C200004, .mzero 1 false), (0x9C044805, .mdrain 0 4 9 0),
    (0x9C000046, .msync true), (0x9CA60007, .mstat 5 6 false), (0xA0A40000, .vwreg 5 4), (0xA0050002, .vwsync 5),
    (0xA0053003, .vwpol 5 6), (0xA0E50004, .vwstat 7 5), (0xA4890000, .hld 4 9), (0xA4A43001, .hqry 5 4 6),
    (0xA4800002, .hclr 4), (0xA8050000, .fmtset 0 5), (0xA8A00001, .fmtget 5 0)] : List (Nat × Instr)).all (fun e => decodes e.1 e.2) = true := by
  decide +kernel

/-- The memory words that the spec prints beside their source lines. -/
theorem test_decode_printed_memory : ([
    (0x58000000, .fenceO), (0x58053001, .fenceX 5 6), (0x58004C02, .phase 9 true), (0x58000003, .parrive 0 false),
    (0x58000004, .pwait), (0x58053006, .bexp 5 6), (0x5804014E, .preduce 4 0 false 1 1), (0x5800000C, .xbegin 0 false),
    (0x5800000D, .xend), (0x58E53087, .mon 7 5 6 2), (0x59000008, .mwait 8), (0x58050009, .waitt 5), (0x5803000A, .ewait 3),
    (0x5800000B, .snapinv), (0x5C042840, .tpostC 4 5), (0x5CC42801, .tsteal 6 4 5), (0x5C000002, .tret),
    (0x5C042803, .tjoin 4 5), (0x5CC70005, .twait 6 7), (0x5C040006, .pcall 4), (0x5CC42807, .qinfo 6 4 5),
    (0x60A90000, .send 5 9), (0x60A90001, .sende 5 9), (0x60C00002, .recv 6), (0x60C00003, .rpeek 6), (0x64042801, .msend 4 5),
    (0x64C70002, .mcap 6 7), (0x64040000, .gpost 4)] : List (Nat × Instr)).all (fun e => decodes e.1 e.2) = true := by
  decide +kernel

/-- A word of each constructor, part 1: its fields as R244, R250 and R251 place them; and the encoder gives it. -/
theorem test_word_of_each_1 : ([
    (0x0, .nop), (0x1, .halt), (0x000332C2, .start 3 6 5 true), (0x283, .joinh 5), (0x4, .yield), (0x5, .trap), (0x6, .scall),
    (0x7, .eret), (0x00660008, .wfi 3 6), (0x00660009, .pgate 3 6), (0x0003300A, .cstop 3 6), (0x0003300B, .cresume 3 6),
    (0x0003000C, .launch 3), (0x0003000D, .qpost 3), (0x180E, .tlbinvAsid 3), (0x0003304E, .tlbinvPage 3 6),
    (0x8E, .tlbinvAll), (0xF, .brk), (0x04664800, .add 3 6 9), (0x04664801, .sub 3 6 9), (0x04664802, .and 3 6 9),
    (0x04664803, .or 3 6 9), (0x04664804, .xor 3 6 9), (0x04664805, .shl 3 6 9), (0x04664806, .shr 3 6 9),
    (0x04664807, .sra 3 6 9), (0x04664808, .mul 3 6 9), (0x04664809, .mulh 3 6 9), (0x0466480A, .mulhu 3 6 9),
    (0x0466480B, .div 3 6 9), (0x0466480C, .divu 3 6 9), (0x0466480D, .rem 3 6 9), (0x0466480E, .remu 3 6 9),
    (0x0466480F, .min 3 6 9), (0x04664810, .max 3 6 9), (0x04664811, .minu 3 6 9), (0x04664812, .maxu 3 6 9),
    (0x04664813, .slt 3 6 9), (0x04664814, .sltu 3 6 9), (0x04664815, .seq 3 6 9), (0x04664B16, .sel 3 6 9 12),
    (0x04660017, .clz 3 6), (0x04660018, .ctz 3 6), (0x04660019, .popc 3 6)] : List (Nat × Instr)).all (fun e => decodes e.1 e.2 &&
    (encode e.2 == e.1 || ([.hintImm, .hintMod, .hintDly, .hintPrf, .trap, .scall, .brk] : List Instr).contains e.2)) = true := by
  decide +kernel

/-- A word of each constructor, part 2: its fields as R244, R250 and R251 place them; and the encoder gives it. -/
theorem test_word_of_each_2 : ([
    (0x0466481A, .addw 3 6 9), (0x0466481B, .subw 3 6 9), (0x0466481C, .mkpa 3 6 9), (0x0466485C, .mkpaRel 3 6 9),
    (0x08661234, .addi 3 6 4660), (0x0C661234, .andi 3 6 4660), (0x10661234, .ori 3 6 4660), (0x14661234, .xori 3 6 4660),
    (0x18660241, .shli 3 6 9 1), (0x18660243, .shri 3 6 9 1), (0x18660245, .srai 3 6 9 1), (0x1C601234, .movi 3 4660),
    (0x20621234, .movk 3 2 4660), (0x24661234, .slti 3 6 4660), (0x28664D23, .ld 3 6 .f 1 true 291),
    (0x2C664923, .st 3 6 .f 1 291), (0x30664AA0, .aadd 3 6 9 1 2 true), (0x30664AA1, .aand 3 6 9 1 2 true),
    (0x30664AA2, .aor 3 6 9 1 2 true), (0x30664AA3, .axor 3 6 9 1 2 true), (0x30664AA4, .amin 3 6 9 1 2 true),
    (0x30664AA5, .amax 3 6 9 1 2 true), (0x30664AA6, .aminu 3 6 9 1 2 true), (0x30664AA7, .amaxu 3 6 9 1 2 true),
    (0x30664AA8, .aswp 3 6 9 1 2 true), (0x30664AA9, .acas 3 6 9 1 2 true), (0x306602AA, .ainc 3 6 1 2 true),
    (0x30664AAB, .afadd 3 6 9 1 2 true), (0x34066345, .beq 3 6 837), (0x34466345, .bne 3 6 837), (0x34866345, .blt 3 6 837),
    (0x34C66345, .bge 3 6 837), (0x35066345, .bltu 3 6 837), (0x35466345, .bgeu 3 6 837), (0x35860345, .bz 3 837),
    (0x35C60345, .bnz 3 837), (0x3A345678, .j 36984440), (0x3E345678, .jal 36984440), (0x40030000, .jr 3),
    (0x40660001, .jalr 3 6), (0x40000002, .ret), (0x44601234, .loop 3 4660), (0x48601234, .csrr 3 4660),
    (0x4C661234, .csrw 3 6 4660)] : List (Nat × Instr)).all (fun e => decodes e.1 e.2 &&
    (encode e.2 == e.1 || ([.hintImm, .hintMod, .hintDly, .hintPrf, .trap, .scall, .brk] : List Instr).contains e.2)) = true := by
  decide +kernel

/-- A word of each constructor, part 3: its fields as R244, R250 and R251 place them; and the encoder gives it. -/
theorem test_word_of_each_3 : ([
    (0x50661234, .csrs 3 6 4660), (0x54661234, .csrc 3 6 4660), (0x58000000, .fenceO), (0x58033001, .fenceX 3 6),
    (0x58001C02, .phase 3 true), (0x58001C03, .parrive 3 true), (0x58000004, .pwait), (0x58030005, .bdom 3),
    (0x58033006, .bexp 3 6), (0x58664847, .mon 3 6 9 1), (0x58600008, .mwait 3), (0x58030009, .waitt 3),
    (0x5803000A, .ewait 3), (0x5800000B, .snapinv), (0x58001C0C, .xbegin 3 true), (0x5800000D, .xend),
    (0x5803354E, .preduce 3 6 true 1 1), (0x5C033000, .tpost 3 6), (0x5C033040, .tpostC 3 6), (0x5C664801, .tsteal 3 6 9),
    (0x5C000002, .tret), (0x5C033003, .tjoin 3 6), (0x5C000004, .tleave), (0x5C660005, .twait 3 6), (0x5C030006, .pcall 3),
    (0x5C664807, .qinfo 3 6 9), (0x60660000, .send 3 6), (0x60660001, .sende 3 6), (0x60600002, .recv 3),
    (0x60600003, .rpeek 3), (0x64030000, .gpost 3), (0x64033001, .msend 3 6), (0x64660002, .mcap 3 6),
    (0x68664A21, .vld 3 6 9 .f 33), (0x6C664A21, .vst 3 6 9 .f 33), (0x70664800, .vadd 3 6 9), (0x70664801, .vsub 3 6 9),
    (0x70664802, .vmul 3 6 9), (0x70664B03, .vfma 3 6 9 12), (0x70664B04, .vfms 3 6 9 12), (0x70664805, .vmin 3 6 9),
    (0x70664806, .vmax 3 6 9), (0x70664807, .vminp 3 6 9), (0x70664808, .vmaxp 3 6 9)] : List (Nat × Instr)).all (fun e => decodes e.1 e.2 &&
    (encode e.2 == e.1 || ([.hintImm, .hintMod, .hintDly, .hintPrf, .trap, .scall, .brk] : List Instr).contains e.2)) = true := by
  decide +kernel

/-- A word of each constructor, part 4: its fields as R244, R250 and R251 place them; and the encoder gives it. -/
theorem test_word_of_each_4 : ([
    (0x70660009, .vabs 3 6), (0x7066000A, .vneg 3 6), (0x7066480B, .vand 3 6 9), (0x7066480C, .vor 3 6 9),
    (0x7066480D, .vxor 3 6 9), (0x7066000E, .vnot 3 6), (0x7066480F, .vshl 3 6 9), (0x70664810, .vshr 3 6 9),
    (0x70664811, .vsra 3 6 9), (0x70664812, .vadds 3 6 9), (0x70664813, .vsubs 3 6 9), (0x70660014, .vmov 3 6),
    (0x74664800, .vcmpeq 3 6 9), (0x74664801, .vcmplt 3 6 9), (0x74664802, .vcmple 3 6 9), (0x74664803, .vcmpne 3 6 9),
    (0x74664944, .vsel 3 6 9 5), (0x74664805, .vperm 3 6 9), (0x74664B06, .vslide 3 6 9 12), (0x74664847, .vzip 3 6 9 true),
    (0x74664848, .vunzip 3 6 9 true), (0x74662809, .pand 3 6 5), (0x7466280A, .por 3 6 5), (0x7466000B, .pnot 3 6),
    (0x7466000C, .pcnt 3 6), (0x78661300, .vcvt 3 6 2 12), (0x78660241, .vquant 3 6 9), (0x78661682, .vdeq 3 6 2 26),
    (0x78664843, .vretag 3 6 9 true), (0x78660044, .vtagr 3 6 true), (0x78664805, .vscale 3 6 9), (0x78664806, .vpack 3 6 9),
    (0x78660B07, .vunpk 3 6 true 12), (0x7C664B00, .vexp2 3 6 9 12), (0x7C660001, .vlog2 3 6), (0x7C660002, .vrcp 3 6),
    (0x7C660003, .vrsqrt 3 6), (0x7C660004, .vsqrt 3 6), (0x7C664805, .vdiv 3 6 9), (0x7C660006, .vtanh 3 6),
    (0x7C660007, .vsigm 3 6), (0x80660000, .vrsum 3 6), (0x80660001, .vrmax 3 6), (0x80660002, .vrmin 3 6)] : List (Nat × Instr)).all (fun e => decodes e.1 e.2 &&
    (encode e.2 == e.1 || ([.hintImm, .hintMod, .hintDly, .hintPrf, .trap, .scall, .brk] : List Instr).contains e.2)) = true := by
  decide +kernel

/-- A word of each constructor, part 5: its fields as R244, R250 and R251 place them; and the encoder gives it. -/
theorem test_word_of_each_5 : ([
    (0x80660243, .vbcast 3 6 9), (0x80664804, .vmovx 3 6 9), (0x80664805, .vins 3 6 9), (0x80660006, .vrsump 3 6),
    (0x84660000, .sbind 3 6), (0x84600001, .sfree 3), (0x84660002, .sstat 3 6), (0x8866D221, .ild 3 6 26 .f 33),
    (0x8C66D221, .ist 3 6 26 .f 33), (0x90664800, .iadd 3 6 9), (0x90664801, .isub 3 6 9), (0x90664802, .imul 3 6 9),
    (0x90664803, .idiv 3 6 9), (0x90660004, .isqr 3 6), (0x90660005, .isqrt 3 6), (0x90660006, .iexp2 3 6),
    (0x90660007, .ilog2 3 6), (0x90664808, .imin 3 6 9), (0x90664809, .imax 3 6 9), (0x9066000A, .irelu 3 6),
    (0x9066000B, .ineg 3 6), (0x9066000C, .iabs 3 6), (0x90664B0D, .ifma 3 6 9 12), (0x9066480E, .iscale 3 6 9),
    (0x94664800, .cadd 3 6 9), (0x94664801, .csub 3 6 9), (0x94664802, .cmul 3 6 9), (0x94664803, .cdiv 3 6 9),
    (0x94660004, .csqr 3 6), (0x94660005, .csqrt 3 6), (0x94660006, .cexp2 3 6), (0x94664807, .cmax 3 6 9),
    (0x94664808, .cmin 3 6 9), (0x94660009, .crelu 3 6), (0x9466000A, .cabs 3 6), (0x98664800, .ihull 3 6 9),
    (0x98664801, .imeet 3 6 9), (0x98664802, .isplit 3 6 9), (0x98660043, .imid 3 6 true), (0x98660044, .irad 3 6 true),
    (0x98660045, .iwid 3 6 true), (0x98664846, .imk 3 6 9 true), (0x98660047, .ilo 3 6 true), (0x98660048, .ihi 3 6 true)] : List (Nat × Instr)).all (fun e => decodes e.1 e.2 &&
    (encode e.2 == e.1 || ([.hintImm, .hintMod, .hintDly, .hintPrf, .trap, .scall, .brk] : List Instr).contains e.2)) = true := by
  decide +kernel

/-- A word of each constructor, part 6: its fields as R244, R250 and R251 place them; and the encoder gives it. -/
theorem test_word_of_each_6 : ([
    (0x98600049, .iempty 3 true), (0x9866480A, .iclt 3 6 9), (0x9866480B, .icle 3 6 9), (0x9866480C, .iceq 3 6 9),
    (0x9866480D, .isubset 3 6 9), (0x9866480E, .idisj 3 6 9), (0x9866000F, .iisemp 3 6), (0x98662810, .qand 3 6 5),
    (0x98662811, .qor 3 6 5), (0x98660012, .qnot 3 6), (0x98660053, .qall 3 6 true), (0x98660054, .qany 3 6 true),
    (0x98662995, .qsel 3 6 5 6), (0x98600016, .iprog 3), (0x9C664940, .mma 3 6 9 5), (0x9C664941, .mmaiv 3 6 9 5),
    (0x9C663B02, .mma64 3 6 7 12), (0x9C664943, .mldw 3 6 9 5), (0x9C600044, .mzero 3 true), (0x9C664845, .mdrain 3 6 9 1),
    (0x9C000046, .msync true), (0x9C660047, .mstat 3 6 true), (0xA0660000, .vwreg 3 6), (0xA0030001, .vwdel 3),
    (0xA0030002, .vwsync 3), (0xA0033003, .vwpol 3 6), (0xA0660004, .vwstat 3 6), (0xA0030005, .vwkick 3),
    (0xA4660000, .hld 3 6), (0xA4664801, .hqry 3 6 9), (0xA4600002, .hclr 3), (0xA8660000, .fmtset 3 6),
    (0xA8660001, .fmtget 3 6), (0xAC664B00, .vlds 3 6 9 12), (0xAC664841, .vsts 3 6 9 true), (0xAC664B02, .vldm 3 6 9 12),
    (0xAC664B03, .vstm 3 6 9 12), (0xAC664B04, .vldi 3 6 9 12), (0xAC664B05, .vsti 3 6 9 12), (0xFC000000, .hintImm),
    (0xFC400000, .hintMod), (0xFC800000, .hintDly), (0xFCC00000, .hintPrf)] : List (Nat × Instr)).all (fun e => decodes e.1 e.2 &&
    (encode e.2 == e.1 || ([.hintImm, .hintMod, .hintDly, .hintPrf, .trap, .scall, .brk] : List Instr).contains e.2)) = true := by
  decide +kernel

/-- Reserved codes and nonzero unused fields are refused with their FIELD (R245, R413). -/
theorem test_refused : ([(0xB0000000, 1), (0x04A63840, 5), (0x04A6381D, 6), (0x04A60857, 4), (0x36000000, 6), (0x1CA10000, 3),
    (0x00200001, 2), (0x20A40000, 3), (0xFD000000, 6)] : List (Nat × Nat)).all (fun e => refused e.1 e.2) = true := by
  decide +kernel

/-! ### Well-formedness -/

/-- Ill-formed instructions, one for each check, part 1: the value is the first beyond the field's range. -/
theorem test_ill_formed_1 : ([
    .start 32 6 5 true, .start 3 32 5 true, .start 3 6 16 true, .joinh 16, .wfi 32 6, .wfi 3 32, .pgate 32 6, .pgate 3 32,
    .cstop 32 6, .cstop 3 32, .cresume 32 6, .cresume 3 32, .launch 32, .qpost 32, .tlbinvAsid 32, .tlbinvPage 32 6,
    .tlbinvPage 3 32, .add 32 6 9, .add 3 32 9, .add 3 6 32, .sub 32 6 9, .sub 3 32 9, .sub 3 6 32, .and 32 6 9, .and 3 32 9,
    .and 3 6 32, .or 32 6 9, .or 3 32 9, .or 3 6 32, .xor 32 6 9, .xor 3 32 9, .xor 3 6 32, .shl 32 6 9, .shl 3 32 9,
    .shl 3 6 32, .shr 32 6 9, .shr 3 32 9, .shr 3 6 32, .sra 32 6 9, .sra 3 32 9, .sra 3 6 32, .mul 32 6 9, .mul 3 32 9,
    .mul 3 6 32, .mulh 32 6 9, .mulh 3 32 9, .mulh 3 6 32, .mulhu 32 6 9, .mulhu 3 32 9, .mulhu 3 6 32, .div 32 6 9,
    .div 3 32 9, .div 3 6 32, .divu 32 6 9, .divu 3 32 9, .divu 3 6 32, .rem 32 6 9, .rem 3 32 9, .rem 3 6 32, .remu 32 6 9,
    .remu 3 32 9, .remu 3 6 32, .min 32 6 9, .min 3 32 9, .min 3 6 32, .max 32 6 9, .max 3 32 9, .max 3 6 32, .minu 32 6 9,
    .minu 3 32 9, .minu 3 6 32, .maxu 32 6 9, .maxu 3 32 9, .maxu 3 6 32, .slt 32 6 9, .slt 3 32 9, .slt 3 6 32, .sltu 32 6 9,
    .sltu 3 32 9, .sltu 3 6 32, .seq 32 6 9, .seq 3 32 9, .seq 3 6 32, .sel 32 6 9 12, .sel 3 32 9 12, .sel 3 6 32 12,
    .sel 3 6 9 32, .clz 32 6, .clz 3 32, .ctz 32 6, .ctz 3 32, .popc 32 6, .popc 3 32, .addw 32 6 9, .addw 3 32 9,
    .addw 3 6 32, .subw 32 6 9, .subw 3 32 9, .subw 3 6 32, .mkpa 32 6 9] : List Instr).all (fun i => !i.wf) = true := by
  decide +kernel

/-- Ill-formed instructions, one for each check, part 2: the value is the first beyond the field's range. -/
theorem test_ill_formed_2 : ([
    .mkpa 3 32 9, .mkpa 3 6 32, .mkpaRel 32 6 9, .mkpaRel 3 32 9, .mkpaRel 3 6 32, .addi 32 6 4660, .addi 3 32 4660,
    .addi 3 6 65536, .andi 32 6 4660, .andi 3 32 4660, .andi 3 6 65536, .ori 32 6 4660, .ori 3 32 4660, .ori 3 6 65536,
    .xori 32 6 4660, .xori 3 32 4660, .xori 3 6 65536, .shli 32 6 9 1, .shli 3 32 9 1, .shli 3 6 32 1, .shli 3 6 9 2,
    .shri 32 6 9 1, .shri 3 32 9 1, .shri 3 6 32 1, .shri 3 6 9 2, .srai 32 6 9 1, .srai 3 32 9 1, .srai 3 6 32 1,
    .srai 3 6 9 2, .movi 32 4660, .movi 3 65536, .movk 32 2 4660, .movk 3 4 4660, .movk 3 2 65536, .slti 32 6 4660,
    .slti 3 32 4660, .slti 3 6 65536, .ld 32 6 .f 1 true 291, .ld 3 32 .f 1 true 291, .ld 3 6 .f 4 true 291,
    .ld 3 6 .f 1 true 1024, .ld 3 6 .f 3 true 291, .st 32 6 .f 1 291, .st 3 32 .f 1 291, .st 3 6 .f 4 291, .st 3 6 .f 1 1024,
    .st 3 6 .v 1 291, .aadd 32 6 9 1 2 true, .aadd 3 32 9 1 2 true, .aadd 3 6 32 1 2 true, .aadd 3 6 9 4 2 true,
    .aadd 3 6 9 1 5 true, .aand 32 6 9 1 2 true, .aand 3 32 9 1 2 true, .aand 3 6 32 1 2 true, .aand 3 6 9 4 2 true,
    .aand 3 6 9 1 5 true, .aor 32 6 9 1 2 true, .aor 3 32 9 1 2 true, .aor 3 6 32 1 2 true, .aor 3 6 9 4 2 true,
    .aor 3 6 9 1 5 true, .axor 32 6 9 1 2 true, .axor 3 32 9 1 2 true, .axor 3 6 32 1 2 true, .axor 3 6 9 4 2 true,
    .axor 3 6 9 1 5 true, .amin 32 6 9 1 2 true, .amin 3 32 9 1 2 true, .amin 3 6 32 1 2 true, .amin 3 6 9 4 2 true,
    .amin 3 6 9 1 5 true, .amax 32 6 9 1 2 true, .amax 3 32 9 1 2 true, .amax 3 6 32 1 2 true, .amax 3 6 9 4 2 true,
    .amax 3 6 9 1 5 true, .aminu 32 6 9 1 2 true, .aminu 3 32 9 1 2 true, .aminu 3 6 32 1 2 true, .aminu 3 6 9 4 2 true,
    .aminu 3 6 9 1 5 true, .amaxu 32 6 9 1 2 true, .amaxu 3 32 9 1 2 true, .amaxu 3 6 32 1 2 true, .amaxu 3 6 9 4 2 true,
    .amaxu 3 6 9 1 5 true, .aswp 32 6 9 1 2 true, .aswp 3 32 9 1 2 true, .aswp 3 6 32 1 2 true, .aswp 3 6 9 4 2 true,
    .aswp 3 6 9 1 5 true, .acas 32 6 9 1 2 true, .acas 3 32 9 1 2 true, .acas 3 6 32 1 2 true, .acas 3 6 9 4 2 true,
    .acas 3 6 9 1 5 true, .ainc 32 6 1 2 true, .ainc 3 32 1 2 true, .ainc 3 6 4 2 true] : List Instr).all (fun i => !i.wf) = true := by
  decide +kernel

/-- Ill-formed instructions, one for each check, part 3: the value is the first beyond the field's range. -/
theorem test_ill_formed_3 : ([
    .ainc 3 6 1 5 true, .afadd 32 6 9 1 2 true, .afadd 3 32 9 1 2 true, .afadd 3 6 32 1 2 true, .afadd 3 6 9 4 2 true,
    .afadd 3 6 9 1 5 true, .beq 32 6 837, .beq 3 32 837, .beq 3 6 4096, .bne 32 6 837, .bne 3 32 837, .bne 3 6 4096,
    .blt 32 6 837, .blt 3 32 837, .blt 3 6 4096, .bge 32 6 837, .bge 3 32 837, .bge 3 6 4096, .bltu 32 6 837, .bltu 3 32 837,
    .bltu 3 6 4096, .bgeu 32 6 837, .bgeu 3 32 837, .bgeu 3 6 4096, .bz 32 837, .bz 3 4096, .bnz 32 837, .bnz 3 4096,
    .j 67108864, .jal 67108864, .jr 32, .jalr 32 6, .jalr 3 32, .loop 32 4660, .loop 3 65536, .csrr 32 4660, .csrr 3 65536,
    .csrw 32 6 4660, .csrw 3 32 4660, .csrw 3 6 65536, .csrs 32 6 4660, .csrs 3 32 4660, .csrs 3 6 65536, .csrc 32 6 4660,
    .csrc 3 32 4660, .csrc 3 6 65536, .fenceX 32 6, .fenceX 3 32, .phase 32 true, .phase 1 false, .parrive 32 true,
    .parrive 1 false, .bdom 32, .bexp 32 6, .bexp 3 32, .mon 32 6 9 1, .mon 3 32 9 1, .mon 3 6 32 1, .mon 3 6 9 4, .mwait 32,
    .waitt 32, .ewait 16, .xbegin 32 true, .xbegin 1 false, .preduce 32 6 true 1 1, .preduce 3 32 true 1 1,
    .preduce 3 6 true 1 3, .preduce 3 6 true 3 1, .preduce 3 1 false 1 1, .tpost 32 6, .tpost 3 32, .tpostC 32 6, .tpostC 3 32,
    .tsteal 32 6 9, .tsteal 3 32 9, .tsteal 3 6 32, .tjoin 32 6, .tjoin 3 32, .twait 32 6, .twait 3 32, .pcall 32,
    .qinfo 32 6 9, .qinfo 3 32 9, .qinfo 3 6 32, .send 32 6, .send 3 32, .sende 32 6, .sende 3 32, .recv 32, .rpeek 32,
    .gpost 32, .msend 32 6, .msend 3 32, .mcap 32 6, .mcap 3 32, .vld 32 6 9 .f 33, .vld 3 32 9 .f 33, .vld 3 6 32 .f 33,
    .vld 3 6 9 .f 256, .vld 3 6 23 .f 33] : List Instr).all (fun i => !i.wf) = true := by
  decide +kernel

/-- Ill-formed instructions, one for each check, part 4: the value is the first beyond the field's range. -/
theorem test_ill_formed_4 : ([
    .vst 32 6 9 .f 33, .vst 3 32 9 .f 33, .vst 3 6 32 .f 33, .vst 3 6 9 .f 256, .vst 3 6 23 .f 33, .vst 3 6 9 .v 33,
    .vadd 32 6 9, .vadd 3 32 9, .vadd 3 6 32, .vsub 32 6 9, .vsub 3 32 9, .vsub 3 6 32, .vmul 32 6 9, .vmul 3 32 9,
    .vmul 3 6 32, .vfma 32 6 9 12, .vfma 3 32 9 12, .vfma 3 6 32 12, .vfma 3 6 9 32, .vfms 32 6 9 12, .vfms 3 32 9 12,
    .vfms 3 6 32 12, .vfms 3 6 9 32, .vmin 32 6 9, .vmin 3 32 9, .vmin 3 6 32, .vmax 32 6 9, .vmax 3 32 9, .vmax 3 6 32,
    .vminp 32 6 9, .vminp 3 32 9, .vminp 3 6 32, .vmaxp 32 6 9, .vmaxp 3 32 9, .vmaxp 3 6 32, .vabs 32 6, .vabs 3 32,
    .vneg 32 6, .vneg 3 32, .vand 32 6 9, .vand 3 32 9, .vand 3 6 32, .vor 32 6 9, .vor 3 32 9, .vor 3 6 32, .vxor 32 6 9,
    .vxor 3 32 9, .vxor 3 6 32, .vnot 32 6, .vnot 3 32, .vshl 32 6 9, .vshl 3 32 9, .vshl 3 6 32, .vshr 32 6 9, .vshr 3 32 9,
    .vshr 3 6 32, .vsra 32 6 9, .vsra 3 32 9, .vsra 3 6 32, .vadds 32 6 9, .vadds 3 32 9, .vadds 3 6 32, .vsubs 32 6 9,
    .vsubs 3 32 9, .vsubs 3 6 32, .vmov 32 6, .vmov 3 32, .vcmpeq 8 6 9, .vcmpeq 3 32 9, .vcmpeq 3 6 32, .vcmplt 8 6 9,
    .vcmplt 3 32 9, .vcmplt 3 6 32, .vcmple 8 6 9, .vcmple 3 32 9, .vcmple 3 6 32, .vcmpne 8 6 9, .vcmpne 3 32 9,
    .vcmpne 3 6 32, .vsel 32 6 9 5, .vsel 3 32 9 5, .vsel 3 6 32 5, .vsel 3 6 9 8, .vperm 32 6 9, .vperm 3 32 9, .vperm 3 6 32,
    .vslide 32 6 9 12, .vslide 3 32 9 12, .vslide 3 6 32 12, .vslide 3 6 9 32, .vzip 32 6 9 true, .vzip 3 32 9 true,
    .vzip 3 6 32 true, .vunzip 32 6 9 true, .vunzip 3 32 9 true, .vunzip 3 6 32 true, .pand 8 6 5, .pand 3 8 5, .pand 3 6 8,
    .por 8 6 5] : List Instr).all (fun i => !i.wf) = true := by
  decide +kernel

/-- Ill-formed instructions, one for each check, part 5: the value is the first beyond the field's range. -/
theorem test_ill_formed_5 : ([
    .por 3 8 5, .por 3 6 8, .pnot 8 6, .pnot 3 8, .pcnt 32 6, .pcnt 3 8, .vcvt 32 6 2 12, .vcvt 3 32 2 12, .vcvt 3 6 8 12,
    .vcvt 3 6 2 32, .vcvt 3 6 2 23, .vcvt 3 6 2 31, .vquant 32 6 9, .vquant 3 32 9, .vquant 3 6 23, .vdeq 32 6 2 26,
    .vdeq 3 32 2 26, .vdeq 3 6 8 26, .vdeq 3 6 2 32, .vdeq 3 6 2 23, .vdeq 3 6 2 28, .vretag 32 6 9 true, .vretag 3 32 9 true,
    .vretag 3 6 32 true, .vretag 16 6 9 true, .vretag 3 16 9 true, .vtagr 3 16 true, .vretag 32 6 9 false, .vretag 3 32 9 false, .vtagr 3 32 false, .vtagr 32 6 true, .vtagr 3 32 true, .vscale 32 6 9, .vscale 3 32 9, .vscale 3 6 32, .vpack 32 6 9,
    .vpack 3 32 9, .vpack 3 6 32, .vunpk 32 6 true 12, .vunpk 3 32 true 12, .vunpk 3 6 true 23, .vexp2 32 6 9 12,
    .vexp2 3 32 9 12, .vexp2 3 6 32 12, .vexp2 3 6 9 32, .vlog2 32 6, .vlog2 3 32, .vrcp 32 6, .vrcp 3 32, .vrsqrt 32 6,
    .vrsqrt 3 32, .vsqrt 32 6, .vsqrt 3 32, .vdiv 32 6 9, .vdiv 3 32 9, .vdiv 3 6 32, .vtanh 32 6, .vtanh 3 32, .vsigm 32 6,
    .vsigm 3 32, .vrsum 32 6, .vrsum 3 32, .vrmax 32 6, .vrmax 3 32, .vrmin 32 6, .vrmin 3 32, .vbcast 32 6 9, .vbcast 3 32 9,
    .vbcast 3 6 32, .vmovx 32 6 9, .vmovx 3 32 9, .vmovx 3 6 32, .vins 32 6 9, .vins 3 32 9, .vins 3 6 32, .vrsump 32 6,
    .vrsump 3 32, .sbind 8 6, .sbind 3 32, .sfree 8, .sstat 32 6, .sstat 3 8, .ild 16 6 26 .f 33, .ild 3 32 26 .f 33,
    .ild 3 6 32 .f 33, .ild 3 6 26 .f 256, .ild 3 6 25 .f 33, .ild 3 6 26 .v 33, .ist 16 6 26 .f 33, .ist 3 32 26 .f 33,
    .ist 3 6 32 .f 33, .ist 3 6 26 .f 256, .ist 3 6 25 .f 33, .ist 3 6 26 .v 33, .iadd 16 6 9, .iadd 3 16 9, .iadd 3 6 16,
    .isub 16 6 9, .isub 3 16 9, .isub 3 6 16, .imul 16 6 9, .imul 3 16 9, .imul 3 6 16, .idiv 16 6 9, .idiv 3 16 9, .idiv 3 6 16] : List Instr).all (fun i => !i.wf) = true := by
  decide +kernel

/-- Ill-formed instructions, one for each check, part 6: the value is the first beyond the field's range. -/
theorem test_ill_formed_6 : ([
    .isqr 16 6, .isqr 3 16, .isqrt 16 6, .isqrt 3 16, .iexp2 16 6, .iexp2 3 16, .ilog2 16 6, .ilog2 3 16, .imin 16 6 9,
    .imin 3 16 9, .imin 3 6 16, .imax 16 6 9, .imax 3 16 9, .imax 3 6 16, .irelu 16 6, .irelu 3 16, .ineg 16 6, .ineg 3 16,
    .iabs 16 6, .iabs 3 16, .ifma 16 6 9 12, .ifma 3 16 9 12, .ifma 3 6 16 12, .ifma 3 6 9 16, .iscale 16 6 9, .iscale 3 16 9,
    .iscale 3 6 32, .cadd 16 6 9, .cadd 3 16 9, .cadd 3 6 16, .csub 16 6 9, .csub 3 16 9, .csub 3 6 16, .cmul 16 6 9,
    .cmul 3 16 9, .cmul 3 6 16, .cdiv 16 6 9, .cdiv 3 16 9, .cdiv 3 6 16, .csqr 16 6, .csqr 3 16, .csqrt 16 6, .csqrt 3 16,
    .cexp2 16 6, .cexp2 3 16, .cmax 16 6 9, .cmax 3 16 9, .cmax 3 6 16, .cmin 16 6 9, .cmin 3 16 9, .cmin 3 6 16, .crelu 16 6,
    .crelu 3 16, .cabs 16 6, .cabs 3 16, .ihull 16 6 9, .ihull 3 16 9, .ihull 3 6 16, .imeet 16 6 9, .imeet 3 16 9,
    .imeet 3 6 16, .isplit 16 6 9, .isplit 3 16 9, .isplit 3 6 16, .imid 32 6 true, .imid 3 16 true, .irad 32 6 true,
    .irad 3 16 true, .iwid 32 6 true, .iwid 3 16 true, .imk 16 6 9 true, .imk 3 32 9 true, .imk 3 6 32 true, .ilo 32 6 true,
    .ilo 3 16 true, .ihi 32 6 true, .ihi 3 16 true, .iempty 16 true, .iclt 8 6 9, .iclt 3 16 9, .iclt 3 6 16, .icle 8 6 9,
    .icle 3 16 9, .icle 3 6 16, .iceq 8 6 9, .iceq 3 16 9, .iceq 3 6 16, .isubset 8 6 9, .isubset 3 16 9, .isubset 3 6 16,
    .idisj 8 6 9, .idisj 3 16 9, .idisj 3 6 16, .iisemp 8 6, .iisemp 3 16, .qand 8 6 5, .qand 3 8 5, .qand 3 6 8, .qor 8 6 5,
    .qor 3 8 5] : List Instr).all (fun i => !i.wf) = true := by
  decide +kernel

/-- Ill-formed instructions, one for each check, part 7: the value is the first beyond the field's range. -/
theorem test_ill_formed_7 : ([
    .qor 3 6 8, .qnot 8 6, .qnot 3 8, .qall 32 6 true, .qall 3 8 true, .qany 32 6 true, .qany 3 8 true, .qsel 8 6 5 6,
    .qsel 3 8 5 6, .qsel 3 6 8 6, .qsel 3 6 5 8, .iprog 8, .mma 4 6 9 5, .mma 3 8 9 5, .mma 3 6 32 5, .mma 3 6 9 16,
    .mmaiv 4 6 9 5, .mmaiv 3 8 9 5, .mmaiv 3 6 32 5, .mmaiv 3 6 9 16, .mma64 4 6 7 12, .mma64 3 8 7 12, .mma64 3 6 8 12,
    .mma64 3 6 7 32, .mldw 16 6 9 5, .mldw 3 8 9 5, .mldw 3 6 32 5, .mldw 3 6 9 16, .mzero 4 true, .mdrain 4 6 9 1,
    .mdrain 3 8 9 1, .mdrain 3 6 32 1, .mdrain 3 6 9 4, .mdrain 3 6 9 3, .mstat 32 6 true, .mstat 3 32 true, .vwreg 32 6,
    .vwreg 3 32, .vwdel 32, .vwsync 32, .vwpol 32 6, .vwpol 3 32, .vwstat 32 6, .vwstat 3 32, .vwkick 32, .hld 8 6, .hld 3 32,
    .hqry 32 6 9, .hqry 3 8 9, .hqry 3 6 32, .hclr 8, .fmtset 16 6, .fmtset 3 32, .fmtget 32 6, .fmtget 3 16, .vlds 32 6 9 12,
    .vlds 3 32 9 12, .vlds 3 6 32 12, .vlds 3 6 9 23, .vsts 32 6 9 true, .vsts 3 32 9 true, .vsts 3 6 32 true, .vldm 32 6 9 12,
    .vldm 3 32 9 12, .vldm 3 6 32 12, .vldm 3 6 9 32, .vldm 31 6 9 1, .vstm 32 6 9 12, .vstm 3 32 9 12,
    .vstm 3 6 32 12, .vstm 3 6 9 32, .vstm 31 6 9 1, .vldi 32 6 9 12, .vldi 3 32 9 12, .vldi 3 6 32 12,
    .vldi 3 6 9 32, .vsti 32 6 9 12, .vsti 3 32 9 12, .vsti 3 6 32 12, .vsti 3 6 9 32] : List Instr).all (fun i => !i.wf) = true := by
  decide +kernel

/-! ### Scalar words: hypotheses met, and results at the edges -/

theorem wit_ScalarArithmetic :
    met (rrr 31 31 31) (span [(31, 2 ^ 64 - 1)]) (fun o t => puts 31 (fun o _ => wrap64 (o.a + o.b)) o t) = true ∧
    met { rrr 1 2 3 with c := rd .x 4 } (span [(4, 1)]) (fun o t => puts 1 (fun o _ => o.a) o t && o.c == 1) = true ∧
    met (rr 1 0) (span []) (fun o t => puts 1 (fun _ _ => 64) o t && o.a == 0) = true ∧
    met (rrr 1 2 3) (span [(2, 2 ^ 63), (3, 2 ^ 64 - 1)]) (fun o t => decide (uns o.b ≠ 0) && puts 1 (fun _ _ => 0) o t) = true ∧
    met (rrr 1 2 0) (span [(2, 7)]) (fun o t => decide (uns o.b = 0) && okay (t.dstCheck t.cur o false) fun _ => true) = true ∧
    met (rrr 0 2 0) ((span [(2, 7)]).own fun x => { x with chainMod := some 2048, chainPc := some 4092 })
      (fun o t => stops (t.dstCheck t.cur o false)) = true := by decide +kernel

/-- R270: the one signed overflow. -/
theorem test_div_overflow : after (.div 1 2 3) (span [(2, 2 ^ 63), (3, 2 ^ 64 - 1)]) (fun t => t.rx t.cur 1 == 2 ^ 63) = true := by
  decide +kernel
/-- R270: −7 by 2. -/
theorem test_rem_sign : after (.rem 1 2 3) (span [(2, 2 ^ 64 - 7), (3, 2)]) (fun t => t.rx t.cur 1 == 2 ^ 64 - 1) = true := by decide +kernel
theorem test_divu_example : after (.divu 1 2 3) (span [(2, 2 ^ 64 - 7), (3, 2)])
    (fun t => t.rx t.cur 1 == 0x7FFFFFFFFFFFFFFC) = true := by decide +kernel
theorem test_div_zero : after (.div 1 2 0) (span [(1, 9), (2, 7)]) (fun t =>
    t.rx t.cur 1 == 9 && (t.ctx t.cur).trapS.cause == 9 && (t.ctx t.cur).trapS.val == 7) = true := by decide +kernel
/-- R271: the address worked under R145. -/
theorem test_mkpa_rel : after (.mkpaRel 5 6 7) (span [(6, 0x7E20), (7, 0x8000)])
    (fun t => t.rx t.cur 5 == 0x51F8800000008000) = true := by decide +kernel
theorem test_sra_source_is_destination : after (.sra 2 2 3) (span [(2, 2 ^ 63), (3, 127)]) (fun t => t.rx t.cur 2 == 2 ^ 64 - 1) = true := by
  decide +kernel

theorem wit_ImmediateWords :
    met { rr 31 31 with imm := true } (span []) (fun o t => puts 31 (fun o _ => wrap64 (o.a + immI o 65535)) o t) = true ∧
    met { d := wr .x 1, dd := true, imm := true } (span []) (fun o t => puts 1 (fun o _ => wrap64 (immI o 0)) o t) = true ∧
    met { d := rw .x 1, dd := true } (span []) (fun o t => puts 1 (fun o _ => o.d) o t) = true ∧
    met (rr 1 2) (span []) (fun o t => puts 1 (fun o _ => uns (o.a * 2 ^ (31 + 32 * 1))) o t) = true ∧
    met { rr 1 2 with imm := true } ((span []).own fun x => { x with chainImm := some 4194303, chainPc := some 4092 })
      (fun o _ => o.imm == some 4194303) = true := by decide +kernel

/-- R273: the fourth word of the constant. -/
theorem test_movk : after (.movk 5 3 0x51F8) (span [(5, 0x800000008000)]) (fun t => t.rx t.cur 5 == 0x51F8800000008000) = true := by
  decide +kernel
/-- R263: `movi x7, 0x12345` with its hint. -/
theorem test_movi_hint : after (.movi 7 9029) ((span []).own fun x => { x with chainImm := some 1, chainPc := some 4092 })
    (fun t => t.rx t.cur 7 == 0x12345 && (t.ctx t.cur).chainImm == none) = true := by decide +kernel
theorem test_addi_negative : after (.addi 5 6 65532) (span [(6, 3)]) (fun t => t.rx t.cur 5 == 2 ^ 64 - 1) = true := by decide +kernel

theorem wit_HintWords :
    let s := span []
    (s.bad = none ∧ (s.ctx s.cur).chainImm = none ∧ (s.ctx s.cur).chainMod = none ∧ (s.ctx s.cur).chainPc = none ∧ (s.ctx s.cur).timed = none ∧
      s.ir.toNat % 4096 = 0) ∧
    (let t := { s with ir := 0xFC800FFF }
     t.bad = none ∧ (t.ctx t.cur).chainPc = none ∧ (t.ctx t.cur).timed = none ∧ t.ir.toNat % 4096 ≠ 0) ∧
    (let t := s.own fun x => { x with timed := some (5, 0) }
     t.bad = none ∧ (t.ctx t.cur).chainPc = none ∧ (t.ctx t.cur).timed ≠ none) := by decide +kernel

theorem test_hint_prf_does_nothing : after .hintPrf (span [(3, 5)]) (fun t => (t.ctx t.cur).pc == 4100 && t.rx t.cur 3 == 5) = true := by
  decide +kernel

theorem wit_ControlTransfers :
    met { brr 1 2 with imm := true } (span [(1, 5), (2, 5)])
      (fun o t => decide (uns o.a = uns o.b) && good (wrap64 (here t + 4 * offB o 4095))) = true ∧
    met { brr 1 2 with imm := true } (span [(1, 5), (2, 6)]) (fun o _ => decide (uns o.a ≠ uns o.b)) = true ∧
    met { br 1 with imm := true } ((span []).own fun x => { x with pc := 0 })
      (fun o t => decide (uns o.a = 0) && !good (wrap64 (here t + 4 * offB o 4095))) = true ∧
    met {} (span []) (fun _ t => good (wrap64 (here t + 4 * sext 67108863 26))) = true ∧
    met { a := rd .x 7, da := true } (span [(7, 8192)]) (fun o _ => good o.a) = true ∧
    met (rr 7 7) (span [(7, 8192)]) (fun o t => good o.a && puts 7 (fun _ t => wrap64 (here t + 4)) o t) = true ∧
    met {} (span [(1, 8192)]) (fun _ t => !t.pending t.cur 1 1 && t.poison == [] && good (t.rx t.cur 1)) = true ∧
    met { d := rw .x 9, dd := true, imm := true } (span [(9, 1)])
      (fun o t => puts 9 (fun o _ => wrap64 (o.d - 1)) o t && decide (wrap64 (o.d - 1) = 0)) = true ∧
    met { d := rw .x 0, dd := true, imm := true } (span [])
      (fun o t => puts 0 (fun o _ => wrap64 (o.d - 1)) o t && decide (wrap64 (o.d - 1) ≠ 0) &&
        good (wrap64 (here t + 4 * immI o 65534))) = true := by decide +kernel

theorem test_loop : after (.loop 9 65534) (span [(9, 2)]) (fun t => t.rx t.cur 9 == 1 && (t.ctx t.cur).pc == 4088) = true := by decide +kernel
/-- R277: JALR whose D is its A jumps to the old value. -/
theorem test_jalr_same : after (.jalr 7 7) (span [(7, 8192)]) (fun t => t.rx t.cur 7 == 4100 && (t.ctx t.cur).pc == 8192) = true := by
  decide +kernel
theorem test_branch_misaligned : after (.jr 7) (span [(7, 8194)]) (fun t => (t.ctx t.cur).trapS.cause == 5 &&
    (t.ctx t.cur).trapS.epc == 4096) = true := by decide +kernel

theorem wit_CsrAccess :
    met { d := wr .x 5, dd := true } (span []) (fun o t => okay ((span []).csrLegal 1 false) (fun _ => true) &&
      okay (t.csrWait t.cur 1) (fun _ => true) && okay ((t.csrRead t.cur 1).1.putX t.cur o 5 (t.csrRead t.cur 1).2) fun _ => true) = true ∧
    met (rr 0 5) (span []) (fun o t => okay ((span []).csrLegal 256 true) (fun _ => true) && okay (t.csrWait t.cur 256) (fun _ => true) &&
      decide (o.m.dst = 0)) = true ∧
    met (rr 6 5) (span []) (fun o t => okay (t.csrWait t.cur 256) (fun _ => true) &&
      okay (((t.csrRead t.cur 256).1.csrWrite t.cur 256 o.a).putX t.cur o 6 (t.csrRead t.cur 256).2) fun _ => true) = true ∧
    csrKnown 0x405 = false ∧ csrKnown 0x800 = true ∧ csrKnown 0x9 = true ∧ csrKnown 0xC00 = true ∧
    ((span []).ctx (span []).cur).level = .u ∧
    (let s := (span []).own fun x => { x with chainMod := some 8 }
     traps (prep (rr 6 0) s) 11 1 0 = true ∧ traps (s.csrLegal 0x405 true) 1 0 0 = true) := by decide +kernel

theorem test_csrrw_fcsr : after (.csrw 6 5 256) ((span [(5, 0x1F3F)]).own fun x => { x with fcsr := 3 })
    (fun t => t.rx t.cur 6 == 3 && (t.ctx t.cur).fcsr == 0x1F3F) = true := by decide +kernel

/-! ### The SYS group -/

theorem wit_PlainSystemWords :
    met {} (span []) (fun _ t => ((t.cur.core.ctxs.filter fun o => o != t.cur && (t.ctx o).st == .ready &&
      decide ((t.ctx o).notBefore ≤ t.cyc)) == []) && (t.ctx t.cur).timed == none) = true ∧
    met {} ((span []).setCtx ⟨spanA, 3⟩ { st := .ready }) (fun _ t => !((t.cur.core.ctxs.filter fun o => o != t.cur &&
      (t.ctx o).st == .ready && decide ((t.ctx o).notBefore ≤ t.cyc)) == []) && (t.ctx t.cur).timed == none) = true ∧
    met {} (span []) (fun _ t => decide (10 ≠ t.cur.k ∧ 10 < t.nwin t.cur.core ∧ t.helperDone ⟨t.cur.core, 10⟩ = true)) = true ∧
    met {} ((span []).setCtx ⟨spanA, 3⟩ { st := .ready }) (fun _ t => decide (3 ≠ t.cur.k ∧ 3 < t.nwin t.cur.core ∧
      t.helperDone ⟨t.cur.core, 3⟩ = false ∧ (t.ctx t.cur).timed = none)) = true ∧
    met {} (span []) (fun _ t => decide ((t.ctx t.cur).grant = none ∧ (t.ctx t.cur).pkt = none ∧ t.storesDone t.cur = true ∧
      (t.cur.k = 0 → ∀ h ∈ t.cur.core.ctxs, h ≠ t.cur → (t.ctx h).st = .free))) = true := by decide +kernel

theorem wit_HelperStart :
    met { a := rd .x 5, b := rd .x 6, da := true, db := true } (span [(5, 8192), (6, 7)]) (fun _ t => Mem.wf t.mem &&
      decide (t.cur.k = 0 ∧ 10 < t.cur.core.kind.contexts ∧ 10 < t.nwin t.cur.core ∧ (t.ctx ⟨t.cur.core, 10⟩).st = .free ∧
        t.windowIds t.cur ⟨t.cur.core, 10⟩ = [])) = true ∧
    met { a := rd .x 5, b := rd .x 6, da := true, db := true }
      { span [] with flight := [{ acc .store .w with key := poolKey spanA 8192 }] } (fun _ t => Mem.wf t.mem &&
      decide (t.cur.k = 0 ∧ 1 < t.cur.core.kind.contexts ∧ 1 < t.nwin t.cur.core ∧ (t.ctx ⟨t.cur.core, 1⟩).st = .free ∧
        t.windowIds t.cur ⟨t.cur.core, 1⟩ ≠ [] ∧ (t.ctx t.cur).timed = none)) = true ∧
    met { a := rd .x 5, b := rd .x 6, da := true, db := true } { span [] with cur := ⟨spanA, 1⟩ } (fun _ t => decide (t.cur.k ≠ 0)) = true ∧
    met { a := rd .x 5, b := rd .x 6, da := true, db := true } (span []) (fun _ t => decide (t.cur.k = 0 ∧ t.nwin t.cur.core ≤ 11)) = true ∧
    met {} (span []) (fun _ t => decide (0 = t.cur.k)) = true := by decide +kernel

theorem test_start : after (.start 5 6 3 false) (span [(5, 8192), (6, 7)]) (fun t =>
    (t.ctx ⟨spanA, 3⟩).pc == 8192 && t.rx ⟨spanA, 3⟩ 2 == 7 && (t.ctx ⟨spanA, 3⟩).st == .ready) = true := by decide +kernel

theorem wit_TrapWords : met {} (span []) (fun _ _ => true) = true := by decide +kernel

/-- R409, R410: SCALL 42 from U: cause 62 with its code, the next word's address, S at the vector. -/
theorem test_scall : after .scall { (span []).own fun x => { x with trapS := { x.trapS with vec := 0x20001 } } with ir := 0x0A86 }
    (fun t => (t.ctx t.cur).trapS.epc == 4100 && (t.ctx t.cur).level == .s && (t.ctx t.cur).pc == 0x20000 + 64 * 62 &&
      bits (t.ctx t.cur).trapS.cause.toNat 17 8 == 42) = true := by decide +kernel

theorem wit_TrapTaken :
    (let x := (at_ spanA .u []).ctx ⟨spanA, 0⟩; x.level = .u) ∧
    (let x := (at_ spanA .s []).ctx ⟨spanA, 0⟩; x.level = .s ∧ x.trapS.inh = false) ∧
    (let x := ((at_ spanA .s []).own fun x => { x with trapS := { x.trapS with stat := 1 } }).ctx ⟨spanA, 0⟩
     x.level = .s ∧ x.trapS.inh = true) ∧
    (let x := (at_ spanA .h []).ctx ⟨spanA, 0⟩; x.level = .h ∧ x.trapH.inh = false) ∧
    (let s := (at_ spanA .h []).own fun x => { x with trapH := { x.trapH with stat := 1 } }
     Mem.wf s.mem = true ∧ (s.ctx s.cur).level = .h ∧ (s.ctx s.cur).trapH.inh = true) := by decide +kernel

theorem wit_ReturnFromTrap :
    met { level := .s } ((at_ spanA .s []).own fun x => { x with trapS := { x.trapS with stat := 1 } }) (fun _ t =>
      let x := t.ctx t.cur
      bit x.trapS.stat.toNat 0 && decide (bits x.trapS.cause.toNat 23 22 ≤ x.level.code) && decide (bits x.trapS.cause.toNat 23 22 ≠ 3)) = true ∧
    met { level := .s } (at_ spanA .s []) (fun _ t => !bit (t.ctx t.cur).trapS.stat.toNat 0) = true ∧
    (let s := span []; s.bad = none ∧ (s.ctx s.cur).level = .u ∧ (s.ctx s.cur).chainImm = none ∧ (s.ctx s.cur).chainMod = none) := by decide +kernel

/-- R414: the return to U at the saved address. -/
theorem test_eret : after .eret ((at_ spanA .s []).own fun x => { x with trapS := { x.trapS with stat := 0x70001, epc := 0x3000 } })
    (fun t => (t.ctx t.cur).level == .u && (t.ctx t.cur).pc == 0x3000 && (t.ctx t.cur).asid == 7) = true := by decide +kernel

theorem wit_StopRequests (h : enabled 0 0 0 = true) :
    (span []).launchOf spanA = some launchA ∧ launchA.has (coreOfWord 0) = true ∧ (coreOfWord 0).kind = .span ∧
    enabled (coreOfWord 0).pyl ((coreOfWord 0).y / 2) ((coreOfWord 0).x / 2) = true ∧ 2047 / 2 ^ (coreOfWord 0).kind.contexts = 0 ∧
    met { a := rd .x 5, b := rd .x 6, da := true, db := true } (span [(6, 2047)])
      (fun o t => o.a == 0 && o.b == 2047 && (t.ctx t.cur).timed == none) = true ∧
    met { a := rd .x 5, b := rd .x 6, da := true, db := true, scope := true, level := .s } { at_ spanA .h [(6, 2047)] with launches := [] }
      (fun o t => o.a == 0 && o.b == 2047 && (t.ctx t.cur).timed == none && t.mayReach t.cur 0) = true ∧
    (∀ kind < 3, let r := ((span []).own fun x => { x with st := .waiting, waitNo := 4 }).with_ ⟨spanA, 0⟩ [kind, 4]
     r.n 0 = kind ∧ (r.ctx ⟨spanA, 0⟩).st = .waiting ∧ r.n 1 = (r.ctx ⟨spanA, 0⟩).waitNo) := by
  refine ⟨by decide +kernel, by decide +kernel, by decide +kernel, ?_, by decide +kernel, by decide +kernel, by decide +kernel, by decide +kernel⟩
  have e : (coreOfWord 0).pyl = 0 ∧ (coreOfWord 0).y / 2 = 0 ∧ (coreOfWord 0).x / 2 = 0 := by decide +kernel
  rw [e.1, e.2.1, e.2.2]; exact h
/-- A target of FENCE.X is accepted when its cluster is enabled. -/
theorem wit_StopRequests_target (h : enabled 0 0 0 = true) : (span []).target ⟨spanA, 0⟩ 0 2047 true = .ok spanA := by
  have e : coreOfWord 0 = spanA := by decide +kernel
  have l : ((span []).launchOf spanA).any (·.has spanA) = true := by decide +kernel
  have k : 2047 / 2 ^ spanA.kind.contexts = 0 := by decide +kernel
  unfold State.target
  rw [e]
  simp only [l, if_true, k, ne_eq, not_true_eq_false, if_false]
  simp only [spanA, h]
  rfl

/-! ### Memory words -/

theorem wit_ScalarLoads :
    met { d := wr .x 31, a := rd .x 3, dd := true, imm := true } (span [(3, poolVa)]) (fun o t =>
      okay (t.aim t.cur (Word.ofI ((o.a : Int) + offM o 1023 3)).toNat 8 0 8 .l false true) fun p =>
        okay (t.loadAim t.cur p (made p .load .l (o.a - 8) 8 1 31)) (fun _ => true) && decide (o.m.dst = 0) && p.near t.cur &&
        clear (t.cancel t.cur 1 31) { made p .load .l (o.a - 8) 8 1 31 with post := 1 } &&
        ((t.cancel t.cur 1 31).poisoned p.key 8).isNone) = true ∧
    met { d := wr .x 0, a := rd .x 3, dd := true, imm := true }
      ((span [(3, poolVa)]).own fun x => { x with chainMod := some 1280, chainPc := some 4092 }) (fun o t =>
      okay (t.aim t.cur o.a 8 0 8 .l false true) fun p => let f := { made p .load .l o.a 8 7 5 with post := 1 }
        okay (t.loadAim t.cur p f) (fun _ => true) && o.m.dst == 5 && p.near t.cur && clear t f && (t.poisoned p.key 8).isNone) = true ∧
    met { d := wr .x 5, a := rd .x 3, dd := true, imm := true, deck := false, svc := false }
      { span [(3, winVa + 72)] with flight := [{ acc .store .w with key := poolKey spanA 72 }] } (fun o t =>
      okay (t.aim t.cur o.a 8 0 8 .w false true) fun p => p.near t.cur && !clear t (made p .load .w o.a 8 1 5) &&
        t.ownWindow t.cur p.key) = true ∧
    met { d := wr .x 5, a := rd .x 3, dd := true, imm := true, deck := false, svc := false }
      { span [(3, winVa + 8192)] with poison := [] } (fun o t =>
      okay (t.aim t.cur (Word.ofI ((o.a : Int) + offM o 0 0)).toNat 1 0 1 .w false false) fun p => p.near t.cur) = true ∧
    met { d := wr .x 5, a := rd .x 3, dd := true, imm := true } { span [(3, poolVa)] with poison := [poisonUnit (poolKey spanA 98304)] }
      (fun _ t => okay (t.aim t.cur poolVa 8 0 8 .l false true) fun p => p.near t.cur && ((t.cancel t.cur 1 5).poisoned p.key 8).isSome) = true ∧
    met { d := wr .x 5, a := rd .x 3, dd := true, imm := true } (span [(3, memVa)]).mapped
      (fun _ t => okay (t.aim t.cur memVa 8 0 8 .f false true) fun p => !p.near t.cur) = true := by decide +kernel

theorem test_ld_sign_extends : after (.ld 5 3 .l 0 true 0) ((span [(3, poolVa)]).wrMem (poolKey spanA 98304) 1 0x80 1 none)
    (fun t => t.rx t.cur 5 == 2 ^ 64 - 128) = true := by decide +kernel
theorem test_ld_halfword_unsigned : after (.ld 5 3 .l 1 false 1) ((span [(3, poolVa)]).wrMem (poolKey spanA 98306) 2 0x8001 3 none)
    (fun t => t.rx t.cur 5 == 0x8001) = true := by decide +kernel

theorem wit_ScalarStores :
    let g : Sig := { d := rd .x 5, a := rd .x 3, dd := true, imm := true }
    met g (span [(3, poolVa)]) (fun o t => okay (t.aim t.cur (Word.ofI ((o.a : Int) + offM o 512 3)).toNat 8 0 8 .l true true) fun p =>
      p.near t.cur && clear t (made p .store .l (o.a - 4096) 8 0 0)) = true ∧
    met { g with deck := false, svc := false } { span [(3, winVa + 72)] with flight := [{ acc .store .w with key := poolKey spanA 72 }] } (fun o t =>
      okay (t.aim t.cur o.a 8 0 8 .w true true) fun p => p.near t.cur && !clear t (made p .store .w o.a 8 0 0) &&
        t.ownWindow t.cur p.key) = true ∧
    met g (span [(3, memVa)]).mapped (fun _ t => okay (t.aim t.cur memVa 8 0 8 .g true true) fun p => !p.near t.cur) = true ∧
    met g ((span [(3, memVa)]).mapped.own fun x => { x with grant := some (loanA []) })
      (fun _ t => okay (t.aim t.cur memVa 8 0 8 .a true true) fun p => !p.near t.cur && (t.anchBusy t.cur p.key 8).isEmpty &&
        decide (t.bufferNeed t.cur (heldPut [] p.key memVa 8 5 255) ≤ 512)) = true ∧
    met g ((span [(3, memVa + 8 * 600)]).mapped.own fun x => { x with grant := some (loanA ((upFrom 0 512).map fun j => { key := memVa + 8 * j })) })
      (fun o t => okay (t.aim t.cur o.a 8 0 8 .a true true) fun p => (t.ctx t.cur).grant.any fun gr =>
        decide (512 < t.bufferNeed t.cur (heldPut gr.buf p.key o.a 8 5 255)) && (t.anchBusy t.cur p.key 8).isEmpty) = true ∧
    met g (span [(3, memVa)]).mapped (fun _ t => okay (t.aim t.cur memVa 8 0 8 .f true true) fun p => !p.near t.cur) = true := by
  decide +kernel

/-- What the publish buffer holds of the doubleword is sent first; so it is before an anchored store of a COMMUTE loan. -/
theorem wit_ScalarStores_behind :
    let g : Sig := { d := rd .x 5, a := rd .x 3, dd := true, imm := true }
    (∀ k ∈ [AccKind.f, .a], met g ((span [(3, memVa)]).mapped.own fun x => { x with
        publish := [{ key := memVa }], grant := some { loanA [] with snap := false } })
      (fun _ t => okay (t.aim t.cur memVa 8 0 8 k true true) fun p => !p.near t.cur && p.home.isSome && p.owner == none &&
        (t.ctx t.cur).publish.any fun h => reachesWord h.key p.key 8 255) = true) := by decide +kernel

theorem test_st_own_window : after (.st 5 3 .w 3 0) (span [(3, 1152921504606846976 * 7 + 72), (5, 77)])
    (fun t => t.rx t.cur 9 == 77) = true := by decide +kernel
theorem test_st_byte : after (.st 5 3 .l 0 0) (span [(3, poolVa), (5, 0x1FF)])
    (fun t => t.rdMem (poolKey spanA 98304) 8 == 0xFF) = true := by decide +kernel

theorem wit_MemoryWrites :
    (Mem.wf (span []).mem = true ∧ isDevice memVa = true ∧ ((span []).home (homeOf memVa)).regs = [] ∧
      (span []).hardZero memVa = false) ∧
    (Mem.wf (span []).mem = true ∧ isDevice (poolKey spanA 0) = false ∧ (span []).hardZero (poolKey spanA 0) = true) := by decide +kernel
/-- R80: the doubleword of x0 takes nothing. -/
theorem test_x0_word : ((span []).wrMem (poolKey spanA 0) 8 5 255 none).rdMem (poolKey spanA 0) 8 = 0 := by decide +kernel

theorem wit_AtomicWords : ∀ f ∈ [0, 9, 10, 11],
    met (atomicSig f 5 3 6) (span [(3, poolVa)]) (fun o t =>
      okay (t.aim t.cur o.a 8 0 8 (amoKind o.a false false) true false) fun p => p.near t.cur &&
        clear t { made p (.atomic f) (amoKind o.a false false) o.a 8 1 5 with acq := true, rel := true } &&
        (t.poisoned p.key 8).isNone && (t.releaseIds t.cur true).isEmpty) = true ∧
    met (atomicSig f 5 3 6) (span [(3, memVa)]).mapped (fun o t =>
      okay (t.aim t.cur o.a 8 0 8 (amoKind o.a false false) true false) fun p => !p.near t.cur) = true := by decide +kernel
/-- At the own window, with an access on its way that comes first, with none and a release, and with nothing before it. -/
theorem wit_AtomicWords_window : ∀ fl ∈ ([[], [{ acc .store .w with key := poolKey spanA 72 }], [acc .store .f]] : List (List Access)),
    met (atomicSig 0 5 3 6) { span [(3, poolVa - 98304 + 72)] with flight := fl } (fun o t =>
      okay (t.aim t.cur o.a 8 0 8 (amoKind o.a false false) true false) fun p => p.near t.cur && t.ownWindow t.cur p.key &&
        ((t.ahead { made p (.atomic 0) (amoKind o.a false false) o.a 8 1 5 with rel := true } != []) ==
          (fl.map (·.key) == [poolKey spanA 72])) &&
        ((t.releaseIds t.cur true != []) == (fl.map (·.kind) == [AccKind.f])) && (fl != [] || t.incoming t.cur p.key 8 true == none)) = true := by
  decide +kernel
theorem test_acas_fails : after (.acas 5 3 6 0 3 false) ((span [(3, poolVa), (5, 4), (6, 9)]).wrMem (poolKey spanA 98304) 8 3 255 none)
    (fun t => t.rx t.cur 5 == 3 && t.rdMem (poolKey spanA 98304) 8 == 3) = true := by decide +kernel
theorem test_amin_signed : after (.amin 5 3 6 0 3 false) ((span [(3, poolVa), (6, 2 ^ 64 - 1)]).wrMem (poolKey spanA 98304) 8 3 255 none)
    (fun t => t.rx t.cur 5 == 3 && t.rdMem (poolKey spanA 98304) 8 == 2 ^ 64 - 1) = true := by decide +kernel

theorem wit_AccessCauses :
    ((span []).ctx (span []).cur).level = .u ∧ ((at_ spanA .s []).ctx ⟨spanA, 0⟩).level ≠ .u ∧
    bits (15 * 2 ^ 60) 63 60 = 15 ∧ (15 * 2 ^ 60) % 8 = 0 ∧ (15 * 2 ^ 60 + 4) % 8 ≠ 0 ∧
    bits (2 ^ 60 * 14) 63 60 ∈ [1, 2, 3, 9, 10, 11, 13, 14] ∧
    bits (2 ^ 48) 63 60 = 0 ∧ bits (2 ^ 48) 59 48 ≠ 0 ∧ bits 65536 63 60 = 0 ∧ bits 65536 59 48 = 0 := by decide +kernel

/-- The state with that access on its way, as the argument of its step. -/
def flown (f : Access) : State := ({ span [] with flight := [f] } : State).with_ ⟨spanA, 0⟩ [7]
theorem wit_OrderingPoint :
    (∀ f ∈ [acc .store .f, acc (.atomic 0) .f, acc .load .f], (flown f).access ((flown f).n 0) = some f ∧ f.performed = false ∧
      (flown f).waitsFor f.ctx.core f.after = false ∧ (flown f).rowSoon (f.key / 2048 * 2048) = false ∧
      (placeCluster f.key).elim Power.awake (fun k => ((flown f).cluster k).power) = .awake ∧ (flown f).contended f.key (some f.ctx) = false ∧
      f.key < ctlBase ∧ (keyPylon f.key).any (flown f).off = false ∧ (flown f).holdOf f.key f.n = none ∧ (flown f).poisoned f.key 8 = none ∧ (flown f).emptyRow f.key = false ∧ (flown f).hitsPoison f = none) ∧
    (let s := { flown (acc .load .f) with emptyRows := [memVa] }; s.emptyRow memVa = true) ∧
    (let g : Access := { acc .store .f with id := 6 }
     let s := ({ span [] with flight := [g, { acc .load .f with after := [6] }] } : State).with_ ⟨spanA, 0⟩ [7]
     s.waitsFor spanA [6] = true) ∧
    (let m : Master := { mid := 0, base := memVa, pa := [memVa], rows := 128, cols := 128, slot := 24, asid := 1, live := true, hold := some 0 }
     let s := (flown (acc .store .f)).setPylon 0 { (flown (acc .store .f)).pylon 0 with masters := [m] }
     s.holdOf memVa 8 = some 0 ∧ s.contended memVa (some ⟨spanA, 0⟩) = false) := by decide +kernel
/-- A store to the pool of a cluster that is gated, waking, or failed. -/
theorem wit_OrderingPoint_power : ∀ pw ∈ [Power.gated, .waking 0, .failed],
    let f : Access := { acc .store .l with key := poolKey ⟨.span, 0, 0, 2⟩ 65536 }
    let s := (flown f).setCluster 1 { (flown f).cluster 1 with power := pw }
    s.access (s.n 0) = some f ∧ s.waitsFor f.ctx.core f.after = false ∧ s.contended f.key (some f.ctx) = false ∧
    (keyPylon f.key).any s.off = false ∧ placeCluster f.key = some 1 ∧ (s.cluster 1).power = pw := by decide +kernel
theorem test_store_performed : after .accessAtOrderingPoint (flown (acc .store .f)) (fun t => Mem.read t.mem memVa 8 == 5) = true := by
  decide +kernel

/-! ### Supervisor, synchronisation, tasks, messages -/

theorem wit_SupervisorAndCommandWords (h : enabled 0 0 0 = true) :
    met { rr 5 0 with level := .s } ((at_ spanA .s []).own fun x => { x with wfiCst := true }) (fun o t =>
      decide (t.wfiMask t.cur false ≠ 0) && okay ((t.setCtx t.cur (t.ctx t.cur).wfiClear).putX t.cur o 5 (t.wfiMask t.cur false)) fun _ => true) = true ∧
    met { rr 5 0 with level := .s } (at_ spanA .s []) (fun _ t => decide (t.wfiMask t.cur false = 0 ∧ (t.ctx t.cur).timed = none ∧
      (t.ctx t.cur).st ≠ .waiting)) = true ∧
    enabled 0 (bits 0 8 4) (bits 0 3 0) = true ∧
    (∀ pw ∈ [(Power.gated, false), (.awake, true), (.awake, false)],
      met { rr 5 0 with level := .s } ((at_ spanA .h []).setCluster 0 { power := pw.1, gateReq := pw.2 }) (fun o t =>
        decide (o.a < 4096) && okay (t.putX t.cur o 5 2) fun _ => true) = true) ∧
    (let s : State := { at_ spanA .h [] with launches := [] }; s.mayReach s.cur 0 = true) ∧
    met { a := rd .x 5, b := rd .x 6, da := true, db := true, scope := true, level := .s } (at_ spanA .s []) (fun _ t =>
      t.releaseIds t.cur false == []) = true ∧
    (let w (i : Nat) := ([memVa, 0, 0, 0, 0, 256, 0, 0] : List Nat).getD i 0
     blockBad w = false ∧ w 5 % 4 = 0 ∧ w 2 = 0 ∧ (w 0 + 16) % 8 = 0 ∧
     met { a := rd .x 4, da := true, scope := true } ((at_ spanA .s [(4, poolVa)]).mapped.wrMem (poolKey spanA 98304) 64 (ofLanes 64 [memVa, 0, 0, 0, 0, 256, 0, 0])
         (2 ^ 64 - 1) none) (fun o t => okay (t.ownWords t.cur o.a 64) fun ws => ws == [memVa, 0, 0, 0, 0, 256, 0, 0]) = true) := by
  refine ⟨by decide +kernel, by decide +kernel, ?_, by decide +kernel, by decide +kernel, by decide +kernel, by decide +kernel⟩
  have e : bits 0 8 4 = 0 ∧ bits 0 3 0 = 0 := by decide
  rw [e.1, e.2]; exact h

/-- May the core's context arrive at a barrier of the domain (`mayArrive`)? -/
def arrives (t : State) (dom : Nat) : Bool :=
  t.launchOf t.cur.core == some launchA && (dom == 0 || bit launchA.dmask dom) && bit (t.core t.cur.core).memb.toNat dom &&
  (t.ctx t.cur).parrive == none && (t.ctx t.cur).timed == none
theorem wit_ArrivalWords :
    met (phaseSig 9 true) (span [(9, 5)]) (fun o t => domain true o t == 5 && arrives t 5) = true ∧
    met { phaseSig 0 false with deck := false } (span []) (fun o t => domain false o t == 0 && arrives t 0) = true ∧
    met { phaseSig 9 true with deck := false } (span [(9, 5)]) (fun _ t => arrives t 5 && launchA.pylonDomain 5 &&
      !(Tab.get launchA.barriers 5 {}).timed t.cur.core) = true ∧
    met { phaseSig 0 false with a := rd .x 4, da := true } (span [(4, poolVa)]) (fun o t => arrives t 0 &&
      okay (t.payloadKey t.cur o.a) fun _ => true) = true := by decide +kernel
/-- A launch of two pylons. -/
def launchB : Launch := { launchA with pyls := 3, doms := [(0, [spanA, { spanA with pyl := 1 }])] }
theorem wit_ArrivalCauses :
    met (phaseSig 9 true) (span [(9, 63)]) (fun o t => t.launchOf t.cur.core == some launchA && domain true o t == 63 &&
      !bit launchA.dmask 63) = true ∧
    met (phaseSig 9 true) ((span [(9, 5)]).setCore spanA { (span []).core spanA with memb := 1 }) (fun o t => domain true o t == 5 &&
      t.launchOf t.cur.core == some launchA && bit launchA.dmask 5 && !bit (t.core t.cur.core).memb.toNat 5) = true ∧
    met (phaseSig 9 false) ((span []).own fun x => { x with parrive := some (0, false) }) (fun o t => domain false o t == 0 &&
      t.launchOf t.cur.core == some launchA && bit (t.core t.cur.core).memb.toNat 0 && (t.ctx t.cur).parrive != none) = true ∧
    met { svc := false } (span []) (fun _ t => (t.ctx t.cur).parrive == none) = true ∧
    met { phaseSig 0 false with deck := false } { span [] with launches := [launchB] } (fun o t =>
      domain false o t == 0 && t.launchOf t.cur.core == some launchB && bit (t.core t.cur.core).memb.toNat 0 &&
      !launchB.pylonDomain 0 && (t.ctx t.cur).parrive == none && (t.ctx t.cur).timed == none) = true ∧
    traps (anchorBad (2 * 2 ^ 60 + 2 ^ 48 + 8) 0 true [] 0 []) 54 1 8 = true ∧
    traps (anchorBad 8 0 true [] 0 []) 54 2 8 = true ∧ traps (anchorBad (2049 * 2 ^ 48) 0 true [] 0 []) 54 2 0 = true ∧
    traps (anchorBad (2 * 2 ^ 48 + 16376) 0 true [] 0 []) 54 3 16376 = true ∧
    traps (anchorBad (2 ^ 48 + 8) 128 true [] 0 []) 54 4 8 = true ∧ traps (anchorBad (2 ^ 48 + 8) 0 false [1] 0 []) 54 4 8 = true ∧
    traps (anchorBad (2 ^ 48 + 8) 0 true [] 2 []) 54 5 2 = true ∧
    traps (anchorBad (2 ^ 48 + 12) 0 true [] 0 [(12, 8)]) 54 6 12 = true ∧ traps (anchorBad (2 ^ 48 + 8) 0 true [] 0 [(8, 8), (9, 2), (4, 8)]) 54 6 9 = true ∧
    okay (anchorBad (2048 * 2 ^ 48 + 16384) 127 true [] 4 [(8, 8)]) (fun _ => true) = true := by decide +kernel

theorem test_phase : after (.phase 0 false) (span []) (fun t => (t.ctx t.cur).wait == .barrier 0 false && (t.ctx t.cur).st == .waiting) = true := by
  decide +kernel
theorem test_bdom : after (.bdom 4) (span [(4, 5)]) (fun t => (t.core spanA).bdom == 5) = true := by decide +kernel

theorem wit_SyncWords :
    met {} (span []) (fun _ _ => true) = true ∧
    met { svc := false } ((span []).own fun x => { x with parrive := some (63, true) }) (fun _ t => (t.ctx t.cur).parrive == some (63, true)) = true ∧
    met { svc := false } ((span []).own fun x => { x with parrive := some (0, false) }) (fun _ t => (t.ctx t.cur).parrive == some (0, false)) = true ∧
    met { a := rd .x 4, da := true, scope := true, svc := false } (span [(4, 5)]) (fun o t => decide (∀ l ∈ t.launches, o.a % 64 = 0 ∨ bit l.dmask (o.a % 64) = true)) = true ∧
    met { a := rd .x 5, b := rd .x 6, da := true, db := true, scope := true, svc := false } (span [(5, memVa), (6, 3)]).mapped (fun o t =>
      okay (t.aim t.cur o.a 8 0 8 .f false false) (fun _ => true) && t.launchOf t.cur.core == some launchA && bit (t.core t.cur.core).memb.toNat 0 &&
      (Tab.get launchA.barriers 0 {}).due == none && !(Tab.get launchA.barriers 0 {}).sysArrived && t.releaseIds t.cur false == []) = true ∧
    met { d := wr .x 7, a := rd .x 5, b := rd .x 6, dd := true, da := true, db := true } (span [(5, poolVa)]) (fun o t =>
      okay (t.aim t.cur o.a 8 0 8 .l false false) (fun p => p.near t.cur && clear (t.cancel t.cur 1 7) (made p (.mon 3 0) .l o.a 8 1 7) &&
        (t.poisoned p.key 8).isNone) && o.b == 0 && decide (o.m.dst = 0) && (t.cluster t.cur.core.cluster).watchOrder == []) = true ∧
    met { d := wr .x 7, a := rd .x 5, b := rd .x 6, dd := true, da := true, db := true } (span [(5, memVa)]).mapped (fun o t =>
      okay (t.aim t.cur o.a 8 0 8 .f false false) fun p => !p.near t.cur) = true ∧
    met { d := wr .x 8, dd := true } ((span []).own fun x => { x with spurious := true }) (fun o t => t.mwaitDone t.cur &&
      okay (t.putX t.cur o 8 (t.ctx t.cur).watchMask) fun _ => true) = true ∧
    met { d := wr .x 8, dd := true } ((span []).own fun x => { x with watch3 := { armed := true, key := memVa, va := memVa } }) (fun _ t =>
      !t.mwaitDone t.cur && (t.ctx t.cur).timed == none) = true ∧
    met { a := rd .x 5, da := true } (span []) (fun o t => decide (o.a ≤ t.cyc)) = true ∧
    met { a := rd .x 5, da := true } (span [(5, 1)]) (fun o t => decide (t.cyc < o.a) && (t.ctx t.cur).timed == none) = true ∧
    met { other := 2, svc := false } ((span []).own fun x => { x with raised := true }) (fun _ t => (t.ctx t.cur).raised) = true ∧
    met { other := 2, svc := false } ((span []).setCluster 0 { ev := [(15, 1)] }) (fun _ t => !(t.ctx t.cur).raised &&
      Tab.get (t.cluster t.cur.core.cluster).ev 15 0 != 0) = true ∧
    met { other := 2, svc := false } (span []) (fun _ t => !(t.ctx t.cur).raised && Tab.get (t.cluster t.cur.core.cluster).ev 15 0 == 0) = true := by
  decide +kernel
/-- PWAIT behind a barrier that timed out; MWAIT of an entry that fired on a stamp, and of one that was evicted. -/
theorem wit_SyncWords_again :
    met { svc := false } ((span []).own fun x => { x with again := some 5 }) (fun _ t => (t.ctx t.cur).again == some 5 && arrives t 5) = true ∧
    (∀ w ∈ [({ fired := true, mark := true } : Watch), { evicted := true }],
      met { d := wr .x 8, dd := true } ((span []).own fun x => { x with watch2 := w }) (fun o t => t.mwaitDone t.cur &&
        (t.ctx t.cur).watchMask != 0 && okay ((if w.mark then t.snapBoundary t.cur else t).putX t.cur o 8 (t.ctx t.cur).watchMask) fun _ => true) = true) := by
  decide +kernel
theorem test_waitt_zero : after (.waitt 0) (span []) (fun t => (t.ctx t.cur).pc == 4100 && (t.ctx t.cur).st == .ready) = true := by decide +kernel

/-- A descriptor of one doubleword at VA 0x10000 for queue use, in the pool at 0x18000. -/
def descA : List Nat := [memVa + 2 ^ 48, 2, 0, 0, 0, 0, 0, 0, 0, 0, 0, 0, 0, 0, 0, 0]
def posted (regs : List (Nat × Nat)) : State :=
  (span ([(4, poolVa), (5, 63)] ++ regs)).mapped.wrMem (poolKey spanA 98304) 128 (ofLanes 64 descA) (2 ^ 128 - 1) none
/-- A granted task. -/
def heldTask (s : State) : State := s.own fun x => { x with grant := some { loanA [] with home := 2, queue := 3 } }
theorem wit_TaskWords :
    (∀ s ∈ [posted [], heldTask (posted [])],
      met { a := rd .x 4, b := rd .x 5, da := true, db := true, scope := true, svc := false } s (fun o t =>
        okay (t.ownWords t.cur o.a 128) (fun ws => ws == descA && okay (anchorBad (ws.getD 0 0) (ws.getD 1 0) true [] (ws.getD 2 0)
          ((ws.getD 7 0, 8) :: (upFrom 0 4).map fun j => (ws.getD (8 + 2 * j) 0, 8))) (fun _ => true) &&
          okay (t.aim t.cur (bits (ws.getD 0 0) 47 0) 8 0 8 .f true false) (fun _ => true) &&
          okay (t.depPlaces t.cur (fun i => ws.getD i 0) (upFrom 0 4)) (fun _ => true) && ws.getD 7 0 == 0)) = true) ∧
    (posted []).ctx ⟨spanA, 0⟩ = { st := .ready, pc := 4096, asid := 1 } ∧
    (∀ row ∈ [memVa, memVa + 16384], ∀ w ∈ [[memVa + 2 ^ 48, 2, 0, 0, 0, row, 0, 0]],
      met { a := rd .x 4, da := true, scope := true, svc := false } ((posted []).wrMem (poolKey spanA 98304) 64 (ofLanes 64 w) (2 ^ 64 - 1) none) (fun o t =>
        okay (t.ownWords t.cur o.a 64) (fun ws => ws == w && okay (anchorBad (w.getD 0 0) 2 false [0, 0] 0 [(row, 2048)]) (fun _ => true) &&
        okay (t.aim t.cur (bits (w.getD 0 0) 47 0) 8 0 8 .f true false) (fun p =>
          okay (t.aim t.cur row 8 0 8 .f true false) fun r => (homeOf r.key == homeOf p.key) == (row == memVa)))) = true) ∧
    met { rrr 6 4 5 with scope := true, svc := false } (span [(4, memVa), (5, 63)]).mapped (fun o t =>
      okay (t.namedHome t.cur o.a) (fun _ => true) && (t.ctx t.cur).grant == none && decide (o.m.dst = 0) &&
      okay (t.sfuAim t.cur o.m.dst 0 t.cyc false) (fun _ => true)) = true ∧
    met { rrr 6 4 5 with scope := true, svc := false } (heldTask (span [])) (fun _ t => (t.ctx t.cur).grant != none) = true ∧
    met { svc := false } (span []) (fun _ t => (t.ctx t.cur).grant == none && !bit (t.ctx t.cur).tgrp.toNat 0) = true ∧
    met { svc := false } (heldTask (span [])) (fun _ t => okay (t.readReg t.cur ⟨.x, .read, 1⟩) fun _ => true) = true ∧
    met { a := rd .x 4, b := rd .x 5, da := true, db := true, svc := false } (span [(4, memVa), (5, 63)]).mapped (fun o t =>
      okay (t.namedHome t.cur o.a) fun h => !bit (t.ctx t.cur).tgrp.toNat 0 &&
        decide ((t.queue h (o.b % 64)).members.length + (t.queue h (o.b % 64)).holders.length < 64) && t.agenda == []) = true ∧
    met { svc := false } ((span []).own fun x => { x with tgrp := 1 }) (fun _ t => bit (t.ctx t.cur).tgrp.toNat 0) = true ∧
    met { rr 6 7 with svc := false } ((span []).own fun x => { x with tgrp := 5 }) (fun o t => bit (t.ctx t.cur).tgrp.toNat 2 &&
      okay (t.putX t.cur o 6 1) fun _ => true) = true ∧
    met { rr 6 7 with svc := false } (span []) (fun o t => !bit (t.ctx t.cur).tgrp.toNat 2 && o.a == 0 &&
      okay (t.sfuAim t.cur o.m.dst 0 t.cyc false) fun _ => true) = true := by decide +kernel

/-- TJOIN from another group, to the group it is in, and to one that is full. -/
theorem wit_TaskWords_join : ∀ e ∈ [(9, 0), (1, 0), (0, 64)],
    met { a := rd .x 4, b := rd .x 5, da := true, db := true, svc := false } (((span [(4, memVa), (5, 0)]).mapped.own fun x =>
        { x with tgrp := Word.ofN (e.1 + 512 * homeOf memVa) }).setQueue (homeOf memVa) 0 { members := List.replicate e.2 { ctx := ⟨deckA, 0⟩ } }) (fun o t =>
      okay (t.namedHome t.cur o.a) fun h => let g := (t.ctx t.cur).tgrp.toNat
        h == homeOf memVa && ((bit g 0, bits g 8 3) == (decide (e.1 ≠ 0), e.1 / 8)) && ((t.queue h (o.b % 64)).members.length == e.2)) = true := by
  decide +kernel

theorem test_tsteal_held : after (.tsteal 6 4 5) (heldTask (span [])) (fun t => (t.ctx t.cur).trapS.cause == 53 &&
    bits (t.ctx t.cur).trapS.info.toNat 47 40 == 3) = true := by decide +kernel

theorem wit_PacketAndEngineWords :
    met { d := rd .x 5, a := rd .x 9, dd := true, da := true, svc := false } (span [(9, 0)]) (fun o t => (t.ctx t.cur).pkt == none &&
      t.launchOf t.cur.core == some launchA && launchA.has (coreOfWord o.a) && (t.core (coreOfWord o.a)).rxWait == []) = true ∧
    met { d := rd .x 5, a := rd .x 9, dd := true, da := true, svc := false } ((span []).own fun x => { x with
      pkt := some { dst := spanA, words := List.replicate 63 0 } }) (fun _ t => (t.ctx t.cur).pkt.any fun p =>
        decide ((t.ctx t.cur).handlers ≤ p.depth ∧ p.words.length < 64 ∧ (t.core p.dst).rxWait = [])) = true ∧
    met { d := rd .x 5, a := rd .x 9, dd := true, da := true, svc := false } (span [(9, 32)]) (fun o t => (t.ctx t.cur).pkt == none &&
      !launchA.has (coreOfWord o.a)) = true ∧
    met { d := wr .x 6, dd := true, svc := false } ((span []).setCore spanA { (span []).core spanA with
        rx := [{ word := 9, src := ⟨deckA, 0⟩, first := true, last := true }] }) (fun o t => (t.core t.cur.core).rx != [] &&
      t.recvFirst t.cur && okay (t.putX t.cur o 6 9) fun _ => true) = true ∧
    met { d := wr .x 6, dd := true, svc := false } (span []) (fun o t => (t.core t.cur.core).rx == [] && puts 6 (fun _ _ => 0) o t) = true ∧
    met { a := rd .x 4, da := true, scope := true, svc := false } (posted []) (fun o t => okay (t.ownWords t.cur o.a 64) (fun _ => true) &&
      decide ((t.cluster 0).gq.length < 16)) = true ∧
    met { a := rd .x 4, b := rd .x 5, da := true, db := true, scope := true, svc := false } (posted []) (fun o t => okay (t.ownWords t.cur o.a 128) (fun _ => true) &&
      (t.ctx t.cur).timed == none) = true ∧
    met { rr 6 7 with level := .s } (at_ spanA .s []) (fun o t => puts 6 (fun _ _ => 0) o t) = true := by decide +kernel
/-- A packet of the program that a handler has interrupted, and one of 64 words. -/
theorem wit_PacketAndEngineWords_full_packet :
    (let s := (at_ spanA .s [(9, 0)]).own fun x => { x with pkt := some { dst := spanA }, trapS := { x.trapS with stat := 1 } }
     met { d := rd .x 5, a := rd .x 9, dd := true, da := true, svc := false } s (fun _ t => (t.ctx t.cur).pkt.any fun q =>
       decide (q.depth < (t.ctx t.cur).handlers)) = true) ∧
    met { d := rd .x 5, a := rd .x 9, dd := true, da := true, svc := false } ((span []).own fun x => { x with
      pkt := some { dst := spanA, words := List.replicate 64 0 } }) (fun _ t => (t.ctx t.cur).pkt.any fun q =>
        decide ((t.ctx t.cur).handlers ≤ q.depth ∧ 64 ≤ q.words.length)) = true := by decide +kernel
/-- A gather queue of 16 descriptors is full (R374). -/
theorem wit_PacketAndEngineWords_full : met { a := rd .x 4, da := true, scope := true, svc := false } ((posted []).setCluster 0 { (posted []).cluster 0 with
    gq := List.replicate 16 { ctx := ⟨spanA, 0⟩, va := 0, desc := [], asid := 1, after := [] } }) (fun o t =>
      okay (t.ownWords t.cur o.a 64) (fun _ => true) && decide (16 ≤ (t.cluster 0).gq.length)) = true := by decide +kernel
theorem test_recv : after (.recv 6) ((span []).setCore spanA { (span []).core spanA with
    rx := [{ word := 9, src := ⟨deckA, 0⟩, first := true, last := true }] }) (fun t => t.rx t.cur 6 == 9 && (t.core spanA).rx == []) = true := by
  decide +kernel

/-! ### Words that complete -/

theorem wit_SystemWordsComplete :
    (let s := span [(5, 8192), (6, 7)]
     Bare s ∧ Complete s 5 ∧ Complete s 6 ∧ s.cur.k = 0 ∧ 10 < s.cur.core.kind.contexts ∧ 10 < s.nwin s.cur.core ∧
     (s.ctx ⟨spanA, 10⟩).st = .free ∧ s.windowIds s.cur ⟨spanA, 10⟩ = [] ∧ s.helperDone ⟨spanA, 10⟩ = true) ∧
    (let s := (at_ spanA .s []).own fun x => { x with trapS := { x.trapS with stat := 1 } }
     let x := s.ctx s.cur
     Bare s ∧ x.level ≠ .u ∧ bit x.trapS.stat.toNat 0 = true ∧ bits x.trapS.cause.toNat 23 22 ≤ x.level.code ∧ bits x.trapS.cause.toNat 23 22 ≠ 3) ∧
    (let s := at_ spanA .h [(6, 2047)]; Bare s ∧ Complete s 5 ∧ Complete s 6 ∧ (s.ctx s.cur).level ≠ .u ∧ reg s 6 = 2047) := by decide +kernel
/-- The targets of CSTOP, CRESUME and FENCE.X in it are found when their cluster is enabled. -/
theorem wit_SystemWordsComplete_target (h : enabled 0 0 0 = true) :
    (span []).target ⟨spanA, 0⟩ (reg (span []) 5) (reg (span []) 5) true = .ok spanA := by
  have e : coreOfWord (reg (span []) 5) = spanA := by decide +kernel
  have l : ((span []).launchOf spanA).any (·.has spanA) = true := by decide +kernel
  have k : reg (span []) 5 / 2 ^ spanA.kind.contexts = 0 := by decide +kernel
  unfold State.target
  rw [e]
  simp only [l, if_true, k, ne_eq, not_true_eq_false, if_false]
  simp only [spanA, h]
  rfl
theorem test_joinh_free : after (.joinh 10) (span []) (fun t => (t.ctx t.cur).pc == 4100) = true := by decide +kernel

theorem wit_SyncWordsComplete :
    (let s := span [(4, 63 * 64 + 5), (5, memVa), (6, 3)]
     Bare s ∧ s.cur.core.kind = .span ∧ Complete s 4 ∧ (∀ l ∈ s.launches, reg s 4 % 64 = 0 ∨ bit l.dmask (reg s 4 % 64) = true)) ∧
    (let s := (span []).own fun x => { x with parrive := some (63, true), raised := true, spurious := true }
     Bare s ∧ (s.ctx s.cur).parrive = some (63, true) ∧ (s.ctx s.cur).raised = true ∧ s.mwaitDone s.cur = true) ∧
    (let s := (span [(5, memVa), (6, 3)]).mapped
     Bare s ∧ Complete s 5 ∧ Complete s 6 ∧ s.launchOf s.cur.core = some launchA ∧ bit (s.core s.cur.core).memb.toNat 0 = true ∧
     ((Tab.get launchA.barriers 0 {}).exps.filter (·.core == s.cur.core)).length < 4 ∧ s.releaseIds s.cur false = [] ∧
     okay (s.aim s.cur (reg s 5) 8 0 8 .f false false) (fun p => !p.near s.cur) = true) ∧
    (let s := span [(5, poolVa)]
     Bare s ∧ reg s 6 = 0 ∧ okay (s.aim s.cur (reg s 5) 8 0 8 .l false false) (fun p => p.near s.cur &&
      clear (s.cancel s.cur 1 7) (made p (.mon 3 0) .l (reg s 5) 8 1 7)) = true) ∧
    (let s := (span []).setCluster 0 { ev := [(15, 1)] }
     Bare s ∧ (s.ctx s.cur).raised = false ∧ Tab.get (s.cluster s.cur.core.cluster).ev 15 0 ≠ 0) := by decide +kernel

/-! ### Numbers, vectors, intervals -/

theorem wit_BinaryRoundTrip : ∀ e ∈ ([(24, 8, 2 ^ 32 - 1 - 2 ^ 23), (53, 11, 0), (8, 8, 1), (11, 5, 2 ^ 15)] : List (Nat × Nat × Nat)),
    e.2.2 < 2 ^ (e.1 + e.2.1) ∧ (decodeBin e.1 e.2.1 e.2.2).isNan = false := by decide +kernel

/-- Is a tag that of a typed value of a slot without a scale? -/
def isTyped (tag slot : Nat) : Bool := tag % 32 == slot && bit tag 14 && !bit tag 5 && !bit tag 15
/-- Typed operands A, B and C of a slot in v2, v3 and v4. -/
def vecs (slot x y z : Nat) : State := (span []).withV [(1, slot, 0), (2, slot, x), (3, slot, y), (4, slot, z)]
/-- A's tag is right, the destination has no cause of its own, and the old lanes of D can be read. -/
def vecOk (slot d : Nat) (o : Opnds) (t : State) : Bool := isTyped o.ta slot && okay (t.dstCheck t.cur o true) (fun _ => true) && okay (t.oldV t.cur o d (lanesOf slot)) fun _ => true
def putsV (d v tag : Nat) (o : Opnds) (t : State) : Bool := okay (t.dstCheck t.cur o true) (fun _ => true) && okay (t.putV t.cur o d v tag) fun _ => true

theorem wit_VectorArithmetic :
    (∀ slot ∈ [26, 28, 24],
      met (valuSig 1 2 (some 3) none) (vecs slot 5 6 7) (fun o t => vecOk slot 1 o t && isTyped o.tb slot &&
        putsV 1 0 (16384 + slot) o t) = true ∧
      met (valuSig 1 2 (some 3) (some 4)) (vecs slot 5 6 7) (fun o t => vecOk slot 1 o t && isTyped o.tb slot && isTyped o.tc slot) = true ∧
      met (valuSig 1 2 none none) (vecs slot 5 6 7) (fun o t => vecOk slot 1 o t) = true) ∧
    (vecs 28 0 0 0).mod.rnd = 0 ∧ isF 26 = true ∧ isF 24 = true ∧ isI 28 = true := by decide +kernel

/-- 1.0 + 2.0 in lane 0, FP32; the other lanes are 0 + 0. -/
theorem test_vadd_fp32 : after (.vadd 1 2 3) (vecs 26 0x3F800000 0x40000000 0) (fun t => t.rv t.cur 1 == 0x40400000 &&
    t.vtag t.cur 1 == 16410) = true := by decide +kernel
/-- R308, R309: an INT32 lane wraps. -/
theorem test_vadd_wraps : after (.vadd 1 2 3) (vecs 28 0x7FFFFFFF 1 0) (fun t => t.rv t.cur 1 % 2 ^ 32 == 0x80000000) = true := by decide +kernel
theorem test_vadds_saturates : after (.vadds 1 2 3) (vecs 28 0x7FFFFFFF 1 0) (fun t => t.rv t.cur 1 % 2 ^ 32 == 0x7FFFFFFF) = true := by
  decide +kernel
theorem test_tag_mismatch : after (.vadd 1 2 3) ((span []).withV [(2, 26, 0), (3, 28, 0)]) (fun t =>
    (t.ctx t.cur).trapS.cause == 6) = true := by decide +kernel

theorem wit_VectorMovesAndPredicates :
    met { valuSig 1 2 (some 3) none with pred := false, rnd := false } (vecs 26 1 2 0) (fun o t => isTyped o.ta 26 && isTyped o.tb 26 &&
      putsV 1 0 16410 o t) = true ∧
    met { valuSig 1 2 none none with pred := false, rnd := false } (vecs 26 1 2 0) (fun o t => isTyped o.ta 26 && putsV 1 0 16410 o t) = true ∧
    met { d := wr .v 1, a := rd .v 2, dd := true, da := true, pred := true, sat := true } (vecs 26 1 2 0) (fun o t => vecOk 26 1 o t &&
      decide (o.ta ≠ 16447)) = true ∧
    met { vplain 1 2 (some 3) with c := rd .p 7 } (vecs 26 1 2 0) (fun o _ => isTyped o.ta 26 && isTyped o.tb 26) = true ∧
    met (vplain 1 2 (some 3)) ((span []).withV [(2, 26, 1), (3, 28, 2)]) (fun o _ => isTyped o.ta 26 && isTyped o.tb 28 && isI 28 &&
      decide (lanesOf 26 ≤ lanesOf 28)) = true ∧
    met { vplain 1 2 (some 3) with c := rd .x 4 } (vecs 26 1 2 0) (fun o _ => isTyped o.ta 26 && isTyped o.tb 26) = true ∧
    met (vplain 1 2 (some 3)) (vecs 26 1 2 0) (fun o _ => isTyped o.ta 26 && isTyped o.tb 26) = true ∧
    met { d := wr .p 7, a := rd .v 2, b := rd .v 3, da := true, db := true, pred := true, deck := false, svc := false } (vecs 26 1 2 0)
      (fun o t => isTyped o.ta 26 && isTyped o.tb 26 && bits (t.ctx t.cur).fcsr.toNat 12 8 == 0) = true ∧
    met { d := wr .p 7, a := rd .p 0, b := rd .p 1 } (span []) (fun _ _ => true) = true ∧
    met { d := wr .x 7, a := rd .p 0, dd := true } (span []) (fun o t => puts 7 (fun _ _ => 128) o t) = true ∧
    met { d := wr .x 7, a := rd .i 15, dd := true, da := true, deck := false, svc := false } (span []) (fun o t => puts 7 (fun o _ => o.ta) o t) = true ∧
    met { d := wr .x 7, a := rd .v 2, b := rd .x 0, dd := true, da := true, deck := false, svc := false } (vecs 26 1 2 0) (fun o t =>
      isTyped o.ta 26 && puts 7 (fun _ _ => 1) o t) = true ∧
    met { vplain 1 2 none with b := rd .x 5 } (vecs 26 1 2 0) (fun o t => putsV 1 o.a (o.b % 65536) o t) = true ∧
    met { d := wr .i 1, a := rd .i 2, b := rd .x 5, dd := true, da := true, deck := false, svc := false } (span []) (fun o t =>
      okay (t.putI t.cur o 1 o.a (o.b % 65536)) fun _ => true) = true ∧
    met { d := wr .v 1, a := rd .x 5, dd := true, da := true, deck := false, svc := false } (span []) (fun o t => putsV 1 0 16410 o t) = true ∧
    met { d := rw .v 1, a := rd .x 5, b := rd .x 6, dd := true, da := true, deck := false, svc := false } (vecs 26 1 2 0) (fun o t =>
      isTyped o.td 26 && putsV 1 0 16410 o t) = true := by decide +kernel

theorem test_vcmplt : after (.vcmplt 2 5 6) ((span []).withV [(5, 26, 0x3F800000), (6, 26, 0x40000000)]) (fun t => t.rp t.cur 2 == 1) = true := by
  decide +kernel
theorem test_vmovx_sign : after (.vmovx 7 2 0) ((span []).withV [(2, 28, 0xFFFFFFFE)]) (fun t => t.rx t.cur 7 == 2 ^ 64 - 2) = true := by
  decide +kernel

theorem wit_Conversions :
    met (cvtSig 1 2 none) (vecs 26 1 2 0) (fun o t => isTyped o.ta 26 && decide (1 < max (lanesOf 26) (lanesOf 24) / min (lanesOf 26) (lanesOf 24)) &&
      okay (t.oldPart t.cur o 1 (lanesOf 26) (lanesOf 24)) fun _ => true) = true ∧
    met (cvtSig 1 2 none) (vecs 18 1 2 0) (fun o t => isTyped o.ta 18 && decide (3 < 128 / lanesOf 26) &&
      okay (t.oldPart t.cur o 1 128 (lanesOf 26)) fun _ => true) = true ∧
    met (vplain 1 2 none) ((vecs 26 1 2 0).withV [(5, 26, 0)]) (fun o t => isTyped o.ta 26 && decide (2 + 128 / lanesOf 26 ≤ 32) &&
      okay (t.groupV t.cur 26 (upFrom 3 3)) fun _ => true) = true ∧
    met (cvtSig 1 2 (some 3)) ((vecs 26 1 2 0).withV [(3, 28, 1)]) (fun o t => vecOk 26 1 o t && isTyped o.tb 28) = true ∧
    met (vplain 1 2 (some 3)) (vecs 20 1 2 0) (fun o t => isTyped o.ta 20 && isTyped o.tb 20 && putsV 1 0 16415 o t) = true ∧
    met (vplain 1 2 none) (vecs 31 1 2 0) (fun o t => decide (o.ta ≠ 16447) && putsV 1 0 16404 o t) = true := by decide +kernel

/-- R33: 1.0 and 2.0 from FP32 to BF16, lanes 0 to 31 of the destination. -/
theorem test_vcvt_bf16 : after (.vcvt 1 2 0 24) (vecs 26 (0x3F800000 + 2 ^ 32 * 0x40000000) 0 0)
    (fun t => t.rv t.cur 1 % 2 ^ 32 == 0x40003F80) = true := by decide +kernel

theorem wit_SpecialAndReduce :
    met (sfuSig 4 2 none none) (vecs 26 1 2 0) (fun o t => vecOk 26 4 o t && !((t.core t.cur.core).sfu.any (·.ctx == t.cur)) &&
      decide (o.m.dst = 0)) = true ∧
    met (sfuSig 4 2 (some 3) (some 6)) (vecs 26 1 2 0) (fun o t => vecOk 26 4 o t && isTyped o.tb 26) = true ∧
    met (sfuSig 4 2 none none) ((vecs 26 1 2 0).setCore spanA { (vecs 26 1 2 0).core spanA with sfu := [{ id := 1, ctx := ⟨spanA, 0⟩, outs := [] }] })
      (fun o t => vecOk 26 4 o t && (t.core t.cur.core).sfu.any (·.ctx == t.cur)) = true ∧
    (∀ slot ∈ [26, 28], met (redSig 1 2 true) (vecs slot 1 2 0) (fun o t => vecOk slot 1 o t && putsV 1 0 (16384 + slot) o t) = true) ∧
    met (redSig 1 2 false) (vecs 28 1 2 0) (fun o t => isTyped o.ta 28 && decide (∀ x ∈ ((List.range 32).filter (bit o.pred ·)).map fun k =>
      slotInt 28 (lane o.a 32 k), x ≤ 1) && putsV 1 0 (16384 + 28) o t) = true ∧
    (vecs 28 0 0 0).mod.rnd = 0 ∧ (vecs 28 0 0 0).mod.sat = false := by decide +kernel
theorem test_vrmin : after (.vrmin 1 2) (vecs 28 (0xFFFFFFFD + 2 ^ 32 * 5) 0 0) (fun t => t.rv t.cur 1 % 2 ^ 32 == 0xFFFFFFFD) = true := by
  decide +kernel

/-! ### Vector memory -/

theorem wit_VectorMemoryWords :
    met (vmSig 4 3 .v .write .l) (span [(3, poolVa)]) (fun o t => okay (t.fmtCheck t.cur.core 26) (fun _ => true) &&
      okay (t.sfuAim t.cur o.m.dst 0 (t.cyc + 4)) (fun _ => true) && decide (o.pred % 2 ^ lanesOf 26 + 1 = 2 ^ lanesOf 26) &&
      okay (t.loadV t.cur .l (Word.ofI ((o.a : Int) + offVM o 255)).toNat (t.slotLen t.cur 26) (memMask 26 128 o.pred)
        { vldAccess t o 4 26 with kind := .l }) fun _ => true) = true ∧
    met (vmSig 4 3 .v .read .l) ((span [(3, poolVa)]).withV [(4, 26, 9)]) (fun o t => isTyped o.td 26 &&
      okay (t.storeV t.cur .l (Word.ofI ((o.a : Int) + offVM o 0)).toNat 128 (t.image t.cur 26 o.d) (memMask 26 128 o.pred)) fun _ => true) = true ∧
    met { d := wr .v 4, a := rd .x 3, b := rd .x 5, dd := true, da := true, deck := false, svc := false } (span [(3, poolVa), (5, 127)])
      (fun o t => !bit o.b 8 && okay (t.loadV t.cur (vmemKind o.a false) o.a 128 (2 ^ 128 - 1)
        { vldAccess t o 4 18 with kind := .f, cmp := o.b, keep := ones128 }) fun _ => true) = true ∧
    met { d := rd .v 4, a := rd .x 3, b := wr .x 5, dd := true, da := true, deck := false, svc := false }
      ((span [(3, poolVa)]).withV [(4, 18, 9)]) (fun o t => o.td % 32 == 18 && bit o.td 14 && !bit o.td 15 && isN 18 && isMx 18 &&
        okay (t.fmtCheck t.cur.core 18) fun _ => true) = true ∧
    met { d := wr .v 30, a := rd .x 3, dd := true, da := true } (span [(3, poolVa)]) (fun o t => o.a % t.slotLen t.cur 26 == 0 &&
      okay (groupRun (vldmOne 30 26 o t) (upFrom 0 2) t) fun _ => true) = true ∧
    met { d := rd .v 30, a := rd .x 3, dd := true, da := true } ((span [(3, poolVa)]).withV [(30, 26, 9), (31, 26, 8)]) (fun o t =>
      o.a % t.slotLen t.cur 26 == 0 && !t.pending t.cur 2 30 && !t.pending t.cur 2 31 && okay (vstRule 30 26 { d := some o.td } t) (fun _ => true) &&
      okay (groupRun (vstmOne 30 26 o t) (upFrom 0 2) t) fun _ => true) = true ∧
    met { vmSig 15 3 .i .write .l with deck := false, svc := false } (span [(3, poolVa)]) (fun o t =>
      decide (o.pred % 2 ^ elemsIn false + 1 = 2 ^ elemsIn false) && okay (t.loadV t.cur .l (Word.ofI ((o.a : Int) + offVM o 0)).toNat 128
        (elemMask false o.pred) { id := 0, ctx := t.cur, act := .load, kind := .l, key := 0, va := 0, n := 128, dcls := 3, dreg := 15 })
        fun _ => true) = true ∧
    met { vmSig 15 3 .i .read .l with deck := false, svc := false } ((span [(3, poolVa)]).wi ⟨spanA, 0⟩ 15 0 49179) (fun o t =>
      o.td % 32 == 27 && bit o.td 14 && !bit o.td 5 && bit o.td 15 &&
      okay (t.storeV t.cur .l (Word.ofI ((o.a : Int) + offVM o 0)).toNat 128 o.d (elemMask true o.pred)) fun _ => true) = true := by decide +kernel

theorem test_vst_vld : after (.vst 4 3 26 .l 0) ((span [(3, poolVa)]).withV [(4, 26, 77)]) (fun t =>
    t.rdMem (poolKey spanA 98304) 8 == 77) = true := by decide +kernel

theorem wit_VectorTransfers :
    okay ((span []).aim ⟨spanA, 0⟩ poolVa 128 0 128 .l false false) (fun p => p.near ⟨spanA, 0⟩ && clear (span []) (made p .load .l poolVa 128 2 1) &&
      ((span []).poisonedMask p.key 128 (2 ^ 128 - 1)).isNone) = true ∧
    okay ((span []).aim ⟨spanA, 0⟩ poolVa 128 0 0 .l false false) (fun _ => true) = true ∧
    maskRange (2 ^ 128 - 1) 128 = (0, 128) ∧ maskRange 0 128 = (0, 0) ∧
    okay ((span []).mapped.aim ⟨spanA, 0⟩ memVa 128 0 128 .f false false) (fun p => !p.near ⟨spanA, 0⟩ && p.home != none) = true ∧
    okay ((span []).aim ⟨spanA, 0⟩ nextVa 128 0 128 .l false false) (fun p => !p.near ⟨spanA, 0⟩ && p.home == none && !p.peer) = true ∧
    okay ((span []).aim ⟨spanA, 0⟩ poolVa 64 0 64 .l true false) (fun p => p.near ⟨spanA, 0⟩ && p.home == none && !p.peer &&
      clear (span []) { made p .store .l poolVa 64 0 0 with val := 5, mask := 2 ^ 64 - 1 }) = true := by decide +kernel

/-- A stream state at poolVa: address, stride, COUNT 4 with ACT and KIND .l, and a reserved bit where asked. -/
def streamAt (bad : Nat) : State := (span [(9, poolVa)]).wrMem (poolKey spanA 98304) 32 (poolVa + 2 ^ 64 * 8 + 2 ^ 128 * (4 * 2 ^ 32 + 3 * 256 + bad))
  (2 ^ 32 - 1) none
theorem wit_LanesAndStreams :
    met { d := wr .v 1, a := rd .x 3, b := rd .v 2, dd := true, da := true, deck := false, svc := false } ((span [(3, poolVa)]).withV [(2, 28, 0)])
      (fun o t => isTyped o.tb 28 && isI 28 && decide (o.m.dst = 0) && okay (t.lanePlaces t.cur 4 false (idxAddrs o.a o.b o.tb 26)) fun ps =>
        ps.all fun p => p.2.near t.cur && clear (t.cancel t.cur 2 1) { made p.2 .load .l 0 4 2 1 with grp := t.nextId, tag := 16410, keep := ones128 } && (t.poisoned p.2.key 4).isNone) = true ∧
    met { d := rd .v 1, a := rd .x 3, b := rd .v 2, dd := true, da := true, deck := false, svc := false }
      ((span [(3, poolVa)]).withV [(1, 26, 5), (2, 28, 0)]) (fun o t => isTyped o.td 26 && isTyped o.tb 28 &&
        okay (t.lanePlaces t.cur 4 true (idxAddrs o.a o.b o.tb 26)) fun ps => okay ((ps.zip (List.range ps.length)).foldlM (fun t e =>
          t.storeAt t.cur e.1.2 .l e.1.1 4 (lane o.d 32 e.2) 15) t) fun _ => true) = true ∧
    (∀ bad ∈ [0, 65536], met { a := rd .x 9, da := true, other := 1, deck := false, svc := false } (streamAt bad) (fun o t =>
      Tab.get (t.ctx t.cur).ahead 23 [] == [] && okay (t.aim t.cur o.a 32 0 32 .l false false) fun p => p.near t.cur &&
        clear t (made p .load .l o.a 32 0 0) && (t.poisoned p.key 32).isNone && streamBad (t.rdMem p.key 32 / 2 ^ 128 % 2 ^ 64) (t.rdMem p.key 32 / 2 ^ 192 % 2 ^ 64) == (bad != 0)) = true) ∧
    met { other := 1, deck := false, svc := false } (span []) (fun _ _ => true) = true ∧
    met { d := wr .x 5, dd := true, other := 2, deck := false, svc := false } (span []) (fun o t => puts 5 (fun _ _ => 0) o t) = true := by decide +kernel
theorem test_sbind : after (.sbind 7 9) (streamAt 0) (fun t => t.rs t.cur 7 0 == poolVa && bit (t.rs t.cur 7 2) 15) = true := by decide +kernel

/-! ### Intervals -/

theorem wit_OutwardRounding : (Val.ofInt 3).isNan = false := by decide +kernel
theorem wit_ContractorsOnlyNarrow : ∃ lo hi,
    (contract false true false { x := fun z y => [(addB false z.1 y.2.flip, addB true z.2 y.1.flip)], y := fun _ y => [y] }
      (.iv (.ofInt 1) (.ofInt 4)) (.iv (.ofInt 0) (.ofInt 9)) (.iv (.ofInt 1) (.ofInt 2))).1 = .iv lo hi := ⟨_, _, by rfl⟩

/-- FP32 intervals in i registers: number and value. -/
def ivals (xs : List (Nat × Nat)) : State := xs.foldl (fun s x => s.wi s.cur x.1 x.2 16410) (span [])
/-- Is a tag that of FP32 intervals? -/
def ivOk (tag : Nat) (wide : Bool) : Bool := bit tag 14 && !bit tag 5 && tag % 32 == (if wide then 27 else 26) && bit tag 15 == wide
/-- [1, 2] and [3, 4] as FP32 bounds. -/
def oneTwo : Nat := 0x3F800000 + 2 ^ 32 * 0x40000000
def threeFour : Nat := 0x40400000 + 2 ^ 32 * 0x40800000
def putsI (d v tag : Nat) (o : Opnds) (t : State) : Bool := okay (t.oldI t.cur o d 16) (fun _ => true) && okay (t.putI t.cur o d v tag) fun _ => true
theorem wit_IntervalForward :
    met (iarSig 3 1 (some 2)) (ivals [(1, oneTwo), (2, threeFour)]) (fun o t => ivOk o.ta false && ivOk o.tb false && putsI 3 0 16410 o t &&
      !((t.core t.cur.core).sfu.any (·.ctx == t.cur)) && decide (o.m.dst = 0)) = true ∧
    met (iarSig 3 1 none) (ivals [(1, oneTwo)]) (fun o t => ivOk o.ta false && putsI 3 0 16410 o t) = true ∧
    met (iarSig 3 1 none) ((ivals []).wi ⟨spanA, 0⟩ 1 0 49179) (fun o t => ivOk o.ta true && putsI 3 0 49179 o t) = true ∧
    met { iarSig 3 1 (some 2) with c := rd .i 15, dd := false, da := false, db := false } (ivals [(1, oneTwo), (2, threeFour), (15, oneTwo)])
      (fun o t => ivOk o.ta false && ivOk o.tb false && ivOk o.tc false && putsI 3 0 16410 o t) = true ∧
    met { iarSig 3 1 none with b := rd .v 2, dd := false, da := false } ((ivals [(1, oneTwo)]).withV [(2, 28, 1)]) (fun o t =>
      ivOk o.ta false && isTyped o.tb 28 && putsI 3 0 16410 o t) = true := by decide +kernel
/-- [1, 2] + [3, 4] = [4, 6]. -/
theorem test_iadd : after (.iadd 3 1 2) (ivals [(1, oneTwo), (2, threeFour)]) (fun t => t.ri t.cur 3 % 2 ^ 64 == 0x40800000 + 2 ^ 32 * 0x40C00000) = true := by
  decide +kernel
theorem test_imeet_empty : after (.imeet 3 1 2) (ivals [(1, oneTwo), (2, threeFour)]) (fun t =>
    bit (t.ctx t.cur).iflag.toNat 1 && (Ival.at_ false (t.ri t.cur 3) 0).isEmpty) = true := by decide +kernel

theorem wit_NarrowingWords :
    met { d := rd .i 3, a := rw .i 1, b := rw .i 2, pred := true, deck := false, svc := false } (ivals [(1, oneTwo), (2, threeFour), (3, oneTwo)])
      (fun o t => ivOk o.td false && ivOk o.ta false && ivOk o.tb false && decide (∀ q ∈ (t.core t.cur.core).sfu, q.ctx = t.cur → q.pmask = none) &&
        !((t.core t.cur.core).sfu.any (·.ctx == t.cur))) = true ∧
    met { d := rd .i 3, a := rw .i 1, pred := true, deck := false, svc := false } (ivals [(1, oneTwo), (3, oneTwo)])
      (fun o _ => ivOk o.td false && ivOk o.ta false) = true ∧
    met { d := wr .i 3, a := rd .i 1, b := wr .i 2, dd := true, da := true, db := true, apart := true, deck := false, svc := false }
      (ivals [(1, oneTwo)]) (fun o t => ivOk o.ta false && okay (t.putI t.cur o 3 0 16410) fun t1 =>
        okay (t1.putI t.cur { o with m := { o.m with dst := o.m.srcb } } 2 0 16410) fun _ => true) = true ∧
    met { d := wr .i 3, dd := true, pred := true, deck := false, svc := false } (span []) (fun o t => putsI 3 0 16410 o t) = true ∧
    met { d := wr .i 3, a := rd .v 4, b := rd .v 5, dd := true, pred := true, deck := false, svc := false } ((span []).withV [(4, 26, 1), (5, 26, 2)])
      (fun o t => isTyped o.ta 26 && isTyped o.tb 26 && putsI 3 0 16410 o t) = true ∧
    met { d := rw .v 4, a := rd .i 1, da := true, pred := true, deck := false, svc := false } (ivals [(1, oneTwo)]) (fun o _ => ivOk o.ta false) = true := by
  decide +kernel
/-- R65: [1, 2] + y = [3, 4] leaves of y = [1, 9] the part [1, 3], and of x all. -/
theorem test_cadd : after (.cadd 3 1 2) (ivals [(1, oneTwo), (2, 0x3F800000 + 2 ^ 32 * 0x41100000), (3, threeFour)]) (fun t =>
    t.ri t.cur 1 % 2 ^ 64 == oneTwo && t.ri t.cur 2 % 2 ^ 64 == 0x3F800000 + 2 ^ 32 * 0x40400000) = true := by decide +kernel

theorem wit_ThreeValuedWords :
    met { d := rw .q 7, a := rd .i 1, b := rd .i 2, da := true, db := true, pred := true, deck := false, svc := false }
      (ivals [(1, oneTwo), (2, threeFour)]) (fun o _ => ivOk o.ta false && ivOk o.tb false) = true ∧
    met { d := rw .q 7, a := rd .i 1, da := true, pred := true, deck := false, svc := false } ((span []).wi ⟨spanA, 0⟩ 1 0 49179)
      (fun o _ => ivOk o.ta true) = true ∧
    met { d := wr .q 7, a := rd .q 1, b := rd .q 2, c := rd .q 3, deck := false, svc := false } (span []) (fun _ _ => true) = true ∧
    met { d := wr .x 31, a := rd .q 7, deck := false, svc := false } (span []) (fun o t => puts 31 (fun _ _ => 2) o t) = true ∧
    met { d := wr .q 7, deck := false, svc := false } (span []) (fun _ t => decide (∀ q ∈ (t.core t.cur.core).sfu, q.ctx = t.cur → q.pmask = none)) = true := by
  decide +kernel
/-- R70: every element of [1, 2] is below every one of [3, 4]; the other elements are [0, 0] on both sides: 0 is not below 0. -/
theorem test_iclt : after (.iclt 7 1 2) (ivals [(1, oneTwo), (2, threeFour)]) (fun t => t.rq t.cur 7 == 1) = true := by decide +kernel
/-- R71: unknown and false is false, unknown and true is unknown. -/
theorem test_qand : after (.qand 3 1 2) (((span []).wq ⟨spanA, 0⟩ 1 0xA).wq ⟨spanA, 0⟩ 2 0x4) (fun t => t.rq t.cur 3 == 0x8) = true := by decide +kernel

/-! ### Matrix unit, views -/

/-- A handle: base, rows and columns of 128, stride, slot and kind. -/
def hnd (base stride slot kind : Nat) : Nat := base + 2 ^ 64 * (128 + 2 ^ 32 * 128) + 2 ^ 128 * slot + 2 ^ 256 * stride + 2 ^ 320 * (kind * 2 ^ 19)
/-- A matrix command in issue, with handles h4 and h5, tags of tiles 0 and 1 and of crown squares 0 and 1. -/
def mtx (i : Instr) (h : Nat) (tile sq : Nat) : State :=
  let s := ((span []).wh ⟨spanA, 0⟩ 4 h).wh ⟨spanA, 0⟩ 5 h
  let k := s.core spanA
  { s.setCore spanA { k with crn := true, tiles := [(0, BitVec.ofNat 20 tile), (1, BitVec.ofNat 20 tile)],
                             crownTags := [(0, BitVec.ofNat 16 sq), (1, BitVec.ofNat 16 sq)] } with ir := BitVec.ofNat 32 (encode i) }
/-- Does a command reach its verdict, and is that verdict so? -/
def verdict (b c : Option Opr) (handles : List Nat) (s : State) (xv : Opnds → Nat) (p : Option Nat → Option (Nat × Nat) → Bool) : Bool :=
  met { b := b, c := c, deck := false, svc := false } s fun o t => handles.all (fun h => okay (t.hndReady t.cur h) fun _ => true) &&
    decide ((t.core t.cur.core).mq.length < 8) && p ((command t handles (xv o)).formatBad (t.core t.cur.core))
      (t.cmdReject t.cur.core (command t handles (xv o)) (handles.headD 0))
/-- Accepted; an invalid descriptor; a reject cause. -/
def isGood (f : Option Nat) (r : Option (Nat × Nat)) : Bool := f.isNone && r.isNone
def isFmt (f : Option Nat) (_ : Option (Nat × Nat)) : Bool := f.isSome
def isRej (n : Nat) (f : Option Nat) (r : Option (Nat × Nat)) : Bool := f.isNone && (r.map (·.1)) == some n

theorem wit_MatrixWords :
    (let v := verdict (rd .x 3) none [4]
     let s (h tile sq : Nat) := mtx (.mma 0 4 3 0) h tile sq
     v (s (hnd poolVa 256 24 0) 16410 16408) (·.b) isGood = true ∧ v (s (hnd poolVa 256 3 0) 16410 16408) (·.b) isFmt = true ∧
     v (s (hnd poolVa 256 24 0) 0 16408) (·.b) (isRej 5) = true) ∧
    (let v := verdict (rd .x 3) none [4]
     let s (h tile sq : Nat) := mtx (.mmaiv 0 4 3 0) h tile sq
     v (s (hnd poolVa 1024 26 0) 16410 16408) (·.b) isGood = true ∧ v (s (hnd poolVa 1024 24 0) 16410 16408) (·.b) (isRej 4) = true) ∧
    (let v := verdict none (rd .x 3) [4, 5]
     let s (h tile : Nat) := mtx (.mma64 0 4 5 3) h tile 0
     v (s (hnd poolVa 1024 27 0) 16411) (·.c) isGood = true ∧ v (s (hnd poolVa 1024 27 0) 16410) (·.c) (isRej 5) = true) ∧
    (let v := verdict (rd .x 3) none [4]
     let s (d h : Nat) := mtx (.mldw d 4 3 0) h 0 0
     v (s 0 (hnd poolVa 256 24 0)) (·.b) isGood = true ∧ v (s 0 (hnd poolVa 256 3 0)) (·.b) isFmt = true ∧
     v (s 1 (hnd poolVa 256 24 0)) (·.b) (isRej 2) = true ∧ v (s 16 (hnd poolVa 256 24 0)) (·.b) (isRej 3) = true) ∧
    (let v := verdict none none []
     v (mtx (.mzero 1 true) 0 0 0) (fun _ => 0) isGood = true ∧ v (mtx (.mzero 2 true) 0 0 0) (fun _ => 0) (isRej 1) = true) ∧
    (let v := verdict (rd .x 3) none [4]
     let s (h : Nat) := mtx (.mdrain 1 4 3 0) h 16410 0
     v (s (hnd poolVa 256 24 0)) (·.b) isGood = true ∧ v (s (hnd poolVa 256 3 0)) (·.b) isFmt = true ∧
     v (s (hnd poolVa 256 24 2)) (·.b) (isRej 6) = true) := by decide +kernel

/-- One matrix command of the context in the queue. -/
def queued : State := ((span []).setCore spanA { (span []).core spanA with mq := [{ id := 0, word := 0, src := some ⟨spanA, 0⟩ }] })
theorem wit_MatrixStatusAndHandles :
    let ms (a : Nat) : Sig := { d := wr .x 7, a := rd .x a, deck := false, svc := false }
    let hq : Sig := { d := wr .x 7, b := rd .x 5, dd := true, db := true, other := 2, deck := false, svc := false }
    met { deck := false, svc := false } (span []) (fun _ t => (t.core t.cur.core).mq.isEmpty) = true ∧
    met { deck := false, svc := false } { queued with nextId := 1 } (fun _ t => (t.ctx t.cur).timed.isNone &&
      ((t.core t.cur.core).mq.filter fun m => decide (m.id < (t.ctx t.cur).syncTo.getD t.nextId) && m.src == some t.cur).length == 1) = true ∧
    (∀ sel ∈ [0, 1, 3, 4, 7, 8, 15, 16, 31, 32, 63], met (ms 6) (span [(6, sel)]) (fun o t => o.a % 64 == sel && puts 7 (fun _ _ => 16410) o t) = true) ∧
    met { a := rd .x 6, da := true, other := 1, deck := false, svc := false } (span [(6, poolVa)]) (fun o t =>
      okay (t.aim t.cur o.a 64 0 64 .l false false) fun p => p.near t.cur && !t.pending t.cur 4 3 && clear t (made p .load .l o.a 64 4 3) &&
        t.poisoned p.key 64 == none) = true ∧
    met { a := rd .x 6, da := true, other := 1, deck := false, svc := false } ((span [(6, poolVa)]).own fun x => { x with
      pend := [{ cls := 4, reg := 3 }] }) (fun _ t => t.pending t.cur 4 3 && (t.ctx t.cur).timed == none) = true ∧
    (∀ sel ∈ [0, 7, 8, 9, 15], met hq (span [(5, sel)]) (fun o t => o.b % 16 == sel && okay (t.hndReady t.cur 4) (fun _ => true) &&
      puts 7 (fun _ _ => 0) o t && (Hnd.of (t.handle t.cur 4)).kind == 0) = true) ∧
    met { other := 1, deck := false, svc := false } (span []) (fun _ t => !t.pending t.cur 4 3) = true ∧
    met { other := 1, deck := false, svc := false } ((span []).own fun x => { x with pend := [{ cls := 4, reg := 3 }] })
      (fun _ t => t.pending t.cur 4 3 && (t.ctx t.cur).timed == none) = true ∧
    met { d := wr .x 7, dd := true, other := 2, deck := false, svc := false } (span []) (fun o t => puts 7 (fun _ t => t.fdOf t.cur.core 3) o t) = true := by
  decide +kernel
/-- R383: a summary's tag is kept, and `.clr` clears its bits 19 to 16. -/
theorem test_mstat_clr : after (.mstat 7 6 true) ((span [(6, 4)]).setCore spanA { (span []).core spanA with tiles := [(0, 0x1401A)] }) (fun t =>
    t.rx t.cur 7 == 0x1401A && Tab.get (t.core spanA).tiles 0 0 == 0x401A) = true := by decide +kernel
/-- R25, R392: FMTSET and FMTGET through descriptor 3. -/
theorem test_fmtset : after (.fmtset 3 6) (span [(6, 0x12345)]) (fun t => t.fdOf spanA 3 == 0x12345) = true := by decide +kernel

/-- A view of a master: 128 by 128 in FP32 at 0x100000, an E4M3 view with tags at 0x300000. -/
def viewA : View := { num := 0, pol := 0, lay := 0, geo := 0, slot := 20, fd := [], shards := [⟨2097152, 0, 3145728⟩], asid := 1, live := true }
def masterA : Master := { mid := 0, base := 1048576, pa := upFrom 64 4, rows := 128, cols := 128, slot := 26, asid := 1, views := [viewA], live := true }
/-- Pylon 0 with that master. -/
def viewed (s : State) : State := s.setPylon 0 { s.pylon 0 with masters := [masterA] }
/-- Doublewords put at keys. -/
def putAll (s : State) (l : List (Nat × Nat)) : State := { s with mem := l.foldl (fun m e => Mem.write m e.1 8 e.2) s.mem }
/-- VA 0 to 2 MB is the PA of the same number, writable and VSRC, by a page table at 0x100000; partition 0 has all of the memory. -/
def paged (s : State) : State := putAll { s with launches := [{ launchA with root := 1048576 }] }
  [(ctlBase + 4608, 2 ^ 63), (ctlBase + 4616, 2 ^ 40 - 1), (1048576, 1052673), (1052672, 1056769), (1056768, 79)]
/-- A registration block in the pool: master at VA 0, 128 by 128 in FP32, a BF16 view of one shard whose list is at 0x10000; bits added to
doublewords 1 and 2. -/
def block (b1 b2 : Nat) : State := putAll (paged (span [(6, poolVa)]))
  [(poolKey spanA 98304 + 8, 128 + 2 ^ 32 * 128 + b1), (poolKey spanA 98304 + 16, 26 + 24 * 256 + b2), (poolKey spanA 98304 + 24, 65536),
   (65536, 131072), (65536 + 16, 196608)]
theorem wit_ViewWords :
    (∀ e ∈ [(0, 1 * 2 ^ 26, true, false, false), (1, 0, false, true, false), (0, 2 ^ 16, false, false, true), (0, 0, false, false, false)],
      met { rr 7 6 with scope := true, svc := false } (block e.1 e.2.1) (fun o t => okay (t.ownWords t.cur o.a 64) fun ws =>
        let w (i : Nat) := ws.getD i 0
        regReserved w == e.2.2.1 && (dimBad (bits (w 1) 31 0) || dimBad (bits (w 1) 63 32)) == e.2.2.2.1 &&
        (!viewFmtOk (t.fdOf t.cur.core) (bits (w 2) 12 8) (bits (w 2) 17 16)) == e.2.2.2.2) = true) ∧
    met { rr 7 6 with scope := true, svc := false } (block 0 0) (fun o t => okay (t.ownWords t.cur o.a 64) fun ws =>
      let w (i : Nat) := ws.getD i 0
      okay (t.regMaster 0 1 (w 0) 128 128 26) (fun e => e.2 && okay (t.masterPages 1 (w 0) 65536) fun r =>
        let m := { e.1 with pa := r.2 }
        let v := viewOf t m w
        okay ((upFrom 0 1).foldlM (readShard (block 0 0) t.cur 1 (w 3) v.scaled) (r.1, [])) fun q =>
          okay (q.1.shardPages 1 m { v with shards := q.2 }) fun z => z.1.cur == t.cur) &&
      okay (t.sfuAim t.cur o.m.dst 0 t.cyc false) (fun _ => true) && (t.ctx t.cur).timed == none && (o.engines t t.cur).isEmpty) = true ∧
    met { a := rd .x 6, da := true, scope := true, svc := false } (viewed (span [(6, 1048576)])) (fun o t => okay (t.namedView o.a) (fun _ => true) &&
      (t.ctx t.cur).timed == none) = true ∧
    met { a := rd .x 6, da := true, scope := true, svc := false } (span [(6, 1048576)]) (fun o t => traps (t.namedView o.a) 38 8 1048576) = true ∧
    (∀ pol ∈ [0, 2, 3], met { a := rd .x 6, da := true, b := rd .x 5, db := true, scope := true, svc := false } (viewed (span [(6, 1048576), (5, pol)]))
      (fun o t => o.b % 4 == pol && okay (t.namedView o.a) (fun _ => true)) = true) ∧
    met { a := rd .x 6, da := true, b := rd .x 5, db := true, scope := true, svc := false } (span [(6, 1048576), (5, 2)]) (fun o t =>
      o.b % 4 == 2 && traps (t.namedView o.a) 38 8 1048576) = true ∧
    met { rr 7 6 with svc := false } (viewed (span [(6, 1048576)])) (fun o t => okay (t.namedView o.a) (fun _ => true) &&
      o.m.dst == 0 && okay (t.sfuAim t.cur 0 0 (t.cyc + 260) false) fun _ => true) = true := by decide +kernel
theorem test_vwkick_waits : after (.vwkick 6) (viewed (span [(6, 1048576)])) (fun t => (t.ctx t.cur).wait == .view) = true := by decide +kernel

/-! ### Steps of the hardware -/

def c0 : CtxId := ⟨spanA, 0⟩
/-- The context of the step, in wait number 1 for its word w, with numbers for the step. -/
def sleeper (w : Wait) (ns : List Nat) : State := (({ span [] with ir := 0x58E00000 } : State).sleep c0 w).with_ c0 ns
/-- A state with numbers for a step of the context. -/
def stepped (s : State) (ns : List Nat) : State := s.with_ c0 ns

theorem wit_WaitsEnd :
    (((sleeper .yield [1]).own fun x => { x with st := .stopped }).ctx c0).st = .stopped ∧
    (∀ k ∈ [0, 1, 2, 3], let s := sleeper .yield ((upFrom 0 k).map (fun _ => 0) ++ [2]); (s.ctx s.arg.ctx).st ≠ .stopped ∧ s.inWait c0 (s.n k) = false) ∧
    (∀ ns ∈ [[1], [1, 0], [1, 35], [1, 0, 0, 0], [1, 0, 0, 9], [1, 38, 1, 4]], let s := sleeper .view ns
      s.n 0 ≠ 0 ∧ s.inWait c0 (s.n 0) = true ∧ (s.n 1 = 0 ∨ s.n 1 ≠ 0 ∧ s.n 1 = ns.getD 1 0) ∧ s.n 3 = ns.getD 3 0 ∧ (s.ctx c0).chainMod = none) ∧
    (∀ ns ∈ [[0, 1], [2, 1]], let s := sleeper .ack ns; s.inWait c0 (s.n 1) = true ∧ s.n 0 = ns.headD 0) ∧
    (∀ ns ∈ [[0, 0, 1, 0], [0, 0, 1, 1, 1, 65536]], let s := sleeper .tsteal ns
      s.inWait c0 (s.n 2) = true ∧ s.n 3 = ns.getD 3 0 ∧ (s.ctx c0).chainMod = none) ∧
    (let s := stepped ((span []).own fun x => { x with tgrp := Word.ofN (1 + 8 * 3 + 512 * 4) }) [4, 3]
     (s.ctx c0).st = .ready ∧ (s.ctx c0).tgrp.toNat % 2 = 1 ∧ bits (s.ctx c0).tgrp.toNat 17 9 = s.n 0 ∧ bits (s.ctx c0).tgrp.toNat 8 3 = s.n 1) ∧
    (let s := (sleeper .twait [4, 3]).own fun x => { x with tgrp := Word.ofN (1 + 8 * 3 + 512 * 4) }
     (s.ctx c0).st = .waiting ∧ (s.ctx c0).wait = .twait ∧ (s.ctx c0).tgrp.toNat % 2 = 1 ∧ bits (s.ctx c0).tgrp.toNat 17 9 = s.n 0 ∧
     bits (s.ctx c0).tgrp.toNat 8 3 = s.n 1 ∧ (s.ctx c0).chainMod = none) ∧
    (let s := paged (sleeper (.walk) [65536, 1, 0, 1]); s.inWait c0 (s.n 3) = true ∧
      okay (s.walk (s.ctx c0).asid.toNat (s.n 0) (s.n 1 == 1) (s.n 2 == 1) ((s.ctx c0).level == .h)) (fun _ => true) = true) ∧
    (let s := paged (sleeper (.walk) [2097152, 0, 0, 1]); s.inWait c0 (s.n 3) = true ∧
      okay (s.walk (s.ctx c0).asid.toNat (s.n 0) (s.n 1 == 1) (s.n 2 == 1) ((s.ctx c0).level == .h)) (fun _ => true) = false) := by decide +kernel
/-- R286: WFI's timeout sets mask bit 3 and the word is complete. -/
theorem test_wfi_timeout : after .wfiTimeout (sleeper .wfi [1, 5]) (fun t => bit (t.rx c0 5) 3 && (t.ctx c0).pc == 4100) = true := by decide +kernel

/-- An access of the context in flight, with numbers for a step about it. -/
def flying (f : Access → Access) (ns : List Nat) : State :=
  stepped { span [] with flight := [f { id := 1, ctx := c0, act := .load, kind := .f, key := 65536, va := 65536, n := 8, dcls := 1, dreg := 7 }] } (1 :: ns)
/-- Peer 0 may be reached through port 0, which is up. -/
def routed (s : State) : State := putAll s [(ctlBase + 50339840, 1), (ctlBase + 50348032, 2 ^ 63)]
theorem wit_AccessEvents :
    (let s := flying (fun f => { f with performed := true }) []; ∃ f, s.access (s.n 0) = some f ∧ f.dcls = 1 ∧ f.grp = 0 ∧ f.performed = true ∧ f.fault = none ∧ f.later = []) ∧
    (let s := stepped (span []) [1]; s.access (s.n 0) = none) ∧
    (∀ e ∈ [([1], true), ([2], false)], let s := routed (flying (fun f => { f with key := 8 * 2 ^ 60, after := e.1 }) [0, 1])
     (s.access (s.n 0)).any (fun f => f.act != .store && !f.performed && f.key / 1152921504606846976 == 8 && s.n 2 != 0 &&
       s.carried (peerOf f.va) && s.waitsFor f.ctx.core f.after == e.2) = true) ∧
    (let s := flying (fun f => { f with act := .store, performed := true }) []
     ∃ f, s.access (s.n 0) = some f ∧ f.act = .store ∧ f.performed = true ∧ f.kind ≠ .s) ∧
    (let s := flying (fun f => { f with act := .store, kind := .s }) []
     (s.access (s.n 0)).any (fun f => f.act == .store && f.kind == .s && !s.carried (peerOf f.va)) = true) ∧
    (∀ e ∈ [(0, [1], true), (0, [], false), (3, [], false)], let s := routed (flying (fun f => { f with act := .store, kind := .s, after := e.2.1 }) [e.1])
     (s.access (s.n 0)).any (fun f => f.act == .store && f.kind == .s && s.n 1 == e.1 && s.carried (peerOf f.va) &&
       s.waitsFor f.ctx.core f.after == e.2.2) = true) ∧
    (∀ b ∈ [false, true], let s := flying (fun f => { f with parked := true, onRow := true }) []
     let s := if b then { s with agenda := [(0, .pierJobEnd, { ns := [homeOf 65536] })] } else s
     (s.access (s.n 0)).any (fun f => f.parked && !f.performed && f.onRow && s.fillSoon (homeOf f.key) == b) = true) ∧
    (let s := stepped ((span []).own fun x => { x with watch0 := { armed := true, deadline := 9 } }) [0, 9]
     ((s.ctx c0).watchAt (s.n 0)).armed = true ∧ ((s.ctx c0).watchAt (s.n 0)).deadline = s.n 1 ∧ (s.ctx c0).st ≠ .stopped) ∧
    ((((span []).with_ c0 [3]).ctx c0).watchAt 3).armed = false ∧
    (∀ e ∈ [(Power.awake, 0), (.awake, 16), (.waking 0, 3), (.failed, 0)],
      let s := stepped (((span []).setCluster 0 { (span []).cluster 0 with power := e.1 }).setCore spanA
        { (span []).core spanA with rx := List.replicate e.2 { word := 0, src := c0, first := true, last := true } }) [0]
      (s.core (coreOfWord (s.n 0))).rxWait = [] ∧ (s.core (coreOfWord (s.n 0))).rx.length = e.2 ∧ s.agenda = [] ∧
      ((s.wakeCluster 0).cluster (coreOfWord (s.n 0)).cluster).power = e.1) ∧
    (let s := stepped (span []) [2, 65536]; s.exportWindow (s.n 0) (s.n 1) = none) ∧
    (let s := paged (stepped (span []) [2, 65536, 8, 77, 0, 0, 0])
     let s := { putAll s [(ctlBase + 50331648 + 8, 65536 * 4), (ctlBase + 50331648 + 24, 2 ^ 35 + 2 ^ 33 + 255 * 2 ^ 24 + 1)] with
       arg := { s.arg with op := .store } }
     ∃ o t e, s.exportWindow (s.n 0) (s.n 1) = some o ∧ s.arg.op = .store ∧ bit (s.ctl (o + 24)) 33 = true ∧
       s.engineWalk (s.ctl (o + 24) % 65536) (bits (s.ctl (o + 16)) 47 16 * 65536 + (s.n 1 - bits (s.ctl o) 47 16 * 65536)) true = .ok (t, e) ∧
       t.arg = s.arg ∧ t.holdOf (e.addr (bits (s.ctl (o + 16)) 47 16 * 65536 + (s.n 1 - bits (s.ctl o) 47 16 * 65536))) (s.n 2) = none) ∧
    (let s := flying id []; ∃ f, s.n 0 ≠ 0 ∧ s.access (s.n 0) = some f ∧ f.performed = false) ∧
    (let s := stepped { span [] with sysArr := [(3, 1, 5)] } [0, 1, 5]
     ∃ l, s.n 0 = 0 ∧ s.launch (s.n 1) = some l ∧ (s.sysArr.any fun e => e.2.1 == l.id && e.2.2 == s.n 2) = true ∧
       (Tab.get l.barriers (s.n 2) {}).first.getD 0 = s.n 3 ∧ (Config.outcome s.free % 2 = 1 ∨ Config.outcome s.free % 2 = 0)) ∧
    (({ span [] with minimal := some 0 } : State).minimal ≠ none ∧ (span []).minimal = none) ∧
    (let s := stepped (span []) [4096]; s.poison.contains (poisonUnit (s.n 0)) = false ∧
      ({ s with poison := [poisonUnit 4096] } : State).poison.contains (poisonUnit (s.n 0)) = true) := by
  refine ⟨⟨_, rfl, rfl, rfl, rfl, rfl, rfl⟩, rfl, ?_, ⟨_, rfl, rfl, rfl, ?_⟩, ?_, ?_, ?_, ?_, rfl, ?_, ?_, ⟨50331648, _, _, ?_, rfl, ?_, rfl, rfl, ?_⟩,
    ⟨_, ?_, rfl, rfl⟩, ⟨_, rfl, rfl, rfl, rfl, (Nat.mod_two_eq_zero_or_one _).symm⟩, ?_, ?_⟩
  all_goals decide +kernel

/-- A stream state in register 3 of the window: KIND .l, doubleword elements of stride 8 at poolVa, with COUNT and further bits. -/
def stream3 (count bits_ : Nat) : State :=
  ((((span []).ws c0 3 0 poolVa).ws c0 3 1 8).ws c0 3 2 (count * 2 ^ 32 + 3 * 256 + bits_)).with_ c0 [3]
theorem wit_UnitEvents :
    (let s := stepped ((span []).setCore spanA { (span []).core spanA with sfu := [{ id := 4, ctx := c0, outs := [(2, 1, 9, 16410)], due := 60 }] }) [4, 60]
     ∃ q, ((s.core c0.core).sfu.find? (·.id == s.n 0)) = some q ∧ q.due = s.n 1 ∧
       ((q.outs.find? fun o => o.1 == 5 && decide (o.2.1 < 8)).bind fun o => s.lateLink c0 o.2.1) = none ∧ (s.sfuWrite c0 q.outs).isSome = true) ∧
    (let s := stepped ((span []).setCore spanA { (span []).core spanA with sfu := [{ id := 4, ctx := c0, outs := [], due := 60 }] }) [4, 50]
     ∃ q, ((s.core c0.core).sfu.find? (·.id == s.n 0)) = some q ∧ q.due ≠ s.n 1) ∧
    (let s := stepped (span []) [4]; ((s.core c0.core).sfu.find? (·.id == s.n 0)) = none) ∧
    bit ((stream3 4 0).rs c0 3 2) 15 = false ∧ bit ((stream3 4 (2 ^ 15 + 2 ^ 14)).rs c0 3 2) 14 = true ∧
    (let s := (stream3 40 (2 ^ 15)).own fun x => { x with ahead := [(3, List.replicate 16 0)] }; 16 ≤ (Tab.get (s.ctx c0).ahead 3 []).length) ∧
    bits ((stream3 0 (2 ^ 15)).rs c0 3 2) 63 32 = 0 ∧
    (let s := stream3 4 (2 ^ 15)
     let w := s.rs c0 (s.n 0) 2
     let n := s.streamBytes c0 w
     bit w 15 = true ∧ bit w 14 = false ∧ streamKind w = .l ∧ (Tab.get (s.ctx c0).ahead 3 []).length < bits w 63 32 ∧
     s.pending c0 6 (s.n 0) = false ∧ (s.ctx c0).st = .ready ∧ s.n 0 < 8 ∧
     okay (s.aim c0 (addOff (s.rs c0 3 0) (((Tab.get (s.ctx c0).ahead 3 []).length : Int) * sext (s.rs c0 3 1) 64)) n 0 n .l false false)
       (fun p => p.near c0 && clear s { p.access c0 .load .l (addOff (s.rs c0 3 0) (((Tab.get (s.ctx c0).ahead 3 []).length : Int) *
         sext (s.rs c0 3 1) 64)) n with dcls := 6, dreg := 3 } && s.poisoned p.key n == none && !marked s.marks p.key n 0) = true) := by
  refine ⟨⟨_, rfl, rfl, by decide +kernel, by decide +kernel⟩, ⟨_, rfl, by decide⟩, ?_⟩
  decide +kernel

/-- The launch with barriers, and numbers for a step of the core. -/
def barred (l : Launch → Launch) (ns : List Nat) : State := stepped { span [] with launches := [l launchA], cyc := 50 } ns
theorem wit_BarrierEvents :
    (let s := barred id [0]; ∃ l, s.launchOf spanA = some l ∧ s.coreReady l spanA (s.n 0) = false) ∧
    (let s := barred (fun l => { l with barriers := [(5, { ctxs := [(c0, [])] })] }) [5]
     ∃ l, s.launchOf spanA = some l ∧ s.coreReady l spanA (s.n 0) = true ∧
       Mem.read (s.payloads spanA (Tab.get l.barriers (s.n 0) {})).1.mem (ctlBase + 117440520) 4 = 0) ∧
    (let s := putAll ((barred (fun l => { l with barriers := [(0, { due := some 50 })], doms := [(0, [spanA])] }) [1, 0]).setCore spanA
        { (span []).core spanA with mq := [{ id := 1, word := 4 }] }) [(launchA.stopKey, 2 ^ 63 + 1)]
     ∃ l t, s.launch (s.n 0) = some l ∧ s.n 1 = 0 ∧ (Tab.get l.barriers 0 {}).due = some t ∧ t ≤ s.cyc ∧ s.stopLands l = true ∧ s.commandsLeft l = true) ∧
    (let s := barred (fun l => { l with barriers := [(5, { due := some 50 })] }) [1, 5]
     ∃ l t, s.launch (s.n 0) = some l ∧ s.n 1 = 5 ∧ (Tab.get l.barriers 5 {}).due = some t ∧ t ≤ s.cyc) ∧
    (let s := barred (fun l => { l with barriers := [(0, { due := some 50 })] }) [1, 0]
     ∃ l t, s.launch (s.n 0) = some l ∧ s.n 1 = 0 ∧ (Tab.get l.barriers 0 {}).due = some t ∧ t ≤ s.cyc ∧ s.stopLands l = false) ∧
    (let s := barred id [1, 5]; ∃ l, s.launch (s.n 0) = some l ∧ s.n 1 = 5 ∧ (Tab.get l.barriers 5 {}).due = none) ∧
    (let s := barred id [3]; s.sysArr.filter (·.1 == s.n 0) = []) ∧
    (let s := { barred id [3] with sysArr := [(3, 1, 5)] }; ∃ l, s.launch l.id = some l ∧ s.sysArr.filter (·.1 == s.n 0) = [(s.n 0, l.id, 5)]) ∧
    (let s := { putAll ((barred (fun l => { l with doms := [(0, [spanA])] }) [3]).setCore spanA
        { (span []).core spanA with mq := [{ id := 1, word := 4 }] }) [(launchA.stopKey, 2 ^ 63 + 1)] with sysArr := [(3, 1, 0)] }
     ∃ l, s.launch l.id = some l ∧ s.sysArr.filter (·.1 == s.n 0) = [(s.n 0, l.id, 0)] ∧ s.stopLands l = true ∧ s.commandsLeft l = true) ∧
    (let s := barred (fun l => { l with barriers := [(5, { first := some 20 })] }) [1, 5, 20]
     ∃ l, s.launch (s.n 0) = some l ∧ (Tab.get l.barriers (s.n 1) {}).first = some (s.n 2)) ∧
    (let s := barred id [1, 5, 20]; ∃ l, s.launch (s.n 0) = some l ∧ (Tab.get l.barriers (s.n 1) {}).first ≠ some (s.n 2)) ∧
    (let s := (barred id [20]).own fun x => { x with timed := some (5, 20) }; ∃ dom, (s.ctx c0).timed = some (dom, s.n 0)) ∧
    ((barred id [20]).ctx c0).timed = none := by
  refine ⟨⟨launchA, rfl, rfl⟩, ⟨_, rfl, rfl, by decide +kernel⟩, ⟨_, 50, rfl, rfl, rfl, by decide, by decide +kernel, by decide +kernel⟩,
    ⟨_, 50, rfl, rfl, rfl, by decide⟩, ⟨_, 50, rfl, rfl, rfl, by decide, by decide +kernel⟩, ⟨_, rfl, rfl, rfl⟩, rfl, ⟨launchA, rfl, rfl⟩,
    ⟨{ launchA with doms := [(0, [spanA])] }, rfl, rfl, by decide +kernel, by decide +kernel⟩, ⟨_, rfl, rfl⟩, ⟨_, rfl, by decide⟩, ⟨_, rfl⟩, rfl⟩
/-- R92, R356: a release ends PHASE at the next word, and leaves the pc of one that only arrived. -/
theorem wit_ReleaseOfABarrier :
    (let s := (span []).sleep c0 (.barrier 5 false); (s.ctx c0).parrive = none ∧ (s.ctx c0).st = .waiting ∧ (s.ctx c0).wait = .barrier 5 false) ∧
    (let s := (span []).own fun x => { x with parrive := some (5, false) }; (s.ctx c0).parrive = some (5, false)) ∧
    (span []).launch launchA.id ≠ none := by decide +kernel

/-- Home 3 with queue 2, and numbers for a step of the context. -/
def homed (q : Queue) (ns : List Nat) : State :=
  stepped { span [] with homes := [(3, { queues := [(2, q)] })], cyc := 50 } ns
/-- A task of the queue. -/
def taskA (st : TaskSt) : Task :=
  { seq := 1, lid := 1, asid := 1, poster := c0, desc := [], pa := 65536, deps := [(131072, 7, false), (131080, 9, false)], st := st, reads := 2 }
theorem wit_HomeEvents :
    let posted (s : State) : Bool := !s.waitsFor c0.core (s.arg.ns.drop (25 + 2 * s.n 24)) &&
      !(s.agenda.any fun e => decide (e.1 ≤ s.cyc) && taskMeets (s.n 0) (s.n 1) 1 c0 e.2.1 e.2.2) &&
      !s.agenda.any fun e => e.2.2.ctx == s.arg.ctx && e.2.2.ns.headD 0 == s.n 0 && decide (e.2.2.ns.getD 3 0 < s.n 3) && match e.2.1 with
        | .tpostArrival => true
        | _ => false
    let x (s : State) := s.queue (s.n 0) (s.n 1)
    let alone (s : State) (cls : Nat) : Bool := !s.agenda.any fun e =>
      decide (e.1 ≤ s.cyc) && taskMeets (s.n 0) (s.n 1) cls c0 e.2.1 e.2.2
    let free (s : State) : Bool := (x s).lid != 0 && (x s).lid == s.n 4
    (let s := homed { lid := 2, share := 4 } [3, 2, 0, 0, 1]; posted s = true ∧ (x s).lid ≠ s.n 4) ∧
    (let s := homed {} [3, 2, 0, 0, 1]; posted s = true ∧ (x s).lid = 0) ∧
    (let s := homed { lid := 1, share := 4 } [3, 2, 0, 0, 1]; posted s = true ∧ free s = true ∧ (x s).used < (x s).share ∧ (x s).ring = []) ∧
    (let s := homed { lid := 1, share := 0 } [3, 2, 0, 0, 1]
     posted s = true ∧ free s = true ∧ (x s).share ≤ (x s).used ∧ s.n 2 ≠ 1 ∧ (x s).worst - (x s).share ≤ (x s).ring.length) ∧
    (let s := { homed {} [3, 2, 0, 9, 1] with agenda := [(60, .tpostArrival, { ctx := c0, ns := [3, 2, 0, 8] })] }; posted s = false) ∧
    (let s := homed { lid := 1, share := 0 } [3, 2, 1, 0, 1]
     posted s = true ∧ free s = true ∧ s.n 2 = 1 ∧ (x s).share ≤ (x s).used ∧ (s.home (s.n 0)).reserveUsed < 256) ∧
    (let s := homed { lid := 1, share := 0, worst := 9 } [3, 2, 0, 0, 1]
     posted s = true ∧ free s = true ∧ (x s).share ≤ (x s).used ∧ s.n 2 ≠ 1 ∧ (x s).ring.length < (x s).worst - (x s).share) ∧
    (let s := homed { tasks := [taskA .reading] } [3, 2, 1, 1, 1, 9]
     ∃ t, s.n 3 = 1 ∧ s.n 4 = 1 ∧ (x s).task (s.n 2) = some t ∧ t.deps[1]? = some (131080, 9, false)) ∧
    (let s := stepped (span []) [3, 131072, 7]; (s.home (s.n 0)).queues = []) ∧
    (let s := homed { tasks := [{ taskA .pending with deps := [(131072, 7, false)] }] } [3, 131072, 7]
     ∃ y t, (s.home (s.n 0)).queues = [(2, y)] ∧ y.tasks = [t] ∧ t.st = .pending ∧ t.deps = [(s.n 1, 7, false)] ∧
       (s.home (s.n 0)).watch.contains 131072 = false) ∧
    (let s := homed { lead := 1, tasks := [{ taskA .ready with desc := [0, 0, 0, 0, 0, 0, 51] }] } [3, 2, 1]
     ∃ t, (x s).task (s.n 2) = some t ∧ (x s).isDue t s.cyc = true ∧ t.st = .ready ∧ t.urgent = false) ∧
    (let s := homed { tasks := [{ taskA .pending with deps := [(131072, 7, false)] }] } [3]
     ∃ y t, (s.home (s.n 0)).queues = [(2, y)] ∧ y.tasks = [t] ∧ t.st = .pending ∧ t.deps = [(131072, 7, false)] ∧
       (s.home (s.n 0)).watch.contains 131072 = false) ∧
    (let s := { homed {} [3, 2, 1] with agenda := [(40, .tpostArrival, { ns := [3] })] }; s.homeDue (s.n 0) 1 = true) ∧
    (let s := homed {} [3, 2, 1]; s.reportSoon (s.n 0) = false ∧ s.homeDue (s.n 0) 1 = false ∧ s.homeDue (s.n 0) 3 = false ∧ s.homeDue (s.n 0) 4 = false ∧ alone s 4 = true ∧
      (x s).members.any (·.ctx == c0) = false ∧ (x s).members.length + (x s).holders.length < 64) ∧
    (let s := homed { thr := 0, members := [{ ctx := c0 }], tasks := [taskA .ready] } [3, 2, 1]
     let u := s.setHome 3 { s.home 3 with queues := (s.home 3).queues.map fun e =>
       (e.1, { e.2 with members := e.2.members.map fun m => if m.ctx = c0 then { m with outstanding := false } else m }) }
     s.homeDue (s.n 0) 1 = false ∧ s.reportSoon 3 = false ∧ (u.queue 3 2).members.any (·.ctx == c0) = true ∧ (u.stealGrant c0 3 2).2 = false ∧
     (u.stealGrant c0 3 2).1.isSome = true) ∧
    (let s := homed { holders := List.replicate 64 ⟨spanA, 1⟩ } [3, 2, 1]
     s.homeDue (s.n 0) 3 = false ∧ alone s 4 = true ∧ (x s).members.any (·.ctx == c0) = false ∧ 64 ≤ (x s).members.length + (x s).holders.length) ∧
    (let s := homed { members := [{ ctx := c0 }] } [3, 2, 1]
     s.homeDue (s.n 0) 3 = false ∧ alone s 4 = true ∧ (x s).members.findIdx? (·.ctx == c0) ≠ none ∧ (x s).lastOffer ≠ some c0 ∧ (x s).tasks = []) ∧
    (let s := flying id [0, 1]; ∃ f, s.homeDue (s.n 0) 4 = false ∧ s.reportSoon (s.n 0) = false ∧ s.access (s.n 2) = some f) ∧
    (let s := { homed {} [3, 2, 1] with agenda := [(40, .tleaveArrival, { ns := [3] })] }; s.homeDue (s.n 0) 4 = true) ∧
    (let s := homed { tasks := [taskA (.far c0)] } [3, 2, 1, 0, 0]
     ∃ t, (x s).task (s.n 2) = some t ∧ s.n 4 = 0 ∧ s.waitsFor c0.core (s.arg.ns.drop 5) = false ∧ t.snap = false) ∧
    (let s := { homed { tasks := [taskA (.far c0)] } [3, 2, 1, 0, 0, 7] with flight := [acc .store .a] }
     ∃ t, (x s).task (s.n 2) = some t ∧ s.n 4 = 0 ∧ s.waitsFor c0.core (s.arg.ns.drop 5) = true) ∧
    (let s := (homed { tasks := [{ taskA (.far c0) with desc := [2 ^ 60] }] } [3, 2, 1, 0, 0]).own fun x => { x with grant := some (loanA [{ key := memVa }]) }
     ((x s).task (s.n 2)).any (·.snap) = true ∧ s.n 4 = 0 ∧ s.waitsFor c0.core (s.arg.ns.drop 5) = false ∧ (s.ctx c0).grant.elim [] (·.buf) = [{ key := memVa }] ∧ s.yields c0 memVa (some c0) = false ∧ s.holdOf memVa 8 = none) := by
  refine ⟨?_, ?_, ?_, ?_, ?_, ?_, ?_, ⟨_, rfl, rfl, rfl, rfl⟩, rfl, ⟨_, _, rfl, rfl, rfl, rfl, rfl⟩, ⟨_, rfl, rfl, rfl, rfl⟩, ⟨_, _, rfl, rfl, rfl, rfl, rfl⟩, ?_, ?_, ?_, ?_, ?_,
    ⟨_, rfl, rfl, rfl⟩, ?_, ⟨_, rfl, rfl, rfl, rfl⟩, ⟨_, rfl, rfl, rfl⟩, ?_⟩
  all_goals decide +kernel
/-- R116, R366: a thief that is no member gets the answer 0. -/
theorem test_tsteal_refused : after .tstealArrival (homed {} [3, 2, 1]) (fun t => t.agenda.any fun e => e.2.2.ns.getD 3 9 == 0 && match e.2.1 with
    | .tstealAnswerArrival => true
    | _ => false) = true := by decide +kernel

/-- Home 3 as given, and numbers for a step. -/
def pier (m : Home) (ns : List Nat) : State := stepped { span [] with homes := [(3, m)] } ns
/-- A launch of two stages, whose first has more tasks than it wants; the cluster's cores are in the other. -/
def staged (hi : Nat) : State :=
  let s : State := { span [] with
    launches := [{ launchA with stages := [⟨hi, 0, 0, 0⟩, ⟨5, 1, 0, 1⟩] }], homes := [(3, { queues := [(0, { lid := 1, tasks := [taskA .ready] })] })] }
  ((clusterCores 0).foldl (fun s u => s.setCore u { s.core u with stage := 1 }) s).with_ c0 [0]
/-- Is a sequence of a pier's job not its last, or its last? -/
def goesOn (o : PierOut) (more : Bool) : Bool := match o with
  | .more _ => more
  | .finished _ _ => !more
theorem wit_PierEvents :
    let m (s : State) := s.home (s.n 0)
    let calm (s : State) : Bool := (s.pierPlace (s.n 0) (s.n 2)).all fun e => !s.contended e.2 none
    (let s := pier {} [3, 1]; (m s).job = none) ∧
    (let s := pier { job := some (.task 2 1), jobId := 5 } [3, 5, 3]; ∃ j, (m s).job = some j ∧ (m s).jobId = s.n 1 ∧ s.n 2 = 3) ∧
    (let s := pier { job := some (.task 2 1), jobId := 5, queues := [(2, { tasks := [taskA .near] })] } [3, 5, 1]
     ∃ q seq t, (m s).job = some (.task q seq) ∧ (m s).jobId = s.n 1 ∧ s.n 2 = 1 ∧ s.doneHeld (s.n 0) = none ∧ calm s = true ∧
       (s.queue (s.n 0) q).task seq = some t) ∧
    (∀ n ∈ [0, 1], let s := pier { job := some (.call ⟨c0, memVa, memVa, 1, 0, [], 0, 1, none⟩), jobId := 5 } [3, 5, 0, n]
     (m s).jobId = s.n 1 ∧ s.n 2 = 0 ∧ s.n 3 = n ∧ s.pierHeld 3 n = none ∧ calm s = true ∧ goesOn (s.pierStep 3 n (s.n 4 == 1)) (n == 1) = true) ∧
    (∀ n ∈ [0, 1], let s := pier { job := some (.task 2 1), jobId := 5, queues := [(2, { tasks := [taskA .near] })] } [3, 5, 0, n]
     (m s).job = some (.task 2 1) ∧ (m s).jobId = s.n 1 ∧ s.n 2 = 0 ∧ s.pierHeld 3 (s.n 3) = none ∧ calm s = true ∧
       (s.queue 3 2).task 1 = some (taskA .near) ∧ (goesOn (s.pierStep 3 (s.n 3) (s.n 4 == 1)) false || goesOn (s.pierStep 3 (s.n 3) (s.n 4 == 1)) true) = true) ∧
    (let p : PCall := ⟨c0, 0, 0, 1, 0, [], 0, 1, none⟩
     let s := pier { calls := List.replicate 16 p } [3]; 16 ≤ (m s).calls.length) ∧
    (let s := pier {} [3, 4096]
     (m s).calls.length < 16 ∧ s.waitsFor s.arg.ctx.core (s.arg.ns.drop 11) = false ∧ s.emptyRows.contains (s.n 1) = false) ∧
    (let s := pier {} [3]; s.inSequence (s.n 0) = false) ∧ (let s := pier { refreshOwed := 4 } [3]; 4 ≤ (m s).refreshOwed) ∧
    (let s := { pier { job := some (.task 2 1), jobId := 5, refreshOwed := 3 } [3] with agenda := [(63, .pierJobEnd, { ns := [3, 5, 0, 1] })] }
     s.inSequence (s.n 0) = true ∧ (m s).refreshOwed < 4) ∧
    (let s := span []; (s.launches.filter fun l => bit l.pyls (s.n 0) && decide (1 < l.stages.length)) = []) ∧
    (let s := staged 9; ∃ l, (s.launches.filter fun l => bit l.pyls (s.n 0) && decide (1 < l.stages.length)) = [l] ∧
      s.governorMove l (s.n 0) = none) ∧
    (let s := staged 0; ∃ l k n, (s.launches.filter fun l => bit l.pyls (s.n 0) && decide (1 < l.stages.length)) = [l] ∧
      s.governorMove l (s.n 0) = some (k, n)) := by
  refine ⟨rfl, ⟨_, rfl, rfl, rfl⟩, ⟨_, _, _, rfl, rfl, rfl, by decide +kernel, by decide +kernel, rfl⟩, ?_, ?_, ?_, ?_, ?_, ?_, ?_, rfl, ⟨_, rfl, by decide +kernel⟩,
    ⟨_, 0, 0, rfl, by decide +kernel⟩⟩
  all_goals decide +kernel

/-- A copy of 8 bytes of the cluster's engine; a gather descriptor of one doubleword. -/
def copyA : CopyRun := { ctx := c0, id := 3, eid := 3, elems := [([(65536, 8)], [(65544, 8)])], stamp := some (65552, 77), due := 9, after := [], foot := {} }
def gatherA (bad : Nat) : Gather := { ctx := c0, va := poolVa, desc := [0, 1 + 3 * 2 ^ 32 + 2 ^ 40, 65536, poolVa, bad, 0, 0, 0], asid := 1, after := [] }
/-- The cluster with those, and numbers for a step of the context. -/
def engines (g : List Gather) (ns : List Nat) : State :=
  stepped (({ paged (span []) with ir := 0 } : State).setCluster 0 { (span []).cluster 0 with copies := [copyA], gq := g }) ns
/-- A record of a command without a handle, with its doubleword 3. -/
def recordA (i : Instr) (w3 : Nat) : Nat := ofLanes 64 [encode i, 0, 0, w3]
def fifo (i : Instr) (w3 : Nat) : State :=
  stepped ((mtx i 0 16410 0).setCore spanA { (mtx i 0 16410 0).core spanA with down := [{ val := BitVec.ofNat 1024 (recordA i w3), tag := 16447 }] }) []
/-- Capability for core (0, 0) of pylon 0: low 40 bits with functions and window; 24 bits that check it. -/
def capA (low : Nat) : Nat := low + (span []).capCheck 0 low * 1099511627776
/-- The record of MZERO of tile 1 with a capability at the core, of a context whose partition has the pylon. -/
def sealedCap (cap : Nat) (part : Bool) : State :=
  let s := putAll (mtx (.mzero 1 true) 0 16410 0) (if part then [(ctlBase + 4096, 257)] else [])
  s.with_ c0 ([1, cap] ++ lanes (ofLanes 64 [encode (.mzero 1 true)]) 64 16 ++ [0])
theorem capReject_far (s : State) (c : CtxId) (cap : Nat) (m : MCmd) (h : s.mayReach c (capCore cap).pyl = false) :
    s.capReject c cap m = some 15 := by simp [State.capReject, h]
theorem capReject_check (s : State) (c : CtxId) (cap : Nat) (m : MCmd) (hu : capCore cap = spanA) (on : enabled 0 0 0 = true)
    (h : s.mayReach c 0 = true) (k : cap / 1099511627776 ≠ s.capCheck (s.capPart c) (cap % 1099511627776)) :
    s.capReject c cap m = some 11 := by
  have e : enabled (capCore cap).pyl ((capCore cap).y / 2) ((capCore cap).x / 2) = true := by rw [hu]; exact on
  have h' : s.mayReach c (capCore cap).pyl = true := by rw [hu]; exact h
  simp [State.capReject, e, h', k]
theorem capReject_none (s : State) (c : CtxId) (cap : Nat) (m : MCmd) (hu : capCore cap = spanA) (on : enabled 0 0 0 = true)
    (h : s.mayReach c 0 = true) (k : cap / 1099511627776 = s.capCheck (s.capPart c) (cap % 1099511627776))
    (ep : bits cap 39 28 = s.capEpoch (s.capPart c)) (f : bit cap (14 + m.f) = true)
    (w : ((s.cmdFoot spanA m).rd ++ (s.cmdFoot spanA m).wr).all (fun e =>
      !(decide (e.1 < s.ownBase spanA + 18446744073709551616 + s.ownSize spanA) && decide (s.ownBase spanA + 18446744073709551616 < e.1 + e.2)) ||
      (decide (s.ownBase spanA + 18446744073709551616 + bits cap 24 22 * 32768 ≤ e.1) &&
       decide (e.1 + e.2 ≤ s.ownBase spanA + 18446744073709551616 + (bits cap 27 25 + 1) * 32768))) = true) :
    s.capReject c cap m = none := by
  have e : enabled spanA.pyl (spanA.y / 2) (spanA.x / 2) = true := on
  have h' : s.mayReach c spanA.pyl = true := h
  simp only [State.capReject, hu, e, h', k, ep, f, w]
  simp
/-- The engine's one copy, changed. -/
def copying (f : CopyRun → CopyRun) : State :=
  let s := engines [] [0, 3]
  s.setCluster 0 { s.cluster 0 with copies := [f copyA] }
/-- May an engine go on, has it to wait, or is there no memory? -/
def goes (r : Reach) : Bool := match r with
  | .go _ => true
  | _ => false
def holds_ (r : Reach) : Bool := match r with
  | .wait _ _ => true
  | _ => false
def isHole (r : Reach) : Bool := match r with
  | .hole => true
  | _ => false
/-- Bytes of the pool of a core in the next cluster, whose power is p. -/
def poweredKey : Nat := poolKey ⟨.span, 0, 0, 2⟩ 65536
def powered (s : State) (p : Power) : State := s.setCluster 1 { s.cluster 1 with power := p }
theorem wit_EngineEvents_copies :
    (let s := engines [] [0, 4]; s.copyRun (s.n 0) (s.n 1) = none) ∧
    (let s := copying fun r => { r with after := [1] }
     let s := { s with flight := (flying id []).flight }
     (s.copyRun (s.n 0) (s.n 1)).any (fun r => !s.copyReady r) = true) ∧
    (∀ bad ∈ [[], [65536]], let s := { copying id with poison := bad }
     (s.copyRun (s.n 0) (s.n 1)).any (fun r => s.copyReady r && r.got == none && r.elems == [([(65536, 8)], [(65544, 8)])] &&
       !farPieces [(65536, 8)] && goes (s.reach c0 [(65536, 8)]) && (s.poisonIn [(65536, 8)]).isSome == (bad != [])) = true) ∧
    (∀ p ∈ [Power.waking 0, .failed], let s := powered (copying fun r => { r with elems := [([(poweredKey, 8)], [(65544, 8)])] }) p
     (s.copyRun (s.n 0) (s.n 1)).any (fun r => s.copyReady r && r.got == none && !farPieces [(poweredKey, 8)] &&
       (if p == .failed then isHole (s.reach c0 [(poweredKey, 8)]) else holds_ (s.reach c0 [(poweredKey, 8)]))) = true) ∧
    (let s := copying fun r => { r with got := some 5 }
     (s.copyRun (s.n 0) (s.n 1)).any (fun r => s.copyReady r && r.got == some 5 && !r.elems.isEmpty && !farPieces [(65544, 8)] &&
       ([(65544, 8)].findSome? fun p => s.holdOf p.1 p.2).isNone && goes (s.reach c0 [(65544, 8)])) = true) ∧
    (let m : Master := { mid := 0, base := memVa, pa := [memVa], rows := 128, cols := 128, slot := 24, asid := 1, live := true, hold := some 0 }
     let s := copying fun r => { r with got := some 5 }
     let s := s.setPylon 0 { s.pylon 0 with masters := [m] }
     (s.copyRun (s.n 0) (s.n 1)).any (fun r => s.copyReady r && r.got == some 5 && !farPieces [(65544, 8)] &&
       ([(65544, 8)].findSome? fun p => s.holdOf p.1 p.2) == some 0) = true) ∧
    (let s := copying fun r => { r with elems := [] }
     (s.copyRun (s.n 0) (s.n 1)).any (fun r => s.copyReady r && r.elems.isEmpty && r.stamp == some (65552, 77) && !s.copyWaits 0 r &&
       (s.holdOf 65552 8).isNone && goes (s.reach c0 [(65552, 8)])) = true) := by
  decide +kernel

/-- A copy whose footprint meets one; it is engine command 5. -/
def behindA : CopyRun := { copyA with eid := 5, foot := { wr := [(0, 100)] } }
theorem wit_EngineEvents_gathers :
    (let s := engines [] [0]; (s.cluster (s.n 0)).gq = []) ∧
    (∀ e ∈ [(16, 65536, true, true), (0, 65536, false, true), (0, 2 ^ 40, false, false)],
      let g := { gatherA e.1 with desc := (gatherA e.1).desc.set 2 e.2.1 }
      let s := engines [g] [0]
      let d (i : Nat) := g.desc.getD i 0
      (s.cluster (s.n 0)).gq = [g] ∧ g.moves = none ∧ (s.flight.any fun f => g.after.contains f.id && !f.performed) = false ∧
        gatherReserved d = e.2.2.1 ∧
        s.engineClear g.ctx { rd := [(s.footAddr g.ctx (d 0), bits (d 1) 31 0 * gatherIdxW d)] } g.behind = true ∧
        goes (s.reach g.ctx (s.indexPages g.ctx g.asid d)) = true ∧
        (match gatherProbe g.ctx g.asid d (bit (d 4) 8) (upFrom 0 (bits (d 1) 31 0)) s with
          | .ok _ => e.2.2.2
          | .error x => !e.2.2.2 && x.2 != 6) = true) ∧
    (∀ e ∈ [([5], false), ([], true)], let g := { gatherA 0 with moves := some [([(65536, 8)], [(65544, 8)])], behind := e.1, foot := { rd := [(0, 8)] } }
      let s := engines [g] [0, 1]
      let s := s.setCluster 0 { s.cluster 0 with copies := [behindA] }
      (s.cluster (s.n 0)).gq = [g] ∧ (s.flight.any fun f => g.after.contains f.id && !f.performed) = false ∧
        s.engineClear g.ctx g.foot g.behind = e.2 ∧ s.n 1 ≠ 0 ∧ farPieces [(65536, 8)] = false ∧ bit ((gatherA 0).desc.getD 4 0) 8 = false ∧
        goes (s.reach g.ctx [(65536, 8)]) = true ∧ s.poisonIn [(65536, 8)] = none ∧ ({ s with poison := [65536] } : State).poisonIn [(65536, 8)] ≠ none ∧
        ([(65544, 8)].findSome? fun p => s.holdOf p.1 p.2) = none ∧ goes (s.reach g.ctx [(65544, 8)]) = true) := by decide +kernel

/-- The core's one matrix command, of handle h, in the step of its number. -/
def matrixed (i : Instr) (h : Nat) (f : MCmd → MCmd) (g : State → State) : State × MCmd :=
  let m : MCmd := f { id := 4, word := encode i, h0 := lanes h 64 8, asid := 1, started := true, fds := [0, 0, 0, 0, 0, 0, 0, 0, 0, 0, 0, 0, 0, 0, 0, 0] }
  let s := paged (span [])
  (stepped (g (s.setCore spanA { s.core spanA with mq := [m], tiles := [(0, 16410), (1, 16410)], crownTags := [(0, 16408)] })) [1, 4], m)
/-- Does a command's part end so? -/
def errs {α : Type} (r : Except MErr α) (p : MErr → Bool) : Bool := match r with
  | .ok _ => false
  | .error e => p e
/-- A view whose tags are found, and whose block has none that holds. -/
def tagless (s : State) : State := s.setPylon 0 { s.pylon 0 with masters := [{ masterA with views := [{ viewA with pages := [(48, 48)] }] }] }
theorem wit_EngineEvents_matrix :
    ((span []).core spanA).mq = [] := by decide +kernel
theorem wit_EngineEvents_matrix_zero :
    let sm := matrixed (.mzero 1 true) 0 id id
     let s := sm.1
     let m := sm.2
     s.n 0 ≠ 0 ∧ (s.core spanA).mq = [m] ∧ m.id = s.n 1 ∧ m.f = 4 ∧ m.started = true ∧ m.halted = false ∧ m.work = none ∧ m.until_ ≤ s.cyc := by decide +kernel
theorem wit_EngineEvents_matrix_drain :
    ∀ e ∈ [(65536, false), (2 ^ 48, true)],
     let sm := matrixed (.mdrain 1 4 3 0) (e.1 + 2 ^ 64 * (1 + 2 ^ 32) + 2 ^ 128 * 26 + 2 ^ 256 * 4) id id
     let s := sm.1
     let m := sm.2
     4 < m.f ∧ m.work = none ∧ m.until_ ≤ s.cyc ∧ ((s.drainPieces spanA m).findSome? fun p => s.holdOf p.1 p.2) = none ∧
       goes (s.reach (m.ctx spanA) (s.drainPieces spanA m)) = true ∧ ((s.mdrainRun spanA m []).2).isSome = e.2 := by decide +kernel
/-- A drain to the pool of a cluster that is waking. -/
theorem wit_EngineEvents_matrix_drain_waits :
    let sm := matrixed (.mdrain 1 4 3 0) (poolVa + 2 ^ 47 + 2 ^ 64 * (1 + 2 ^ 32) + 2 ^ 128 * 26 + 2 ^ 256 * 4) id
      fun s => powered { s with launches := s.launches.map fun l => { l with extW := 4 } } (.waking 0)
    let s := sm.1
    let m := sm.2
    4 < m.f ∧ m.work = none ∧ m.until_ ≤ s.cyc ∧ ((s.drainPieces spanA m).findSome? fun p => s.holdOf p.1 p.2) = none ∧
      holds_ (s.reach (m.ctx spanA) (s.drainPieces spanA m)) = true := by decide +kernel
theorem wit_EngineEvents_matrix_read :
    let sm := matrixed (.mma 0 4 3 0) (hnd (2 ^ 48) 256 24 0) id id
     let s := sm.1
     let m := sm.2
     m.f < 4 ∧ m.work = none ∧ errs (s.readNext spanA m []) (fun e => match e with
       | .wait => false
       | .held _ => false
       | _ => true) = true := by decide +kernel
theorem wit_EngineEvents_matrix_wait :
    let sm := matrixed (.mma 0 4 3 0) (hnd 0 0 20 2) id tagless
     let s := sm.1
     let m := sm.2
     m.f < 4 ∧ m.work = none ∧ errs (s.readNext spanA m []) (· == .wait) = true ∧ (s.ctx (m.ctx spanA)).stops = [] := by decide +kernel
theorem wit_EngineEvents_matrix_block :
    ∀ bad ∈ [true, false],
     let sm := matrixed (.mma 0 4 3 0) (hnd 65536 256 24 0) (fun m => { m with work := some [] })
       (fun s => if bad then { s with poison := [poisonUnit (s.tileKey spanA 0)] } else s)
     let s := sm.1
     let m := sm.2
     m.work = some [] ∧ m.reading = false ∧ m.until_ ≤ s.cyc ∧ m.n ≤ m.kb + 1 ∧ errs (s.cmdWork spanA m []) (fun _ => true) = bad := by decide +kernel
theorem wit_EngineEvents_matrix_halt :
    let sm := matrixed (.mma 0 4 3 0) (hnd 65536 256 24 0) (fun m => { m with xv := 2 ^ 48, work := some [], got := List.replicate 128 ([], []) })
       (fun s => s.setCtx c0 { s.ctx c0 with stops := [3] })
     let s := sm.1
     let m := sm.2
     m.work = some [] ∧ m.reading = false ∧ m.f < 3 ∧ m.kb + 1 < m.n ∧
     okay (s.cmdWork spanA m []) (fun t => !(t.ctx (m.ctx spanA)).stops.isEmpty) = true := by decide +kernel

theorem wit_EngineEvents_records (on : enabled 0 0 0 = true) :
    ((span []).core spanA).down = [] ∧
    (∀ w3 ∈ [0, 1], let s := fifo (.mzero 1 true) w3
      ∃ v, (s.core spanA).down = [v] ∧ (s.core spanA).mq.length < 8 ∧ v.at_ = 0 ∧ v.tag = 16447 ∧
        recordBad ((lanes v.val.toNat 64 16).getD · 0) = (w3 != 0)) ∧
    (let s := fifo (.mzero 1 true) 0
     let t := s.setCore spanA { s.core spanA with down := [] }
     t.recordReject spanA (t.recordCmd spanA (lanes (recordA (.mzero 1 true) 0) 64 16) none []) = none) ∧
    (let s := { sealedCap 0 true with flight := (flying id []).flight }
     let s := { s with arg := { s.arg with ns := s.arg.ns ++ [1] } }
     (s.flight.any fun f => (s.arg.ns.drop (19 + s.n 18)).contains f.id && !f.performed) = true) ∧
    (∀ e ∈ [(capA (2 ^ 18 + 7 * 2 ^ 25), false), (capA (2 ^ 18 + 7 * 2 ^ 25), true), (2 ^ 18 + 7 * 2 ^ 25, true)],
      let s := sealedCap e.1 e.2
      let r := (s.arg.ns.drop 2).take 16
      let m := s.recordCmd (capCore (s.n 1)) r (some c0) []
      (s.flight.any fun f => (s.arg.ns.drop (19 + s.n 18)).contains f.id && !f.performed) = false ∧ recordBad (r.getD · 0) = false ∧
      s.recordReject (capCore (s.n 1)) m = none ∧ (s.core (capCore (s.n 1))).mq.length < 8) ∧
    (let r (cap : Nat) (part : Bool) := (sealedCap cap part).capReject c0 cap ((sealedCap cap part).recordCmd spanA
       (((sealedCap cap part).arg.ns.drop 2).take 16) (some c0) [])
     r (capA (2 ^ 18 + 7 * 2 ^ 25)) false = some 15 ∧ r (capA (2 ^ 18 + 7 * 2 ^ 25)) true = none ∧ r (2 ^ 18 + 7 * 2 ^ 25) true = some 11) := by
  refine ⟨by decide +kernel, ?_, by decide +kernel, by decide +kernel, by decide +kernel, ?_, ?_, ?_⟩
  · intro w3 h
    refine ⟨_, rfl, ?_, rfl, rfl, ?_⟩ <;> revert w3 <;> decide +kernel
  · exact capReject_far _ _ _ _ (by decide +kernel)
  · exact capReject_none _ _ _ _ (by decide +kernel) on (by decide +kernel) (by decide +kernel) (by decide +kernel) (by decide +kernel)
      (by decide +kernel)
  · exact capReject_check _ _ _ _ (by decide +kernel) on (by decide +kernel) (by decide +kernel)

/-- Pylon 0 with the master, and numbers for a step of the context. -/
def viewStep (f : Master → Master) (ns : List Nat) : State := stepped ((span []).setPylon 0 { (span []).pylon 0 with masters := [f masterA] }) ns
theorem wit_ViewEvents :
    let found (s : State) := (s.master (s.n 3)).bind fun m => (m.views.find? (·.num == s.n 4)).map fun w => (m, w)
    (let s := stepped (span []) [0, 0]; s.master (s.n 0) = none) ∧
    (let s := viewStep (fun m => { m with dirty := [0] }) [0, 0]; ∃ m, s.master (s.n 0) = some m ∧ m.dirty.contains (s.n 1) = true ∧
      m.noticed.contains (s.n 1) = false ∧ (s.setMaster { m with noticed := m.noticed ++ [s.n 1] }).refreshing (m.mid / 256 % 8) = false) ∧
    (let s := viewStep id [0, 0]; s.n 1 = 0 ∧ s.nextRefresh (s.n 0) = none) ∧
    (let s := viewStep (fun m => { m with dirty := [0], noticed := [0] }) [0, 0]; s.n 1 = 0 ∧ s.nextRefresh (s.n 0) = some (0, 0)) ∧
    (let s := stepped (span []) [1, 1, 1, 0, 0, 0]; found s = none ∧ s.n 0 ≠ 4) ∧
    (let s := { viewStep id [1, 1, 0, 0, 0, 0, 1] with flight := (flying id []).flight }
     ∃ e, found s = some e ∧ s.n 0 ≠ 4 ∧ s.n 2 = 0 ∧ s.waitsFor spanA (s.arg.ns.drop 6) = true) ∧
    (∀ f ∈ [1, 3, 5], let s := viewStep id [f, 1, 1, 0, 0, 2]
     ∃ e, found s = some e ∧ s.n 0 = f ∧ s.n 2 = 1 ∧ s.viewInFlight e.1.mid (s.n 4) = false) := by
  refine ⟨rfl, ⟨_, rfl, by decide +kernel⟩, by decide +kernel, by decide +kernel, by decide +kernel, ⟨_, rfl, by decide +kernel⟩, fun f h => ?_⟩
  refine ⟨(masterA, viewA), ?_⟩
  revert f; decide +kernel

/-- A command of a type with a job. -/
def cmdA (type job arg : Nat) : Cmd :=
  { seq := 4, type := type, pri := 2, at_ := 0, issuer := c0, job := job, arg := arg, statVa := 0, asid := 1, root := 0, part := 0, pyls := 1, told := true }
/-- Pylon 0 with it in the queue, and numbers for a step. -/
def cmds (l : List Cmd) (f : Pylon → Pylon) (ns : List Nat) : State :=
  stepped ((paged (span [])).setPylon 0 (f { (span []).pylon 0 with cmds := l })) ns
theorem wit_LaunchEvents_commands :
    let y (s : State) := s.pylon (s.n 0)
    (let s := flying id []; s.waitsFor spanA [1] = true) ∧
    (∀ n ∈ [0, 1], let s := cmds [] id [n]; s.waitsFor spanA (s.arg.ns.drop 12) = false ∧ s.n 0 = n ∧ s.poisoned (s.n 11) 16 = none) ∧
    (let s := cmds [cmdA 0 0 0] id [2, 1, 0, 4]; s.waitsFor spanA (s.arg.ns.drop 12) = false ∧ s.n 0 = 2 ∧
      (s.pylon (s.n 2)).cmds.find? (·.seq == s.n 3) = some (cmdA 0 0 0)) ∧
    (let s := cmds [] id [0, 4]; (y s).cmds.any (·.seq == s.n 1) = false) ∧
    (let s := cmds [cmdA 0 0 0] id [0, 4]; (y s).cmds.any (·.seq == s.n 1) = true) := by decide +kernel

/-- A launch being placed, whose loads have come so far. -/
def placingA (f : Placing → Placing) : Placing := f { cmd := cmdA 0 256 0, plan := {} }
/-- A plan of one cluster at origin (0, 0) of pylon 0. -/
def oneA : Plan := { hdr := (List.replicate 32 0).set 2 (2 ^ 24 + 2 ^ 16 + 2 * 256 + 2) }
/-- A plan whose queue table is one entry at an address that nothing maps. -/
def planA : Plan := { hdr := (List.replicate 32 0).set 9 (2 ^ 40) |>.set 10 1 }
/-- A launch whose place another holds too, and a save of a cluster that failed. -/
def dependP : Placing := { placingA id with lid := 1, plan := oneA }
def dependA (k : Nat) : State := { cmds [] (fun y => { y with placing := some dependP }) [0, 4, 19, k] with
    launches := [{ launchA with id := 2, orgX := 6 }, { launchA with orgX := 6 }] }
theorem wit_LaunchEvents_placement :
    let y (s : State) := s.pylon (s.n 0)
    let q (f : Placing → Placing) (ns : List Nat) : State := cmds [] (fun y => { y with placing := some (placingA f) }) ns
    (let s := q id [0, 4, 0]; (y s).placing = some (placingA id) ∧ (placingA id).reads = 0) ∧
    (∀ n ∈ [3, 2, 1], let s := q (fun p => { p with reads := n }) [0, 1]; ∃ pl, (y s).placing = some pl ∧ pl.reads = n ∧ s.arg.ns.length = 2) ∧
    (let s := q id [0, 4, 0]; ∃ pl, (y s).placing = some pl ∧ pl.cmd.seq = s.n 1 ∧ pl.reads = 0 ∧ s.n 2 = 0) ∧
    (∀ e ∈ [(3, true), (0, false)], let s := dependA e.1
     ∃ pl, (y s).placing = some pl ∧ pl.cmd.seq = s.n 1 ∧ pl.reads = 0 ∧ s.n 2 ≠ 0 ∧ s.dependsOn pl (s.n 3) = e.2) ∧
    (let s := cmds [] id [0]; (y s).placing = none ∧ (y s).next 0 = none ∧ (y s).copyBusy = none ∧ (y s).next 1 = none ∧
      (y s).memBusy = none ∧ (y s).next 2 = none ∧ s.takePacket (s.n 0) 0 = none ∧ s.takePacket (s.n 0) 1 = none) ∧
    (let s := cmds [cmdA 0 0 65536] id [0]; (y s).placing = none ∧ (y s).next 0 = some (cmdA 0 0 65536)) ∧
    (let s := cmds [cmdA 0 1 0] id [0]; (y s).placing = none ∧ (y s).next 0 = some (cmdA 0 1 0) ∧ (cmdA 0 1 0).job % 256 ≠ 0) := by
  refine ⟨by decide +kernel, fun n h => ⟨_, rfl, rfl, rfl⟩, ⟨_, rfl, by decide +kernel⟩, fun e h => ⟨dependP, by revert e; decide +kernel⟩, by decide +kernel, by decide +kernel, by decide +kernel⟩
/-- Does a read of a launch's header or tables end with this code? -/
def bad {α : Type} (r : Except Nat α) (n : Nat) : Bool := match r with
  | .ok _ => false
  | .error e => e == n
theorem wit_LaunchEvents_reads :
    let s := cmds [] id [0]
    bad (s.readHeader (cmdA 0 1 0)) 16 = true ∧ bad (s.readTables (cmdA 0 256 0) planA) 16 = true ∧
    okay (s.readTables (cmdA 0 256 0) {}) (fun _ => true) = true := by decide +kernel
theorem wit_LaunchEvents_end :
    (let s := ((cmds [] id [1]).own fun x => { x with st := .ready }); s.launch (s.n 0) = some { launchA with root := 1048576 } ∧
      s.launchEnded { launchA with root := 1048576 } = false) ∧
    (let s := ((cmds [] id [1]).own fun x => { x with st := .free }); s.launch (s.n 0) = some { launchA with root := 1048576 } ∧
      s.launchEnded { launchA with root := 1048576 } = true ∧ s.effectsLeft { launchA with root := 1048576 } = false) ∧
    (let s := { ((cmds [] id [1]).own fun x => { x with st := .free }) with flight := (flying id []).flight.map fun f : Access => { f with act := .store } }
     s.launchEnded { launchA with root := 1048576 } = true ∧ s.effectsLeft { launchA with root := 1048576 } = true) := by decide +kernel
theorem wit_LaunchEvents_capture :
    (∀ e ∈ [(65536, true), (2 ^ 40, false)], let s := cmds [cmdA 0 0 e.1] id [0]
     ∃ r, s.takePacket (s.n 0) 0 = some r ∧ (r.1.spaceRead r.2.asid r.2.arg 3 64).isSome = e.2) ∧
    (let s := cmds [cmdA 0 0 65537] id [0]; ∃ r, s.takePacket (s.n 0) 1 = some r ∧ (r.1.pylon (s.n 0)).capture = false) := by
  refine ⟨?_, ⟨_, rfl, by decide +kernel⟩⟩
  intro e h
  simp only [List.mem_cons, List.not_mem_nil, or_false] at h
  obtain rfl | rfl := h <;> exact ⟨_, rfl, by decide +kernel⟩
/-- With cluster (0, 0) of pylon 0 enabled, a job of that pylon finds an engine. -/
theorem jobEngine_some (on : enabled 0 0 0 = true) (s : State) (h : s.off 0 = false) : ∃ e, s.jobEngine 1 = some e := by
  unfold State.jobEngine
  extract_lets ks
  have m : 0 ∈ ks := List.mem_flatMap.2 ⟨0, by decide, List.mem_filter.2 ⟨by decide +kernel, by simp [on, h]⟩⟩
  match ks with
  | [] => cases m
  | a :: r =>
    cases List.find? (fun k => (s.cluster k).power == Power.awake) (a :: r) with
    | none => exact ⟨a, rfl⟩
    | some b => exact ⟨b, rfl⟩
theorem wit_LaunchEvents_jobs (on : enabled 0 0 0 = true) :
    let y (s : State) := s.pylon (s.n 0)
    (let s := cmds [{ cmdA 1 65536 0 with pyls := 0 }] id [0]
     ∃ k, (y s).copyBusy = none ∧ (y s).next 1 = some k ∧ s.jobEngine k.pyls = none) ∧
    (∀ t ∈ [1, 2], let s := cmds [cmdA t (2 ^ 40) 0] id [0]
     ∃ k, (y s).copyBusy = none ∧ (y s).memBusy = none ∧ (y s).next t = some k ∧ (∃ e, s.jobEngine k.pyls = some e) ∧
       (((s.dropCmd (s.n 0) k.seq).cmdStatus (s.n 0) k 1 0).spaceRead k.asid k.job 3 512) = none ∧
       (((s.dropCmd (s.n 0) k.seq).cmdStatus (s.n 0) k 1 0).spaceRead k.asid k.job 3 64) = none) ∧
    (let s := putAll (cmds [cmdA 1 65536 0] id [0]) [(65536, 131072), (65544, 196608), (65552, 3), (65560, 1), (65536 + 128, 2), (65536 + 256, 8), (65536 + 384, 8)]
     ∃ k, (y s).copyBusy = none ∧ (y s).next 1 = some k ∧ (∃ e, s.jobEngine k.pyls = some e) ∧
       ((((s.dropCmd (s.n 0) k.seq).cmdStatus (s.n 0) k 1 0).spaceRead k.asid k.job 3 512).any fun r =>
         (upFrom 5 2 ++ upFrom 7 9).all (fun i => lane r.2 64 i == 0) && okay (r.1.copyTake k.issuer k.asid 0 (fun n => lane r.2 64 (n - 512))) fun _ => true) = true) ∧
    (let s := cmds [] (fun y => { y with copyBusy := some (cmdA 1 65536 0) }) [0, 4]
     ∃ k, (y s).copyBusy = some k ∧ s.arg.ns = [s.n 0, k.seq] ∧
       (((s.setPylon (s.n 0) { y s with copyBusy := none }).cmdStatus (s.n 0) k 2 0).pylon (s.n 0)).next 1 = none) ∧
    (let s := cmds [] (fun y => { y with memBusy := some { cmd := cmdA 2 65536 0, blk := [], left := 0 } }) [0]
     ∃ r, (y s).memBusy = some r ∧ r.left = 0) := by
  refine ⟨⟨_, rfl, rfl, by decide +kernel⟩, ?_, ⟨_, by decide +kernel, rfl, jobEngine_some on _ (by decide +kernel), by decide +kernel⟩,
    ⟨_, rfl, rfl, by decide +kernel⟩, ⟨_, rfl, rfl⟩⟩
  intro t h
  simp only [List.mem_cons, List.not_mem_nil, or_false] at h
  obtain rfl | rfl := h <;>
    exact ⟨_, rfl, rfl, rfl, jobEngine_some on _ (by decide +kernel), by decide +kernel, by decide +kernel⟩

/-- With cluster (0, 0) of pylon 0 enabled and its pylon on, it is a place to be had. -/
theorem usable_one (on : enabled 0 0 0 = true) (s : State) (h : s.off 0 = false) (p : (s.cluster 0).power ≠ .failed) : s.usable [0] = true := by
  simp [State.usable, on, h, p]
/-- Its one rectangle, where no launch is. -/
theorem rects_one (on : enabled 0 0 0 = true) (s : State) (h : s.off 0 = false) (p : (s.cluster 0).power ≠ .failed) (q : Plan)
    (o : q.origins = [(0, 0)]) (k : rectClusters q.pyls 0 0 q.extW q.extH = [0]) (u : s.unitFor q [0] = some 0) :
    s.rects q = [(0, 0, 0, [0])] := by
  simp [State.rects, o, k, usable_one on s h p, u]
/-- Cluster 0 in a state of power. -/
def gated0 (s : State) (p : Power) : State := s.setCluster 0 { s.cluster 0 with power := p }
/-- Pylon 0 about to place the launch of one cluster, cluster 0 in this state of power. -/
def placeA (p : Power) (l : List Launch) : State := { gated0 (cmds [] (fun y => { y with placing := some { placingA id with plan := oneA } }) [0]) p with launches := l }
theorem wit_LaunchEvents_placing (on : enabled 0 0 0 = true) (out : Config.outcome 0 % 3 = 0) :
    let pl : Placing := { placingA id with plan := oneA }
    let held : Placing := { pl with lid := 1 }
    let qt (e : Nat) : Placing := { pl with plan := { oneA with qt := [(e, 0)] } }
    let go (s : State) (q : Placing) (n : Nat) : Prop := q.lid = 0 ∧
      (∃ o ∈ q.plan.origins, s.usable (rectClusters q.plan.pyls o.1 o.2 q.plan.extW q.plan.extH) = true) ∧
      ∃ r ∈ s.rects q.plan, (∀ late, s.choose q.plan late = if late = true ∨ n = 0 then some r else none) ∧ s.asleep r.2.2.2 = n
    -- no place at all
    (pl.lid = 0 ∧ ({ hdr := oneA.hdr.set 2 (2 ^ 24 + 2 ^ 16 + 66 * 256 + 2) } : Plan).origins = []) ∧
    -- a cluster without power, one with
    (go (placeA (.waking 0) []) pl 1 ∧ pl.late = false ∧ pl.until_ = none) ∧
    go (placeA .awake []) pl 0 ∧ (placeA .awake []).reserveFail pl.plan = none ∧
    go (placeA .awake []) (qt (4000 * 65536)) 0 ∧ (placeA .awake []).reserveFail (qt (4000 * 65536)).plan = some 19 ∧
    -- a launch that has its place
    (held.lid ≠ 0 ∧ ∀ e ∈ [(Power.awake, false), (.awake, true), (.waking 0, false), (.gated, false)],
      let s := (placeA e.1 [launchA]).own fun x => { x with st := if e.2 then .ready else .free }
      s.launch held.lid = some launchA ∧ s.usable (rectClusters 1 0 0 2 2) = true ∧
      s.asleep (rectClusters 1 0 0 2 2) = (if e.1 = .awake then 0 else 1) ∧ launchA.cores.all (s.coreFree ·) = !e.2) ∧
    ((placeA .failed [launchA]).launch held.lid = some launchA ∧ (placeA .failed [launchA]).usable (rectClusters 1 0 0 2 2) = false) ∧
    spanA ∈ launchA.cores ∧ deckA ∈ launchA.cores := by
  have one : rectClusters 1 0 0 2 2 = [0] := by decide +kernel
  have o : oneA.origins = [(0, 0)] := by decide +kernel
  have k : rectClusters oneA.pyls 0 0 oneA.extW oneA.extH = [0] := by decide +kernel
  have goes (s : State) (q : Placing) (n : Nat) (h : s.off 0 = false) (p : (s.cluster 0).power ≠ .failed) (l : q.lid = 0)
      (e : q.plan.origins = [(0, 0)]) (c : rectClusters q.plan.pyls 0 0 q.plan.extW q.plan.extH = [0]) (u : s.unitFor q.plan [0] = some 0)
      (m : s.asleep [0] = n) (n1 : n = 0 ∨ n = 1) : q.lid = 0 ∧
      (∃ o ∈ q.plan.origins, s.usable (rectClusters q.plan.pyls o.1 o.2 q.plan.extW q.plan.extH) = true) ∧
      ∃ r ∈ s.rects q.plan, (∀ late, s.choose q.plan late = if late = true ∨ n = 0 then some r else none) ∧ s.asleep r.2.2.2 = n := by
    have r := rects_one on s h p q.plan e c u
    refine ⟨l, ⟨(0, 0), by simp [e], by simp [c, usable_one on s h p]⟩, (0, 0, 0, [0]), by simp [r], fun late => ?_, m⟩
    obtain rfl | rfl := n1 <;> cases late <;> simp [State.choose, r, m]
  refine ⟨by decide +kernel, ⟨goes _ _ _ (by decide +kernel) (by decide +kernel) rfl o k (by decide +kernel) (by decide +kernel) (.inr rfl), rfl, rfl⟩,
    goes _ _ _ (by decide +kernel) (by decide +kernel) rfl o k (by decide +kernel) (by decide +kernel) (.inl rfl), ?_,
    goes _ _ _ (by decide +kernel) (by decide +kernel) rfl o k (by decide +kernel) (by decide +kernel) (.inl rfl), by decide +kernel,
    ⟨by decide, fun e h => ?_⟩, ⟨by decide +kernel, ?_⟩, by decide +kernel, by decide +kernel⟩
  · have f : (placeA .awake []).free = 0 := by decide +kernel
    simp only [State.reserveFail, f, out]
    decide +kernel
  · intro s
    rw [one]
    refine ⟨?_, usable_one on s ?_ ?_, ?_, ?_⟩ <;> revert e <;> decide +kernel
  · rw [one]
    have f : ((placeA .failed [launchA]).cluster 0).power = .failed := by decide +kernel
    simp [State.usable, f]
/-- A routed word and a command record whose cluster has no power yet, or never gets any. -/
theorem wit_EngineEvents_power :
    ∀ p ∈ [Power.waking 0, .failed],
    (let s := gated0 (stepped (span []) [0, 7, 1, 1]) p
     (s.core (coreOfWord (s.n 0))).rxWait = [] ∧
       (s.agenda.any fun x => decide (x.1 ≤ s.cyc) && arrivesAt (coreOfWord (s.n 0)) s.arg.ctx x.2.1 x.2.2) = false ∧
       ((s.wakeCluster 0).cluster (coreOfWord (s.n 0)).cluster).power = p) ∧
    (let s := gated0 (sealedCap (capA (2 ^ 18 + 7 * 2 ^ 25)) false) p
     (s.flight.any fun f => (s.arg.ns.drop (19 + s.n 18)).contains f.id && !f.performed) = false ∧
       ((s.wakeCluster (capCore (s.n 1)).cluster).cluster (capCore (s.n 1)).cluster).power = p) := by decide +kernel

theorem wit_ContextEvents_causes :
    let c (s : State) := s.arg.ctx
    let x (s : State) := s.ctx s.arg.ctx
    let own (f : Ctx → Ctx) : State := stepped ((span []).own f) []
    let sfuA : SfuReq := { id := 1, ctx := c0, word := 0, due := 9, outs := [] }
    (x (span [])).async = [] ∧ (x (own fun x => { x with st := .free })).st = .free ∧ (x (own fun x => { x with st := .stopped })).st = .stopped ∧
    (∀ w ∈ [Wait.tret, .operands 1 6], let s := own fun x => { x with st := .waiting, wait := w, pend := [{ cls := 1, reg := 6 }] }
      (x s).st = .waiting ∧ (x s).wait.breaks = false ∧ (s.stalls (c s) = false ∨ s.wakes (c s) = false)) ∧
    (∀ l ∈ [[33], [33, 20], [54, 33, 20, 46]], ∀ st ∈ [CtxSt.ready, .waiting],
      let s := own fun x => { x with st := st, wait := .mwait, async := l.map fun n => { cause := n } }
      (x s).async.length = l.length ∧ ((x s).st = .ready ∨ (x s).st = .waiting ∧ (x s).wait.breaks = true)) ∧
    (x (span [])).stops = [] ∧ (let s := own fun x => { x with stops := [5], halted := true }; s.atStop c0 = false) ∧
    (∀ st ∈ [CtxSt.ready, CtxSt.waiting], ∀ q ∈ [[], [sfuA]],
      let s := own fun x => { x with stops := [5], st := st }
      let s := s.setCore spanA { s.core spanA with sfu := q }
      (x s).stops ≠ [] ∧ (x s).st = st ∧ s.atStop c0 = true ∧ (s.core (c s).core).sfu = q) := by decide +kernel
theorem wit_ContextEvents_stops :
    let x (s : State) := s.ctx s.arg.ctx
    let named (s : State) : List CtxId := (coreOfWord (s.n 1)).ctxs.filter fun h => bit (s.n 2) h.k
    let way (s : State) : Bool := s.flight.any fun f => (s.arg.ns.drop 4).contains f.id && !f.performed
    let runs (s : State) (h : CtxId) : Bool := (s.ctx h).st != .free && (s.ctx h).st != .stopped && !(s.ctx h).halting
    let own (f : Ctx → Ctx) (ns : List Nat) : State := stepped ((span []).own f) ns
    -- contexts 1 and 2 of the core, in two states
    let two (a b : CtxSt) (ns : List Nat) : State := stepped (((span []).setCtx ⟨spanA, 1⟩ { st := a }).setCtx ⟨spanA, 2⟩ { st := b }) ns
    (let s := { stepped (span []) [0, 0, 0, 0, 1] with flight := (flying id []).flight }; way s = true) ∧
    (∀ a ∈ [CtxSt.ready, .waiting], ∀ b ∈ [CtxSt.ready, .waiting], let s := two a b [0, 0, 6, 0]
      way s = false ∧ s.n 0 = 0 ∧ named s = [⟨spanA, 1⟩, ⟨spanA, 2⟩] ∧ ∀ h ∈ named s, h ≠ c0 ∧ runs s h = true) ∧
    (∀ m ∈ [0, 6, 7], let s := two .free .stopped [0, 0, m, 0]; way s = false ∧ s.n 0 = 0 ∧ ∀ h ∈ named s, h = c0 ∨ runs s h = false) ∧
    (let s := two .ready .stopped [1, 0, 6, 0]
     way s = false ∧ s.n 0 = 1 ∧ (⟨spanA, 2⟩ : CtxId) ∈ named s ∧ (s.ctx ⟨spanA, 2⟩).st = .stopped) ∧
    (let s := own (fun x => { x with stops := [5], pkt := some { dst := spanA } }) [5]; (x s).stops.contains (s.n 0) = true) ∧
    (x (own (fun x => { x with stops := [5] }) [6])).stops.contains 6 = false := by decide +kernel
theorem wit_ContextEvents_power :
    let k (s : State) := s.cluster (s.n 0)
    let cl (f : Cluster → Cluster) (ns : List Nat) : State :=
      stepped (({ span [] with launches := [] } : State).setCluster 9 (f ((span []).cluster 9))) ns
    (k (cl id [9])).gateReq = false ∧
    (let s := cl (fun k => { k with gateReq := true }) [9]; (k s).gateReq = true ∧ (k s).power = .awake ∧ s.quiescent (s.n 0) = true ∧
      (k s).wakeAsk ≠ s.cyc + 1) ∧
    (let s := cl (fun k => { k with gateReq := true, wakeAsk := (span []).cyc + 1 }) [9]; (k s).gateReq = true ∧ (k s).wakeAsk = s.cyc + 1) ∧
    (let s := cl (fun k => { k with gq := [gatherA 0] }) [9, 0]; (k s).power = .awake ∧ (k s).freeSince = s.n 1 ∧ s.launches = [] ∧
      s.quiescent (s.n 0) = false) ∧
    (let s := cl (fun k => { k with gateReq := true, gq := [gatherA 0] }) [9]; (k s).gateReq = true ∧ s.quiescent (s.n 0) = false) ∧
    (∀ p ∈ [Power.gated, Power.waking 5, Power.failed], let s := cl (fun k => { k with power := p }) [9, 5]; (k s).power = p ∧ (k s).power ≠ .awake) ∧
    (let s := cl id [9, 0]; (k s).power = .awake ∧ (k s).freeSince = s.n 1 ∧ s.quiescent (s.n 0) = true ∧ s.launches = []) ∧
    (let s := cl id [9, 1]; (k s).freeSince ≠ s.n 1) ∧
    (let s := cl (fun k => { k with power := .waking 5 }) [9, 5]; (k s).power = .waking (s.n 1)) ∧
    (let s := cl (fun k => { k with power := .waking 5 }) [9, 6]; (k s).power ≠ .waking (s.n 1)) ∧
    (let s := cl (fun k => { k with saving := some 3 }) [9]; (k s).saving ≠ none) ∧ (let s := cl id [9]; (k s).saving = none) := by decide +kernel
theorem wit_ContextEvents_save :
    let k (s : State) := s.cluster (s.n 0)
    let next (s : State) : State := { s with free := s.free + 1 }
    let halted (s : State) : Bool := (clusterCores (s.n 0)).all fun u => u.ctxs.all fun h =>
      (s.ctx h).st == .free || (s.ctx h).st == .stopped || (s.ctx h).halting
    let running (s : State) : Bool := (clusterCores (s.n 0)).any fun u => u.ctxs.any fun h => (s.ctx h).live && (s.ctx h).st != .stopped
    -- cluster 0 with its save begun at cycle 3, its one context in a state
    let sv (st : CtxSt) (f : State → State) (ns : List Nat) : State :=
      stepped (f (((span []).own fun x => { x with st := st }).setCluster 0 { saving := some 3 })) ns
    (∀ e ∈ [(65538, true), (65539, false)], let s := sv .ready (fun s => { s with cyc := e.1 }) [0, 1]
     (k s).saving = some 3 ∧ s.n 1 = 1 ∧ halted s = false ∧ decide (s.cyc < 3 + 65536) = e.2) ∧
    (let s := sv .free (fun s => s.setCore spanA {}) [0, 1]
     (k s).saving = some 3 ∧ s.n 1 = 1 ∧ halted s = true ∧ ∀ u ∈ clusterCores (s.n 0), ((next s).saveMeets (s.n 0) u).some_ = false) ∧
    (let s := sv .ready id [0, 2]; (k s).saving = some 3 ∧ s.n 1 ≠ 1 ∧ (clusterCores (s.n 0)).any s.footHeld = true) ∧
    (let s := sv .ready (fun s => { s with away := [(spanA, {}, [])] }) [0, 2]
     (k s).saving = some 3 ∧ s.n 1 ≠ 1 ∧ (clusterCores (s.n 0)).any s.footHeld = false ∧ running s = true) := by decide +kernel
/-- A save or restore begins, or has no effect, as cluster (0, 0) of pylon 0 is enabled or not. -/
theorem wit_ContextEvents_saves (b : Bool) (h : enabled 0 0 0 = b) :
    let s : State := stepped (({ span [] with launches := [] } : State).setCluster 0 {}) [0]
    (s.cluster (s.n 0)).saving = none ∧ enabled (s.n 0 / 512) (s.n 0 % 512 / 16) (s.n 0 % 16) = b := ⟨by decide +kernel, h⟩

theorem wit_ControlEvents :
    let h (s : State) := s.home (s.n 0)
    let hm (f : Home → Home) (ns : List Nat) : State := stepped (({ span [] with homes := [] } : State).setHome 3 (f {})) ns
    let st (ns : List Nat) : State := stepped (span []) ns
    ctlAssigned ((st [16, 7]).n 0) = false ∧ ctlAssigned ((st [117440528, 7]).n 0) = true ∧ (4352 : Nat) ≤ 4352 ∧ (5119 : Nat) < 5120 ∧
    (511 : Nat) < 512 ∧ (h (hm (fun m => { m with repairBusy := true }) [3])).repairBusy = true ∧ (h (hm id [3])).repairBusy = false ∧
    (st [0, 4, 64, 7]).arg.ns.drop 3 = [7] ∧
    bit ((st [0, 5]).ctl (67108864 + 0 * 256 + 24)) 62 = false ∧
    (let s := st [0, 5]; bit (s.n 1) 0 = true ∧ bit (s.n 1) 2 = true ∧ bit (s.ctl (67112960 + s.n 0 * 256)) 0 = false) ∧
    (st [3, 1]).n 1 % 2 = 1 ∧ (st [3, 0]).n 1 % 2 = 0 ∧
    bit ((hm id [3, 0]).n 1) 63 = false ∧ (h (hm (fun m => { m with repairBusy := true }) [3, 0])).repairBusy = true ∧
    (let s := hm (fun m => { m with spare := 0 }) [3, 2 ^ 63]; bit (s.n 1) 63 = true ∧ (h s).repairBusy = false ∧ (h s).spare = 0) ∧
    (let s := hm (fun m => { m with repaired := [2] }) [3, 2 ^ 63 + 4096]
     bit (s.n 1) 63 = true ∧ (h s).repairBusy = false ∧ (h s).repaired.contains (bits (s.n 1) 39 0 / 2048) = true) ∧
    (let s := hm id [3, 2 ^ 63 + 4096]; bit (s.n 1) 63 = true ∧ (h s).repairBusy = false ∧ (h s).spare ≠ 0 ∧
      (h s).repaired.contains (bits (s.n 1) 39 0 / 2048) = false) ∧
    (st [1]).n 0 = 1 ∧ (st [2]).n 0 ≠ 1 ∧
    bit (Mem.read (putAll (span []) [(hostBase + 64, 1)]).mem (hostBase + 64) 8) 0 = true ∧ bit (Mem.read (span []).mem (hostBase + 64) 8) 0 = false ∧
    2 ≤ ({ span [] with fsc := 2 } : State).fsc ∧ ({ span [] with fsc := 1 } : State).fsc < 2 ∧ (span []).minimal = none ∧
    (let s := putAll ({ span [] with minimal := some 0 } : State) [(hostBase + 128, 1)]
     let s := s.setCtx bootCtx { st := .waiting, wait := .rom }
     ∃ p, s.minimal = some p ∧ (s.ctx bootCtx).wait = .rom ∧ Mem.read s.mem (hostBase + 128) 8 ≠ Mem.read s.mem (hostBase + 136) 8 ∧
       (s.stagedImage (Mem.read s.mem (hostBase + 136) 8)).isSome = true) ∧
    (let s := st [0, 4, 64, 7]; s.n 1 = 4 ∧ s.n 2 + 1 ≤ 4294967296 ∧ s.arg.ns.length = 4) := by
  intro h hm st
  refine ⟨?_, ?_, ?_, ?_, ?_, ?_, ?_, ?_, ?_, ?_, ?_, ?_, ?_, ?_, ?_, ?_, ?_, ?_, ?_, ?_, ?_, ?_, ?_, ?_, ⟨0, ?_⟩, ?_⟩
  all_goals decide +kernel

/-! ### The machine as a whole -/

theorem okay_eq {ε α : Type} [DecidableEq α] {r : Except ε α} {a : α} (h : okay r (fun x => decide (x = a)) = true) : r = .ok a := by
  obtain ⟨x, e, p⟩ := okay_spec h
  rw [e, of_decide_eq_true p]
theorem decodes_spec {w : Nat} {i : Instr} (h : decodes w i = true) : decodeWord w = .ok i := by
  unfold decodes at h
  split at h
  · rename_i e; rw [e, of_decide_eq_true h]
  · cases h
theorem refused_spec {w f : Nat} (h : refused w f = true) : decodeWord w = .error f := by
  unfold refused at h
  split at h
  · cases h
  · rename_i e; rw [e, of_decide_eq_true h]
/-- Does a step answer a state of which p holds? -/
def steps (s : State) (p : State → Bool) : Bool := match step s with
  | .next t => p t
  | _ => false
theorem steps_spec {s : State} {p : State → Bool} (h : steps s p = true) : ∃ t, step s = .next t ∧ p t = true := by
  unfold steps at h
  split at h
  · exact ⟨_, by assumption, h⟩
  · cases h

/-- A word at the pc, in a page that the TLB maps. -/
def ready (w : Nat) : State := { ((span []).mapped.own fun x => { x with pc := 65536 }) with mem := Mem.write (span []).mem 65536 4 w }
theorem wit_StepRunsTheWord :
    (∃ ms, ({ span [] with moves := [.issue c0] } : State).moves = .issue c0 :: ms) ∧
    (∃ i a ms, ({ span [] with moves := [.event .warmReset {}] } : State).moves = .event i a :: ms) ∧
    (∀ cyc ∈ [4, 5, 6], let s : State := { span [] with agenda := [(5, .warmReset, {})], cyc := cyc }
      s.moves = [] ∧ ∃ i a rest, s.agenda = (5, i, a) :: rest) ∧
    (∃ k l ms, ({ span [] with moves := [.fill 0 0] } : State).moves = .fill k l :: ms) ∧
    (∃ h ms, ({ span [] with moves := [.correct 0] } : State).moves = .correct h :: ms) ∧
    (∀ e ∈ [((span []).own fun x => { x with st := .waiting, wait := .mwait }, some (Turn.due c0)), (span [], some (.issue c0)),
        ((span []).own fun x => { x with st := .free }, none),
        ((span []).own fun x => { x with async := [{ cause := 33 }] }, some (.step .asyncTrapTake { ctx := c0 }))],
      e.1.turn (trapsFirst e.1) = e.2) ∧
    (∃ w, (ready 0x37FFFFFF).fetch c0 = .ok w ∧ decodeWord w.toNat = .error 6 ∧ nearest 6 w.toNat = none ∧ w.toNat / 67108864 = 13) ∧
    (∃ w, (ready 0x04A63800).fetch c0 = .ok w ∧ decodeWord w.toNat = .ok (.add 5 6 7)) ∧
    (∃ w, (ready 0xB0000000).fetch c0 = .ok w ∧ decodeWord w.toNat = .error 1 ∧ nearest 6 w.toNat = none ∧
      ((ready 0xB0000000).ctx c0).chainImm = none ∧ ((ready 0xB0000000).ctx c0).chainMod = none) ∧
    (let s := (ready 0xB0000000).own fun x => { x with chainImm := some 3 }
     ∃ w, s.fetch c0 = .ok w ∧ decodeWord w.toNat = .error 1 ∧ nearest 6 w.toNat = none ∧ w.toNat / 67108864 ≠ 63 ∧ (s.ctx c0).chainImm = some 3) ∧
    (∃ w, (ready 0x04A63840).fetch c0 = .ok w ∧ decodeWord w.toNat = .error 5 ∧ nearest 6 w.toNat = some (.add 5 6 7)) ∧
    (let s : State := { span [] with bad := some 5 }
     s.bad = some 5 ∧ (s.ctx s.cur).chainImm = none ∧ (s.ctx s.cur).chainMod = none) ∧
    (let s := ready 0
     let pc := (s.ctx c0).pc.toNat
     pc % 4 = 0 ∧ pc < 281474976710656 ∧ s.translate c0 pc false true = .ok 65536 ∧ s.poisoned 65536 4 = none) ∧
    (((span []).own fun x => { x with pc := 4098 }).ctx c0).pc.toNat % 4 ≠ 0 := by
  refine ⟨⟨_, rfl⟩, ⟨_, _, _, rfl⟩, fun cyc _ => ⟨rfl, _, _, _, rfl⟩, ⟨_, _, _, rfl⟩, ⟨_, _, rfl⟩, by decide +kernel, ⟨0x37FFFFFF, ?_, ?_, by decide +kernel⟩, ⟨0x04A63800, ?_, ?_⟩,
    ⟨0xB0000000, ?_, ?_, by decide +kernel⟩, ⟨0xB0000000, ?_, ?_, by decide +kernel⟩, ⟨0x04A63840, ?_, ?_, by decide +kernel⟩, by decide +kernel, ⟨by decide +kernel, by decide +kernel, ?_, by decide +kernel⟩, by decide +kernel⟩
  · exact okay_eq (by decide +kernel)
  · exact refused_spec (by decide +kernel)
  · exact okay_eq (by decide +kernel)
  · exact decodes_spec (by decide +kernel)
  · exact okay_eq (by decide +kernel)
  · exact refused_spec (by decide +kernel)
  · exact okay_eq (by decide +kernel)
  · exact refused_spec (by decide +kernel)
  · exact okay_eq (by decide +kernel)
  · exact refused_spec (by decide +kernel)
  · exact okay_eq (by decide +kernel)
/-- A whole step: ADD is fetched, decoded and executed. -/
theorem test_step_add : steps (((ready 0x04A63800).wx c0 6 2).wx c0 7 3) (fun t => t.rx c0 5 == 5 && (t.ctx c0).pc == 65540) = true := by
  decide +kernel
/-- A reserved field of ADD is ILLEGAL 5; after a HINT.IMM, which ADD takes none of, the cause is HINT_ORPHAN 4 (R418). -/
theorem test_reserved_field : steps (ready 0x04A63840) (fun t => (t.ctx c0).trapS.cause == 1 && bits (t.ctx c0).trapS.info.toNat 39 37 == 5) = true ∧
    steps ((ready 0x04A63840).own fun x => { x with chainImm := some 3 }) (fun t => (t.ctx c0).trapS.cause == 4) = true := by
  decide +kernel
/-- The first step after reset runs a word placed at the pc: MOVI x7, 9029. -/
theorem test_withFetchWord : steps (State.reset.withFetchWord 32 0x1CE02345) (fun t => t.rx bootCtx 7 == 9029 && t.ir == 0x1CE02345) = true := by
  decide +kernel

theorem wit_DecodeEncode : (Instr.add 5 6 7).wf = true ∧ (Instr.j 67108863).wf = true ∧ (Instr.vcvt 31 0 1 26).wf = true := by decide +kernel
theorem wit_EncodeDecode : decodeWord 0x04A63800 = .ok (.add 5 6 7) ∧ decodeWord 0x00000001 = .ok .halt ∧
    decodeWord 0xFC000001 = .ok .hintImm :=
  ⟨decodes_spec (by decide +kernel), decodes_spec (by decide +kernel), decodes_spec (by decide +kernel)⟩
theorem wit_MemoryFormKept : Mem.wf (ready 0x04A63800).mem = true ∧ ∃ t, step (ready 0x04A63800) = .next t := by
  obtain ⟨t, h, _⟩ := steps_spec (s := ready 0x04A63800) (p := fun _ => true) (by decide +kernel)
  exact ⟨by decide +kernel, t, h⟩
theorem wit_CapabilityMap : (15 : Nat) < 16 ∧ (7 : Nat) < 8 ∧ (31 : Nat) < 32 := by decide
theorem wit_RegisterFile : Mem.wf ((span [(3, 5)]).withV [(2, 26, 7)]).mem = true ∧ (31 : Nat) < 32 ∧ (15 : Nat) < 16 ∧ (7 : Nat) < 8 := by decide +kernel
theorem wit_OperandsOfAPlainWord :
    (let s := span [(6, 2)]; s.bad = none ∧ (s.ctx c0).chainImm = none ∧ (s.ctx c0).chainMod = none ∧ s.poison = [] ∧ s.pending c0 1 6 = false ∧
      (s.ctx c0).level = .u ∧ (s.ctx c0).timed = none) ∧
    (let s := (span []).own fun x => { x with pend := [{ cls := 1, reg := 6 }] }; s.pending c0 1 6 = true ∧ (s.ctx c0).chainMod = none ∧ (s.ctx c0).timed = none) ∧
    (at_ svcA .u []).cur.core.kind = .service := by decide +kernel
theorem wit_FrameOfAScalarResult :
    let o : Opnds := {}
    Mem.wf (span [(6, 2)]).mem = true ∧ o.m.dst = 0 ∧ (span []).pending c0 1 5 = false ∧
    (∀ r ∈ [0, 1, 31], okay ((span [(6, 2)]).putX c0 o r 9) (fun _ => true) = true) := by decide +kernel

end Sys2Proof.Tests
end

section
/-! PROOF. Writes of control words with an effect of their own, and the steps of a start: what each says of the state, by cases of the
value written and of what the word held (R6, R7, R135, R228 to R233, R239, R387, R448, R459, R460). -/

namespace Sys2Proof.Machine

theorem bit_eq_testBit (v n : Nat) : bit v n = v.testBit n := by
  rw [Nat.testBit_eq_decide_div_mod_eq]; rfl

/-! ### Control words -/

section
variable {s : State} {p h v o : Nat}

/-- The words at offsets 4,352 to 5,119 have no behaviour of their own: a write replaces their writable bits (R6, R7). -/
theorem State.ctlWrite_plain (hl : 4352 ≤ o) (hu : o < 5120) : s.ctlWrite o v = s.setCtl o (v &&& ctlWritable o) := by
  simp only [State.ctlWrite, State.plainWrite]
  repeat' rw [if_neg (by omega)]

/-- A write to a word of a home's block goes by its place in the block (R135, R430, R448). -/
theorem State.ctlWrite_homeBlock {r : Nat} (hh : h < 512) (hr : r < 65536) :
    s.ctlWrite (homeBlock h + r) v =
      if r = 2048 then s.quiesceWrite h v
      else if r = 2064 then s.setCtl (homeBlock h + r) (s.ctl (homeBlock h + r) &&& (2 ^ 64 - 1 - v))
      else if r = 2072 then s
      else if r = 2080 then s.repairWrite h v
      else s.plainWrite (homeBlock h + r) v := by
  have hb : homeBlock h = 16777216 + h * 65536 := rfl
  have hhome : (homeBlock h + r - 16777216) / 65536 = h := by omega
  have hplace : (homeBlock h + r) % 65536 = r := by omega
  simp only [State.ctlWrite]
  rw [if_neg (by omega), if_neg (by omega), if_pos (by omega), hhome, hplace]

/-- VSH takes 1 to 64, and keeps what it holds otherwise (R143). -/
theorem State.ctlWrite_vsh :
    s.ctlWrite 117440528 v = if 1 ≤ v % 128 ∧ v % 128 ≤ 64 then s.setCtl 117440528 (v % 128) else s := rfl

/-- Unless a stop has landed at the pylon, a write of its stop word leaves TARGET and ARM as written (R239). -/
theorem State.stopWrite_of_not_held (hheld : bit (s.ctl (67108864 + p * 256 + 24)) 62 = false) :
    s.stopWrite p v = s.setCtl (67108864 + p * 256 + 24) (v % 4294967296 + if bit v 63 then 2 ^ 63 else 0) := by
  simp [State.stopWrite, hheld]

/-- ARM is set in the word that arms a stop (R239). -/
theorem bit_arm (t : Nat) : bit (2 ^ 63 + t % 4294967296) 63 = true := by
  simp only [bit, beq_iff_eq]; omega
/-- TARGET has 32 bits and does not reach ARM. -/
theorem bit_target (t : Nat) : bit (t % 4294967296) 63 = false := by
  simp only [bit, beq_eq_false_iff_ne]; omega
/-- ARM does not reach TARGET. -/
theorem target_of_arm (t : Nat) : (2 ^ 63 + t % 4294967296) % 4294967296 = t % 4294967296 := by omega

/-- RECORD and REPLAY both set leave both as they are, so no replay begins (R460). -/
theorem State.replayWrite_both (hrec : bit v 0 = true) (hrep : bit v 2 = true) :
    s.replayWrite p v = s.setCtl (67112960 + p * 256)
      ((s.ctl (67112960 + p * 256) &&& 5) + (v &&& 2) + (s.ctl (67112960 + p * 256) &&& 8)) := by
  have hkeep (old : Nat) : bit (old &&& 5) 0 = bit old 0 := by simp [bit_eq_testBit]
  simp [State.replayWrite, hrec, hrep, hkeep]

/-- QUIESCE set holds the pier (R135). -/
theorem State.quiesceWrite_set (hv : v % 2 = 1) : s.quiesceWrite h v = s.setCtl (homeBlock h + 2048) 1 := by
  simp [State.quiesceWrite, hv]
/-- QUIESCE clear lets the pier take what waits (R135). -/
theorem State.quiesceWrite_clear (hv : v % 2 = 0) :
    s.quiesceWrite h v = (s.setCtl (homeBlock h + 2048) 0).after 0 .pierJobEnd { ns := [h, 0] } := by
  simp [State.quiesceWrite, hv]

/-! ### Row repair (R448) -/

theorem State.repairWrite_ignored (hv : bit v 63 = false ∨ (s.home h).repairBusy = true) : s.repairWrite h v = s := by
  rcases hv with hgo | hbusy <;> simp [State.repairWrite, *]
theorem State.repairWrite_fails (hgo : bit v 63 = true) (hbusy : (s.home h).repairBusy = false)
    (hrow : (s.home h).spare = 0 ∨ (s.home h).repaired.contains (bits v 39 0 / 2048) = true) :
    s.repairWrite h v = s.setHome h { s.home h with repairFail := true } := by
  simp only [State.repairWrite, hgo, hbusy, Bool.not_true, Bool.or_false, Bool.false_eq_true, if_false, if_pos hrow]
theorem State.repairWrite_begins (hgo : bit v 63 = true) (hbusy : (s.home h).repairBusy = false) (hspare : (s.home h).spare ≠ 0)
    (hrow : (s.home h).repaired.contains (bits v 39 0 / 2048) = false) :
    s.repairWrite h v =
      (s.setHome h { s.home h with repairBusy := true, repairFail := false, repairPa := bits v 39 0 / 2048 }).after 1 .rowRepairDone
        { ns := [h] } := by
  have hfree : ¬((s.home h).spare = 0 ∨ (s.home h).repaired.contains (bits v 39 0 / 2048) = true) := by
    rw [hrow]; simp [hspare]
  simp only [State.repairWrite, hgo, hbusy, Bool.not_true, Bool.or_false, Bool.false_eq_true, if_false, if_neg hfree]

/-! ### Start good (R232) -/

theorem State.startGood_one (hv : v = 1) : s.startGood v = { s.setCtl 4224 1 with
    fsc := 0, mem := Mem.write (s.setCtl 4224 1).mem (hostBase + 64) 8 (Mem.read (s.setCtl 4224 1).mem (hostBase + 64) 8 ||| 1) } := by
  subst hv; rfl
theorem State.startGood_other (hv : v ≠ 1) : s.startGood v = s.setCtl 4224 v := by simp only [State.startGood, if_neg hv]

end

/-! ### What follows a write of memory leaves the step's argument -/

section
variable {s : State}

/-- What no part of a fold touches stands after it. -/
theorem foldl_arg {α : Type} {f : State → α → State} (hf : ∀ t e, (f t e).arg = t.arg) (l : List α) (s : State) :
    (l.foldl f s).arg = s.arg := by
  induction l generalizing s with
  | nil => rfl
  | cons e l ih => rw [List.foldl_cons, ih, hf]

@[simp] theorem State.clearPoison_arg (k n m : Nat) : (s.clearPoison k n m).arg = s.arg := by unfold State.clearPoison; split <;> rfl
@[simp] theorem State.fireWatch_arg (k n m : Nat) (b : Bool) : (s.fireWatch k n m b).arg = s.arg := rfl
@[simp] theorem State.overtake_arg (k n m : Nat) (w : Option CtxId) : (s.overtake k n m w).arg = s.arg := rfl
@[simp] theorem State.wrBytes_arg (k n v m : Nat) (w : Option CtxId) : (s.wrBytes k n v m w).arg = s.arg := by
  unfold State.wrBytes
  dsimp only
  split <;> simp

@[simp] theorem State.stampBlock_arg (p b : Nat) (m : Master) : (s.stampBlock p m b).arg = s.arg := by
  unfold State.stampBlock
  dsimp only
  split <;> simp
@[simp] theorem State.stamp_arg (k n : Nat) : (s.stamp k n).arg = s.arg :=
  foldl_arg (fun t e => by split <;> simp) _ _

@[simp] theorem State.tryRelease_arg (l : Launch) (dom : Nat) : (s.tryRelease l dom).arg = s.arg := by
  unfold State.tryRelease
  dsimp only
  split
  · split <;> simp
  · rfl

/-- Reports and expectations leave it, where what follows a counter that went down does (R111, R358, R444). -/
theorem State.counterWriteBy_arg {regress : State → Reg → State} (hr : ∀ t r, (regress t r).arg = t.arg) (k n : Nat) :
    (s.counterWriteBy k n regress).arg = s.arg := by
  unfold State.counterWriteBy
  dsimp only
  split
  · rfl
  · rw [foldl_arg, State.setHome_arg, foldl_arg hr]
    intro t r
    split
    · rfl
    · exact foldl_arg (fun t l => foldl_arg (fun t b => by split <;> simp) _ _) _ _

theorem State.wrRecord_arg {regress : State → Reg → State} (hr : ∀ t r, (regress t r).arg = t.arg) (ws : List Nat) (s : State) (k : Nat) :
    (s.wrRecord k regress ws).arg = s.arg := by
  induction ws generalizing s k with
  | nil => rfl
  | cons w ws ih => simp [State.wrRecord, ih, State.counterWriteBy_arg hr]

theorem State.engineWalk_arg {asid va : Nat} {wr : Bool} {t : State} {e : Tlb} (h : s.engineWalk asid va wr = .ok (t, e)) :
    t.arg = s.arg := by
  unfold State.engineWalk at h
  split at h
  · cases h
  · cases h
  · cases h
    simp [State.setAD]

/-- An entry of a ring leaves it, written or dropped (R238, R446). -/
theorem State.ringWrite_arg {regress : State → Reg → State} (hr : ∀ t r, (regress t r).arg = t.arg) (block pyl : Nat) (ws : List Nat) :
    (s.ringWrite block pyl regress ws).arg = s.arg := by
  unfold State.ringWrite
  dsimp only
  split
  · rfl
  · split
    · rfl
    · next hwalk => rw [State.wrRecord_arg hr, State.engineWalk_arg hwalk]

theorem State.regressLog_arg {next : State → Reg → State} (hr : ∀ t r, (next t r).arg = t.arg) (s : State) (r : Reg) :
    (State.regressLog next s r).arg = s.arg := State.ringWrite_arg hr _ _ _
theorem State.regressed_arg (s : State) (r : Reg) : (s.regressed r).arg = s.arg :=
  State.regressLog_arg (State.regressLog_arg fun _ _ => rfl) s r

/-- A write of the module itself, of no context, leaves the argument of the step in progress. -/
theorem State.wrMem_arg (k n v m : Nat) : (s.wrMem k n v m none).arg = s.arg := by
  have hcount (t : State) : (t.counterWrite k n none).arg = t.arg := State.counterWriteBy_arg State.regressed_arg k n
  unfold State.wrMem State.wrPlain
  dsimp only
  split <;> simp [hcount]

end

/-! ### The steps -/

section
variable {s : State}

/-- An unassigned word ignores a write (R7). -/
theorem execControlWordWrite_unassigned (ho : ctlAssigned (s.n 0) = false) : execControlWordWrite s = .next s := by
  simp only [execControlWordWrite, ho, Bool.false_eq_true, if_false, done]
theorem execControlWordWrite_assigned (ho : ctlAssigned (s.n 0) = true) :
    execControlWordWrite s = .next (s.ctlWrite (s.n 0) (s.n 1)) := by
  simp only [execControlWordWrite, ho, if_true, done]

/-- Where none has landed, a stop is armed at its target (R239). -/
theorem execPreciseStopArm_of_not_held (hheld : bit (s.ctl (67108864 + s.n 0 * 256 + 24)) 62 = false) :
    execPreciseStopArm s = .next (s.setCtl (67108864 + s.n 0 * 256 + 24) (s.n 1 % 4294967296 + 2 ^ 63)) := by
  rw [execPreciseStopArm, State.stopWrite_of_not_held hheld, bit_arm, target_of_arm, if_pos rfl, done]
/-- Where none has landed, lifting a stop leaves its target alone (R239). -/
theorem execPreciseStopLift_of_not_held (hheld : bit (s.ctl (67108864 + s.n 0 * 256 + 24)) 62 = false) :
    execPreciseStopLift s = .next (s.setCtl (67108864 + s.n 0 * 256 + 24) (s.n 1 % 4294967296)) := by
  rw [execPreciseStopLift, State.stopWrite_of_not_held hheld, bit_target, Nat.mod_mod, if_neg Bool.false_ne_true, Nat.add_zero (s.n 1 % _), done]

/-- A repair in progress ends with the row mapped and one spare fewer (R448). -/
theorem execRowRepairDone_busy (hbusy : (s.home (s.n 0)).repairBusy = true) :
    execRowRepairDone s = .next (s.setHome (s.n 0) { s.home (s.n 0) with
      repairBusy := false, spare := (s.home (s.n 0)).spare - 1
      repaired := (s.home (s.n 0)).repaired ++ [(s.home (s.n 0)).repairPa] }) := by
  simp [execRowRepairDone, hbusy, done]
theorem execRowRepairDone_idle (hbusy : (s.home (s.n 0)).repairBusy = false) : execRowRepairDone s = .next s := by
  simp [execRowRepairDone, hbusy, done]

/-- Once STARTED is set the watchdog does nothing (R228, R232). -/
theorem execStartWatchdog_started (hs : bit (Mem.read s.mem (hostBase + 64) 8) 0 = true) : execStartWatchdog s = .next s := by
  simp only [execStartWatchdog, State.started, hs, if_true, done]
/-- A start that is not over when the watchdog falls due ends in a warm reset, TIMEOUT where no other reason stands (R232, R459). -/
theorem execStartWatchdog_restarts (hs : bit (Mem.read s.mem (hostBase + 64) 8) 0 = false) :
    execStartWatchdog s = .next (s.restart (if s.failReason = 0 then 1 else s.failReason) s.failStep) := by
  simp only [execStartWatchdog, State.started, hs, Bool.false_eq_true, if_false, done]

/-- A start counts itself and sets its watchdog; from the third failed one on it is minimal mode (R232, R233). -/
theorem execBootStart_eq :
    execBootStart s =
      let t := ({ s with fsc := min 255 (s.fsc + 1) } : State).after 2147483648 .startWatchdog {}
      .next (if 2 ≤ s.fsc then t.minimalMode else t.bootImage) := by
  have hthird : (min 255 (s.fsc + 1) ≥ 3) ↔ 2 ≤ s.fsc := by omega
  simp only [execBootStart, State.after_fsc, hthird, done]

/-- Out of minimal mode no message is taken (R233). -/
theorem execRecoveryImageMessage_none (hmin : s.minimal = none) : execRecoveryImageMessage s = .next s := by
  unfold execRecoveryImageMessage
  dsimp only
  split
  · rfl
  · next q hsome => simp [hmin] at hsome

/-- In minimal mode the boot ROM takes the message at the ring's tail: it enters the image named there, where its check passes, and
reports the failure otherwise (R233, R459). -/
theorem execRecoveryImageMessage_taken {t : State} {q tail : Nat} {img : List Nat} (hmin : s.minimal = some q)
    (hrom : (s.ctx bootCtx).wait = .rom) (htail : Mem.read s.mem (hostBase + 136) 8 = tail)
    (hring : Mem.read s.mem (hostBase + 128) 8 ≠ tail)
    (ht : t = { s with mem := Mem.write s.mem (hostBase + 136) 8 ((tail + 1) % 4294967296) }) (himg : t.stagedImage tail = some img) :
    execRecoveryImageMessage s = .next (if imagePasses img then t.enterImage img
      else { t.report 8 (bits (Mem.read t.mem (hostBase + 8) 8) 47 40) with failReason := 8 }) := by
  have hgo : ¬((s.ctx bootCtx).wait ≠ .rom ∨ Mem.read s.mem (hostBase + 128) 8 = tail) := by simp [hrom, hring]
  have hmem : Mem.write s.mem (hostBase + 136) 8 ((tail + 1) % 4294967296) = t.mem := by rw [ht]
  unfold execRecoveryImageMessage
  dsimp only
  split
  · next hnone => simp [hmin] at hnone
  · rw [htail, if_neg hgo, ← ht, himg, hmem, Option.filter_some]
    by_cases hpass : imagePasses img = true
    · rw [if_pos hpass, if_pos hpass]; rfl
    · rw [if_neg hpass, if_neg hpass]; rfl

/-- A byte written through BAR 4 is a write of device memory (R227). -/
theorem execStagingRegionWrite_byte {v : Nat} (hbar : s.n 1 = 4) (hoff : s.n 2 < 4294967296) (hns : s.arg.ns.drop 3 = [v]) :
    execStagingRegionWrite s = .next (s.wrMem (stagingKey (s.n 0) (s.n 2)) 1 (v % 256) 1 none) := by
  have hone : [v].zip (upFrom (s.n 2) [v].length) = [(v, s.n 2)] := rfl
  have hbar2 : ¬(s.n 1 = 2 ∧ s.n 2 < 1048576) := by omega
  unfold execStagingRegionWrite
  dsimp only
  rw [hns, hone, List.foldl_cons, List.foldl_nil]
  dsimp only
  rw [if_neg hbar2, if_pos ⟨hbar, hoff⟩, done]

/-- Bytes written from a place that the step's argument names go where it named at first. -/
theorem foldl_wrMem_place (j : Nat) (l : List (Nat × Nat)) (t : State) :
    l.foldl (fun t e => t.wrMem (t.arg.ns.getD j 0 + e.2) 1 e.1 1 none) t =
      l.foldl (fun u e => u.wrMem (t.n j + e.2) 1 e.1 1 none) t := by
  induction l generalizing t with
  | nil => rw [List.foldl_nil, List.foldl_nil]
  | cons e l ih =>
    have harg := State.wrMem_arg (s := t) (t.n j + e.2) 1 e.1 1
    have hplace : (t.wrMem (t.n j + e.2) 1 e.1 1 none).n j = t.n j := by rw [State.n, harg, State.n]
    rw [List.foldl_cons, List.foldl_cons, ← State.n, ih, hplace]

/-- A report and its signature are written byte by byte from the location that the request names (R231). -/
theorem execAttestationSign_eq : execAttestationSign s =
    .next (((s.attestBody (s.n 0 % 8) (s.arg.ns.drop 2) ++
        (upFrom 0 512).map fun i => Config.signature (s.attestBody (s.n 0 % 8) (s.arg.ns.drop 2)) i % 256).zip (upFrom 0 1024)).foldl
      (fun t e => t.wrMem (s.n 1 + e.2) 1 e.1 1 none) { s with free := s.free + 1 }) := by
  unfold execAttestationSign
  dsimp only
  rw [foldl_wrMem_place, done]
  simp only [State.n]

end

end Sys2Proof.Machine

namespace Sys2Proof.Proofs
open Sys2Proof.Machine Sys2Proof.Claims

/-- Settles O29: each step is the write of its control word or the part of a start that it names, and these are told apart by the value
written and by what the word, the home or the failed-start count held. -/
theorem controlEvents : Obligations.ControlEvents := by
  unfold Obligations.ControlEvents
  exact ⟨
    fun s ho => execControlWordWrite_unassigned ho,
    fun s ho => execControlWordWrite_assigned ho,
    fun s o v => State.ctlWrite_plain,
    fun s h v hh => ⟨State.ctlWrite_homeBlock hh (by decide), State.ctlWrite_homeBlock hh (by decide)⟩,
    fun s v => State.ctlWrite_vsh,
    fun s hheld => execPreciseStopArm_of_not_held hheld,
    fun s hheld => execPreciseStopLift_of_not_held hheld,
    fun s ⟨hrec, hrep, _⟩ => congrArg done (State.replayWrite_both hrec hrep),
    fun s _ => exec_capabilityEpochAdvance s,
    fun s hv => congrArg done (State.quiesceWrite_set hv),
    fun s hv => congrArg done (State.quiesceWrite_clear hv),
    fun s hv => congrArg done (State.repairWrite_ignored hv),
    fun s ⟨hgo, hbusy, hrow⟩ => congrArg done (State.repairWrite_fails hgo hbusy hrow),
    fun s ⟨hgo, hbusy, hspare, hrow⟩ => congrArg done (State.repairWrite_begins hgo hbusy hspare hrow),
    fun s hbusy => execRowRepairDone_busy hbusy,
    fun s hbusy => execRowRepairDone_idle hbusy,
    fun s hv => ⟨_, congrArg done (State.startGood_one hv), rfl, rfl⟩,
    fun s hv => congrArg done (State.startGood_other hv),
    fun s _ => exec_powerOnReset s,
    fun s _ => exec_warmReset s,
    fun s hs => execStartWatchdog_started hs,
    fun s hs => execStartWatchdog_restarts hs,
    fun s hfsc => execBootStart_eq.trans (by simp only [if_pos hfsc]),
    fun s hfsc => execBootStart_eq.trans (by simp only [if_neg (Nat.not_le.2 hfsc)]),
    fun s hmin => execRecoveryImageMessage_none hmin,
    fun s p hmin hrom hring =>
      ⟨_, rfl, fun img himg => ⟨_, execRecoveryImageMessage_taken hmin hrom rfl hring rfl himg⟩⟩,
    fun s => ⟨_, exec_hostRingHeadWrite s, rfl⟩,
    fun s _ => exec_hostRingTailWrite s,
    fun v s ⟨hbar, hoff, hns⟩ => execStagingRegionWrite_byte hbar hoff hns,
    fun s _ => execAttestationSign_eq⟩

end Sys2Proof.Proofs
end

section
/-! PROOF. The capability map: the mask that a row word is, the count in a summary word, and the control words that show both
(R17, R18, R20). -/

namespace Sys2Proof.Machine

/-! ### Lists of numbers and masks -/

theorem upFrom_eq_range' (lo n : Nat) : upFrom lo n = List.range' lo n := by
  induction n generalizing lo with
  | zero => rfl
  | succ n ih => rw [upFrom, ih, List.range'_succ]

theorem upFrom_zero_eq_range (n : Nat) : upFrom 0 n = List.range n := by
  rw [upFrom_eq_range', List.range_eq_range']

/-- Bit k of a p register result is the low bit of element k, and zero above the elements (R295, R311). -/
theorem bit_bitsOf (l : List Nat) (k : Nat) : bit (bitsOf l) k = ((l[k]?.getD 0) % 2 == 1) := by
  induction l generalizing k with
  | nil => simp [bitsOf, bit]
  | cons b bs ih =>
    cases k with
    | zero => simp [bitsOf, bit]
    | succ k =>
      have hshift : bit (bitsOf (b :: bs)) (k + 1) = bit (bitsOf bs) k := by
        have hhalf : (b % 2 + 2 * bitsOf bs) / 2 = bitsOf bs := by omega
        rw [bit, bit, bitsOf, Nat.pow_succ', ← Nat.div_div_eq_div_mul, hhalf]
      rw [hshift, ih, List.getElem?_cons_succ]

theorem bit_maskOf {n k : Nat} (hk : k < n) (q : Nat → Bool) : bit (maskOf n q) k = q k := by
  rw [maskOf, bit_bitsOf, upFrom_zero_eq_range, List.getElem?_map, List.getElem?_range hk]
  cases h : q k <;> simp [h]

/-- What holds of numbers below m rows of n may be counted row by row. -/
theorem length_filter_range_mul (n m : Nat) (q : Nat → Bool) :
    ((List.range (n * m)).filter q).length =
      ((List.range m).map fun r => ((List.range n).filter fun x => q (n * r + x)).length).sum := by
  induction m with
  | zero => rfl
  | succ m ih =>
    rw [Nat.mul_succ, List.range_add, List.filter_append, List.length_append, ih, List.filter_map, List.length_map,
      List.range_succ, List.map_append, List.sum_append]
    simp [Function.comp_def]

/-! ### Enabled clusters -/

section
variable (p : Nat)

/-- NCL of R20: how many clusters of a pylon are enabled. -/
def enabledCount : Nat := ((List.range 512).filter fun k => enabled p (k / 16) (k % 16)).length

theorem enabledCount_le : enabledCount p ≤ 512 := by
  simpa [enabledCount] using List.length_filter_le (fun k => enabled p (k / 16) (k % 16)) (List.range 512)

theorem disabled_length_le : (disabled p).length ≤ 16 := List.length_take_le 16 _

theorem enabled_eq_false_iff {k : Nat} : enabled p (k / 16) (k % 16) = false ↔ k ∈ disabled p := by
  rw [enabled, Nat.div_add_mod]
  simp

/-- The clusters that are not enabled are different members of a list of 16 at most, so 496 of 512 are left (R18). -/
theorem le_enabledCount : 496 ≤ enabledCount p := by
  have hsplit := List.length_eq_countP_add_countP (fun k => enabled p (k / 16) (k % 16)) (l := List.range 512)
  have hsub : (List.range 512).filter (fun k => decide ¬enabled p (k / 16) (k % 16) = true) ⊆ disabled p := fun k hk =>
    (enabled_eq_false_iff p).1 (Bool.eq_false_iff.2 (of_decide_eq_true (List.mem_filter.1 hk).2))
  have hfew := List.Nodup.length_le_of_subset (List.nodup_range.sublist List.filter_sublist) hsub
  have hmost := disabled_length_le p
  rw [List.length_range, List.countP_eq_length_filter, List.countP_eq_length_filter] at hsplit
  unfold enabledCount
  omega

/-! ### The words of the capability map -/

/-- The stack bits lie above NCL, which has room for the whole count (R20). -/
theorem bits_capSummary : bits (capSummary p) 9 0 = enabledCount p := by
  have hle := enabledCount_le p
  rw [bits, capSummary, upFrom_zero_eq_range, ← enabledCount]
  omega

theorem bit_capRow (cy : Nat) {cx : Nat} (hcx : cx < 16) : bit (capRow p cy) cx = enabled p cy cx := bit_maskOf hcx _

/-- NCL counts the 1 bits of the pylon's 32 CLEN fields (R20). -/
theorem enabledCount_eq_sum_capRow :
    enabledCount p = ((List.range 32).map fun cy => ((List.range 16).filter (bit (capRow p cy) ·)).length).sum := by
  rw [enabledCount, length_filter_range_mul 16 32]
  refine congrArg List.sum (List.map_congr_left fun cy _ => congrArg List.length (List.filter_congr fun cx hcx => ?_))
  have hcx : cx < 16 := List.mem_range.1 hcx
  rw [bit_capRow p cy hcx, Nat.mul_add_div (by decide), Nat.div_eq_of_lt hcx, Nat.mul_add_mod, Nat.mod_eq_of_lt hcx, Nat.add_zero]

end

section
variable {p : Nat} (s : State)

theorem State.ctlRead_capRow {cy : Nat} (hp : p < 8) (hcy : cy < 32) : s.ctlRead (65536 + 256 * p + 8 * cy) = capRow p cy := by
  have hpylon : (65536 + 256 * p + 8 * cy - 65536) / 256 = p := by omega
  have hrow : (65536 + 256 * p + 8 * cy) % 256 / 8 = cy := by omega
  rw [State.ctlRead, if_pos (by omega), hpylon, hrow]

theorem State.ctlRead_capSummary (hp : p < 8) : s.ctlRead (67584 + 8 * p) = capSummary p := by
  have hpylon : (67584 + 8 * p - 67584) / 8 = p := by omega
  rw [State.ctlRead, if_neg (by omega), if_pos (by omega), hpylon]

end

end Sys2Proof.Machine

namespace Sys2Proof.Proofs
open Sys2Proof.Machine Sys2Proof.Claims

/-- Settles O38: at most 16 clusters of a pylon are fused off, a row word is the mask of its row's enabled clusters, and the summary
word's count is taken row by row. -/
theorem capabilityMap : Obligations.CapabilityMap := by
  unfold Obligations.CapabilityMap
  intro p
  rw [bits_capSummary]
  exact ⟨fun cy cx hcx => bit_capRow p cy hcx, le_enabledCount p, enabledCount_le p, enabledCount_eq_sum_capRow p,
    fun s hp cy hcy => ⟨s.ctlRead_capRow hp hcy, s.ctlRead_capSummary hp⟩⟩

end Sys2Proof.Proofs
end

section
/-! PROOF. Codes of the binary formats: a code is a sign and a magnitude, and the value that it stands for lies on the grid to which
`roundBin` rounds, so that it rounds to itself (R31, R33, R34). -/

namespace Sys2Proof.Machine

/-! ### Codes of p significand and eb exponent bits -/

/-- The sign bit and the bits below it. -/
theorem signBit_add_mod {code k : Nat} (hcode : code < 2 ^ (k + 1)) : signBit (bit code k) k + code % 2 ^ k = code := by
  have htop : code / 2 ^ k < 2 := Nat.div_lt_of_lt_mul (by rwa [← Nat.pow_succ])
  have hsplit := Nat.div_add_mod code (2 ^ k)
  rw [← Nat.mod_eq_of_lt htop] at hsplit
  obtain hclear | hset := Nat.mod_two_eq_zero_or_one (code / 2 ^ k)
  · simpa [signBit, bit, hclear] using hsplit
  · simpa [signBit, bit, hset] using hsplit

/-- The bits below the sign are the exponent field over the fraction field. -/
theorem mod_pow_eq_fields (code f eb : Nat) : code % 2 ^ (f + eb) = code / 2 ^ f % 2 ^ eb * 2 ^ f + code % 2 ^ f := by
  rw [Nat.pow_add, Nat.mod_mul, Nat.add_comm, Nat.mul_comm]

/-- A code is its sign, its exponent field and its fraction field (R31). -/
theorem signBit_add_fields {p eb code : Nat} (hp : 0 < p) (hcode : code < 2 ^ (p + eb)) :
    signBit (bit code (p + eb - 1)) (p + eb - 1) + (code / 2 ^ (p - 1) % 2 ^ eb * 2 ^ (p - 1) + code % 2 ^ (p - 1)) = code := by
  have hwidth : p + eb - 1 + 1 = p + eb := by omega
  have hbelow : p + eb - 1 = p - 1 + eb := by omega
  rw [← mod_pow_eq_fields, ← hbelow]
  exact signBit_add_mod (by rwa [hwidth])

/-- The exponent of the last place of the subnormal values, the finest that `roundBin` rounds to (R31). -/
def ulpMin (p eb : Nat) : Int := 2 - (2 ^ (eb - 1) - 1) - p

section
variable {p eb : Nat}

theorem topField_pos (heb : 0 < eb) : 0 < 2 ^ eb - 1 := Nat.sub_pos_of_lt (Nat.one_lt_two_pow (Nat.ne_of_gt heb))

/-! ### Rounding a value that the format holds -/

section
variable (r : Rm) (n : Bool)

theorem roundAt_self (m : Nat) (e : Int) : roundAt r n m e e = (m, false) := by
  simp [roundAt, unitsAt]

theorem roundBin_inf : roundBin p eb r (.inf n) = (signBit n (p + eb - 1) + (2 ^ eb - 1) * 2 ^ (p - 1), 0) := rfl

theorem roundBin_zero (e : Int) : roundBin p eb r (.fin n 0 e) = (signBit n (p + eb - 1), 0) := rfl

/-- A value whose exponent is that of its own last place, below the infinity, is rounded without an error. -/
theorem roundBin_fin_of_ulp {m : Nat} {e : Int} (hm : m ≠ 0)
    (hulp : max ((Nat.log2 m : Int) + e - p + 1) (ulpMin p eb) = e)
    (hfit : (e - ulpMin p eb).toNat * 2 ^ (p - 1) + m < (2 ^ eb - 1) * 2 ^ (p - 1)) :
    roundBin p eb r (.fin n m e) = (signBit n (p + eb - 1) + ((e - ulpMin p eb).toNat * 2 ^ (p - 1) + m), 0) := by
  unfold ulpMin at hulp hfit ⊢
  simp only [roundBin, if_neg hm, hulp, roundAt_self, ge_iff_le, if_neg (Nat.not_le.2 hfit)]
  rfl

theorem roundBin_subnormal {m : Nat} (hp : 0 < p) (heb : 0 < eb) (hm : m < 2 ^ (p - 1)) :
    roundBin p eb r (.fin n m (ulpMin p eb)) = (signBit n (p + eb - 1) + m, 0) := by
  obtain rfl | hpos := Decidable.em (m = 0)
  · exact roundBin_zero r n _
  have hlog : m.log2 < p - 1 := (Nat.log2_lt hpos).2 hm
  have hplace : (ulpMin p eb - ulpMin p eb).toNat * 2 ^ (p - 1) + m = m := by simp
  have hround := roundBin_fin_of_ulp (p := p) (eb := eb) (e := ulpMin p eb) r n hpos (by omega)
    (by rw [hplace]; exact Nat.lt_of_lt_of_le hm (Nat.le_mul_of_pos_left _ (topField_pos heb)))
  rwa [hplace] at hround

theorem log2_hidden_bit {f m : Nat} (hm : m < 2 ^ f) : (2 ^ f + m).log2 = f :=
  (Nat.log2_eq_iff (by omega)).2 ⟨Nat.le_add_right .., by rw [Nat.pow_succ]; omega⟩

theorem roundBin_normal {e m : Nat} (hp : 0 < p) (he : e ≠ 0) (hinf : e < 2 ^ eb - 1) (hm : m < 2 ^ (p - 1)) :
    roundBin p eb r (.fin n (2 ^ (p - 1) + m) (ulpMin p eb + e - 1)) = (signBit n (p + eb - 1) + (e * 2 ^ (p - 1) + m), 0) := by
  have hlog := log2_hidden_bit hm
  have hplace : (ulpMin p eb + e - 1 - ulpMin p eb).toNat * 2 ^ (p - 1) + (2 ^ (p - 1) + m) = e * 2 ^ (p - 1) + m := by
    obtain ⟨k, rfl⟩ := Nat.exists_eq_succ_of_ne_zero he
    have hk : (ulpMin p eb + (k.succ : Nat) - 1 - ulpMin p eb).toNat = k := by omega
    rw [hk, Nat.succ_mul, Nat.add_assoc]
  have hfit : e * 2 ^ (p - 1) + m < (2 ^ eb - 1) * 2 ^ (p - 1) :=
    calc e * 2 ^ (p - 1) + m < (e + 1) * 2 ^ (p - 1) := by rw [Nat.succ_mul]; omega
      _ ≤ (2 ^ eb - 1) * 2 ^ (p - 1) := Nat.mul_le_mul_right _ hinf
  have hround := roundBin_fin_of_ulp (p := p) (eb := eb) (m := 2 ^ (p - 1) + m) (e := ulpMin p eb + e - 1) r n
    (by omega) (by rw [hlog]; omega) (by rwa [hplace])
  rwa [hplace] at hround

end

/-! ### Decoding, then rounding -/

/-- The value of a code by its exponent field (R31). -/
theorem decodeBin_inf {code : Nat} (hinf : code / 2 ^ (p - 1) % 2 ^ eb = 2 ^ eb - 1) (hm : code % 2 ^ (p - 1) = 0) :
    decodeBin p eb code = .inf (bit code (p + eb - 1)) := by
  simp only [decodeBin, if_pos hinf, if_pos hm]

theorem isNan_decodeBin {code : Nat} (hinf : code / 2 ^ (p - 1) % 2 ^ eb = 2 ^ eb - 1) (hm : code % 2 ^ (p - 1) ≠ 0) :
    (decodeBin p eb code).isNan = true := by
  simp only [decodeBin, if_pos hinf, if_neg hm, Val.isNan]

theorem decodeBin_subnormal {code : Nat} (heb : 0 < eb) (he : code / 2 ^ (p - 1) % 2 ^ eb = 0) :
    decodeBin p eb code = .fin (bit code (p + eb - 1)) (code % 2 ^ (p - 1)) (ulpMin p eb) := by
  simp only [decodeBin, he, if_neg (Nat.ne_of_lt (topField_pos heb)), if_true, ulpMin]

theorem decodeBin_normal {code : Nat} (he : code / 2 ^ (p - 1) % 2 ^ eb ≠ 0) (hfin : code / 2 ^ (p - 1) % 2 ^ eb ≠ 2 ^ eb - 1) :
    decodeBin p eb code = .fin (bit code (p + eb - 1)) (2 ^ (p - 1) + code % 2 ^ (p - 1))
      (ulpMin p eb + (code / 2 ^ (p - 1) % 2 ^ eb : Nat) - 1) := by
  simp only [decodeBin, if_neg he, if_neg hfin, ulpMin]
  congr 1
  omega

/-- The round trip, by the exponent field of the code. -/
theorem roundBin_decodeBin (r : Rm) {code : Nat} (hp : 0 < p) (heb : 0 < eb) (hcode : code < 2 ^ (p + eb))
    (hnan : (decodeBin p eb code).isNan = false) : roundBin p eb r (decodeBin p eb code) = (code, 0) := by
  have hfields := signBit_add_fields hp hcode
  have hm : code % 2 ^ (p - 1) < 2 ^ (p - 1) := Nat.mod_lt _ (Nat.two_pow_pos _)
  have he : code / 2 ^ (p - 1) % 2 ^ eb < 2 ^ eb := Nat.mod_lt _ (Nat.two_pow_pos _)
  by_cases hinf : code / 2 ^ (p - 1) % 2 ^ eb = 2 ^ eb - 1
  · have hm0 : code % 2 ^ (p - 1) = 0 := Decidable.byContradiction fun hne => by
      rw [isNan_decodeBin hinf hne] at hnan
      exact Bool.noConfusion hnan
    rw [hinf, hm0, Nat.add_zero] at hfields
    rw [decodeBin_inf hinf hm0, roundBin_inf, hfields]
  by_cases hsub : code / 2 ^ (p - 1) % 2 ^ eb = 0
  · rw [hsub, Nat.zero_mul, Nat.zero_add] at hfields
    rw [decodeBin_subnormal heb hsub, roundBin_subnormal r _ hp heb hm, hfields]
  · rw [decodeBin_normal hsub hinf, roundBin_normal r _ hp hsub (by omega) hm, hfields]

end

end Sys2Proof.Machine

namespace Sys2Proof.Proofs
open Sys2Proof.Machine

/-- Settles O13: each of the four formats has an exponent and a significand, and `roundBin_decodeBin` holds of every such format. -/
theorem binaryRoundTrip : Obligations.BinaryRoundTrip := by
  unfold Obligations.BinaryRoundTrip
  intro e hformat r code hcode hnan
  have hbits : ∀ e ∈ ([(24, 8), (53, 11), (8, 8), (11, 5)] : List (Nat × Nat)), 0 < e.1 ∧ 0 < e.2 := by decide
  obtain ⟨hp, heb⟩ := hbits e hformat
  exact roundBin_decodeBin r hp heb hcode hnan

end Sys2Proof.Proofs
end

section
/-! PROOF. The register window: which of its bytes a register is, and that a write of a register leaves every register beside those
bytes (R79 to R81, R295, R296, R327). -/

namespace Sys2Proof.Machine

/-- One state leaves of another all memory but some ranges of a context's window, given by offset and length, and every core. -/
def State.LeavesBeside (s t : State) (c : CtxId) (bs : List (Nat × Nat)) : Prop :=
  t.cores = s.cores ∧ ∀ k, (∀ b ∈ bs, k < s.win c + b.1 ∨ s.win c + b.1 + b.2 ≤ k) → Mem.get t.mem k = Mem.get s.mem k

/-- Where a window lies is the core's matter (R79, R85). -/
theorem State.win_congr {s t : State} (h : t.cores = s.cores) (c : CtxId) : t.win c = s.win c := by
  simp only [State.win, State.ownBase, State.core, h]

/-! ### What lies beside the ranges -/

section
variable {s t : State} {c : CtxId} {bs : List (Nat × Nat)} (h : s.LeavesBeside t c bs)
include h

theorem State.LeavesBeside.read {o n : Nat} (hbeside : ∀ b ∈ bs, o + n ≤ b.1 ∨ b.1 + b.2 ≤ o) :
    Mem.read t.mem (t.win c + o) n = Mem.read s.mem (s.win c + o) n := by
  obtain ⟨hcores, hmem⟩ := h
  rw [State.win_congr hcores]
  refine Mem.read_congr n _ fun i hi => hmem _ fun b hb => ?_
  have := hbeside b hb
  omega

theorem State.LeavesBeside.rx {k : Nat} (hbeside : ∀ b ∈ bs, 8 * k + 8 ≤ b.1 ∨ b.1 + b.2 ≤ 8 * k) : t.rx c k = s.rx c k := by
  simp only [State.rx, h.read hbeside]

theorem State.LeavesBeside.rv {k : Nat} (hbeside : ∀ b ∈ bs, 2048 + 128 * k + 128 ≤ b.1 ∨ b.1 + b.2 ≤ 2048 + 128 * k) :
    t.rv c k = s.rv c k := by
  simpa only [State.rv, Nat.add_assoc] using h.read hbeside

theorem State.LeavesBeside.vtag {k : Nat} (hbeside : ∀ b ∈ bs, 672 + 2 * k + 2 ≤ b.1 ∨ b.1 + b.2 ≤ 672 + 2 * k) :
    t.vtag c k = s.vtag c k := by
  simpa only [State.vtag, Nat.add_assoc] using h.read hbeside

theorem State.LeavesBeside.ri {k : Nat} (hbeside : ∀ b ∈ bs, 6144 + 128 * k + 128 ≤ b.1 ∨ b.1 + b.2 ≤ 6144 + 128 * k) :
    t.ri c k = s.ri c k := by
  simpa only [State.ri, Nat.add_assoc] using h.read hbeside

theorem State.LeavesBeside.itag {k : Nat} (hbeside : ∀ b ∈ bs, 736 + 2 * k + 2 ≤ b.1 ∨ b.1 + b.2 ≤ 736 + 2 * k) :
    t.itag c k = s.itag c k := by
  simpa only [State.itag, Nat.add_assoc] using h.read hbeside

theorem State.LeavesBeside.rp {k : Nat} (hbeside : ∀ b ∈ bs, 256 + 16 * k + 16 ≤ b.1 ∨ b.1 + b.2 ≤ 256 + 16 * k) :
    t.rp c k = s.rp c k := by
  have hbytes := h.read hbeside
  simp only [← Nat.add_assoc] at hbytes
  simp only [State.rp, hbytes]

theorem State.LeavesBeside.rq {k : Nat} (hbeside : ∀ b ∈ bs, 384 + 4 * k + 4 ≤ b.1 ∨ b.1 + b.2 ≤ 384 + 4 * k) :
    t.rq c k = s.rq c k := by
  simpa only [State.rq, Nat.add_assoc] using h.read hbeside

theorem State.LeavesBeside.rh {k : Nat} (hbeside : ∀ b ∈ bs, 1024 + 64 * k + 64 ≤ b.1 ∨ b.1 + b.2 ≤ 1024 + 64 * k) :
    t.rh c k = s.rh c k := by
  simpa only [State.rh, Nat.add_assoc] using h.read hbeside

theorem State.LeavesBeside.rs {k j : Nat} (hbeside : ∀ b ∈ bs, 416 + 32 * k + 8 * j + 8 ≤ b.1 ∨ b.1 + b.2 ≤ 416 + 32 * k + 8 * j) :
    t.rs c k j = s.rs c k j := by
  simpa only [State.rs, Nat.add_assoc] using h.read hbeside

end

/-! ### Writes of registers -/

section
variable {s : State} (hwf : Mem.wf s.mem = true) (c : CtxId) (r v tag : Nat)
include hwf

theorem State.wx_leavesBeside : s.LeavesBeside (s.wx c r v) c (regBytes 1 r) := by
  refine ⟨State.wx_cores .., fun k hk => ?_⟩
  have hout := hk _ (List.mem_singleton_self _)
  unfold State.wx
  split
  · rfl
  · exact Mem.get_write_other _ _ _ _ hwf hout

theorem State.wv_leavesBeside : s.LeavesBeside (s.wv c r v tag) c (regBytes 2 r) := by
  refine ⟨State.wv_cores .., fun k hk => ?_⟩
  have hval := hk (2048 + 128 * r, 128) (by simp [regBytes])
  have htag := hk (672 + 2 * r, 2) (by simp [regBytes])
  simp only [State.wv]
  rw [Mem.get_write_other _ _ _ _ (Mem.wf_write _ _ _ hwf) (by omega), Mem.get_write_other _ _ _ _ hwf (by omega)]

theorem State.wi_leavesBeside : s.LeavesBeside (s.wi c r v tag) c (regBytes 3 r) := by
  refine ⟨State.wi_cores .., fun k hk => ?_⟩
  have hval := hk (6144 + 128 * r, 128) (by simp [regBytes])
  have htag := hk (736 + 2 * r, 2) (by simp [regBytes])
  simp only [State.wi]
  rw [Mem.get_write_other _ _ _ _ (Mem.wf_write _ _ _ hwf) (by omega), Mem.get_write_other _ _ _ _ hwf (by omega)]

/-! ### What was last written is read -/

theorem State.rx_wx_same (hr : r ≠ 0) : (s.wx c r v).rx c r = v % 18446744073709551616 := by
  simp only [State.rx, State.win_congr (State.wx_cores ..), if_neg hr]
  simp only [State.wx, if_neg hr]
  exact Mem.read_write _ _ _ hwf

theorem State.rp_wp_same (hr : r ≠ 0) : (s.wp c r v).rp c r = v % 256 ^ 16 := by
  simp only [State.rp, State.win_congr (State.wp_cores ..), if_neg hr]
  simp only [State.wp, if_neg hr]
  exact Mem.read_write _ _ _ hwf

theorem State.rq_wq_same : (s.wq c r v).rq c r = v % 4294967296 := by
  simp only [State.rq, State.win_congr (State.wq_cores ..)]
  simp only [State.wq]
  exact Mem.read_write _ _ _ hwf

theorem State.rh_wh_same : (s.wh c r v).rh c r = v % 256 ^ 64 := by
  simp only [State.rh, State.win_congr (State.wh_cores ..)]
  simp only [State.wh]
  exact Mem.read_write _ _ _ hwf

theorem State.rs_ws_same (j : Nat) : (s.ws c r j v).rs c r j = v % 18446744073709551616 := by
  simp only [State.rs, State.win_congr (State.ws_cores ..)]
  simp only [State.ws]
  exact Mem.read_write _ _ _ hwf

theorem State.vtag_wv_same : (s.wv c r v tag).vtag c r = tag % 65536 := by
  simp only [State.vtag, State.win_congr (State.wv_cores ..)]
  simp only [State.wv]
  exact Mem.read_write _ _ _ (Mem.wf_write _ _ _ hwf)

theorem State.itag_wi_same : (s.wi c r v tag).itag c r = tag % 65536 := by
  simp only [State.itag, State.win_congr (State.wi_cores ..)]
  simp only [State.wi]
  exact Mem.read_write _ _ _ (Mem.wf_write _ _ _ hwf)

/-- The tags lie below the vector registers. -/
theorem State.rv_wv_same (hr : r < 32) : (s.wv c r v tag).rv c r = v % 256 ^ 128 := by
  simp only [State.rv, State.win_congr (State.wv_cores ..)]
  simp only [State.wv]
  rw [Mem.read_write_other (Mem.wf_write _ _ _ hwf) (by omega), Mem.read_write _ _ _ hwf]

/-- The tags lie below the interval registers. -/
theorem State.ri_wi_same (hr : r < 16) : (s.wi c r v tag).ri c r = v % 256 ^ 128 := by
  simp only [State.ri, State.win_congr (State.wi_cores ..)]
  simp only [State.wi]
  rw [Mem.read_write_other (Mem.wf_write _ _ _ hwf) (by omega), Mem.read_write _ _ _ hwf]

end

end Sys2Proof.Machine

namespace Sys2Proof.Proofs
open Sys2Proof.Machine

/-- Settles O40: a write of a register leaves what lies beside the register's bytes in the window, where every other register lies. -/
theorem registerFile : Obligations.RegisterFile := by
  unfold Obligations.RegisterFile
  intro s c r v tag hwf hr w
  have hx := State.wx_leavesBeside hwf c r v
  have hv := State.wv_leavesBeside hwf c r v tag
  have hi := State.wi_leavesBeside hwf c r v tag
  refine ⟨State.rx_wx_same hwf c r v, rfl, rfl, fun k hk hne => hx.rx ?_, fun k hk => ⟨hx.rv ?_, hx.vtag ?_⟩,
    fun k hk => ⟨hx.ri ?_, hx.itag ?_⟩, fun k hk => ⟨hx.rp ?_, hx.rq ?_, hx.rh ?_, fun j hj => hx.rs ?_⟩,
    fun k hk => hx.2 k ?_, State.rv_wv_same hwf c r v tag hr, State.vtag_wv_same hwf c r v tag,
    fun k hk hne => ⟨hv.rv ?_, hv.vtag ?_⟩, fun k hk => hv.rx ?_,
    fun hr => ⟨State.ri_wi_same hwf c r v tag hr, State.itag_wi_same hwf c r v tag, fun k hk => ⟨hi.rx ?_, hi.rv ?_⟩⟩,
    fun hr => ⟨State.rp_wp_same hwf c r v, rfl, rfl, State.rq_wq_same hwf c r v, State.rh_wh_same hwf c r v,
      fun j hj => State.rs_ws_same hwf c r v j⟩⟩ <;>
    simp only [regBytes, List.forall_mem_cons, List.not_mem_nil, false_imp_iff, implies_true, and_true] <;> omega

end Sys2Proof.Proofs
end

section
/-! PROOF. Writes of memory: which bytes a masked write gives, and that a write by any agent leaves the rest of memory, the cores and the
homes (R80, R153, R165). -/

namespace Sys2Proof.Machine

/-! ### Masked writes -/

/-- A byte that no set bit of the mask names is left. -/
theorem Mem.get_writeMask_of_not_written : ∀ (n k v mask j : Nat) {m : List Host.Cell}, Mem.wf m = true →
    (∀ i < n, j = k + i → bit mask i = false) → Mem.get (Mem.writeMask m k n v mask) j = Mem.get m j
  | 0, _, _, _, _, _, _, _ => rfl
  | n + 1, k, v, mask, j, m, hwf, hj => by
    have hrest : ∀ i < n, j = k + 1 + i → bit (mask / 2) i = false := fun i hi hji => by
      have hnext := hj (i + 1) (by omega) (by omega)
      rwa [bit, Nat.pow_succ', ← Nat.div_div_eq_div_mul] at hnext
    unfold Mem.writeMask
    split
    · next hodd =>
      have hne : j ≠ k := fun hjk => by
        have hfirst := hj 0 (by omega) hjk
        simp [bit, hodd] at hfirst
      rw [Mem.get_writeMask_of_not_written n _ _ _ j (Mem.wf_set k _ hwf) hrest, Mem.get_set k j _ hwf, if_neg hne]
    · exact Mem.get_writeMask_of_not_written n _ _ _ j hwf hrest

theorem Mem.writeMask_zero : ∀ (n k v : Nat) (m : List Host.Cell), Mem.writeMask m k n v 0 = m
  | 0, _, _, _ => rfl
  | n + 1, k, v, m => by
    rw [Mem.writeMask, if_neg (by decide), Nat.zero_div, Mem.writeMask_zero n]

/-- With every bit of the mask set it is the plain write. -/
theorem Mem.writeMask_ones : ∀ (n k v : Nat) (m : List Host.Cell), Mem.writeMask m k n v (2 ^ n - 1) = Mem.write m k n v
  | 0, _, _, _ => rfl
  | n + 1, k, v, m => by
    have hpos := Nat.two_pow_pos n
    have hodd : (2 ^ (n + 1) - 1) % 2 = 1 := by omega
    have hhalf : (2 ^ (n + 1) - 1) / 2 = 2 ^ n - 1 := by omega
    rw [Mem.writeMask, if_pos hodd, hhalf, Mem.writeMask_ones n, Mem.write]

/-- The mask that the doubleword of x0 leaves of a write clears no more than its eight low bits (R80). -/
theorem bit_div_mul_256 (mask : Nat) {j : Nat} (hj : bit mask j = false) : bit (mask / 256 * 256) j = false := by
  have hbytes : mask / 256 * 256 = mask / 2 ^ 8 * 2 ^ 8 := rfl
  rw [bit_eq_testBit] at hj ⊢
  rw [hbytes, Nat.testBit_mul_two_pow, Nat.testBit_div_two_pow]
  by_cases h8 : 8 ≤ j
  · simp [h8, hj]
  · simp [h8]

/-! ### What a write leaves -/

/-- A table whose entries are changed one by one. -/
theorem Tab.get_map {κ α : Type} [DecidableEq κ] {f : κ × α → κ × α} (hf : ∀ e, (f e).1 = e.1) (k : κ) (d : α) :
    ∀ t : Tab κ α, Tab.get (t.map f) k d = if t.any (·.1 == k) = true then (f (k, Tab.get t k d)).2 else d
  | [] => rfl
  | (k', v) :: t => by
    have hkey : (f (k', v)).1 = k' := hf (k', v)
    rw [List.map_cons, List.any_cons, Tab.get, hkey, Tab.get]
    by_cases hk : k = k'
    · subst hk
      rw [if_pos rfl, if_pos rfl, beq_self_eq_true, Bool.true_or, if_pos rfl]
    · rw [if_neg hk, if_neg hk, beq_false_of_ne (Ne.symm hk), Bool.false_or, Tab.get_map hf k d t]

theorem Tab.get_of_not_any {κ α : Type} [DecidableEq κ] {k : κ} (d : α) :
    ∀ {t : Tab κ α}, t.any (·.1 == k) = false → Tab.get t k d = d
  | [], _ => rfl
  | (k', v) :: t, h => by
    simp only [List.any_cons, Bool.or_eq_false_iff, beq_eq_false_iff_ne] at h
    rw [Tab.get, if_neg h.1.symm, Tab.get_of_not_any d h.2]

/-- A part of the values that no entry's change touches. -/
theorem Tab.get_map_part {κ α β : Type} [DecidableEq κ] {p : α → β} {f : κ × α → κ × α} (hf : ∀ e, (f e).1 = e.1)
    (hp : ∀ e, p (f e).2 = p e.2) (k : κ) (d : α) (t : Tab κ α) : p (Tab.get (t.map f) k d) = p (Tab.get t k d) := by
  rw [Tab.get_map hf]
  cases h : t.any (·.1 == k) with
  | true => rw [if_pos rfl, hp]
  | false => rw [if_neg Bool.false_ne_true, Tab.get_of_not_any d h]

/-! ### The cores, and what has gathered at the barriers -/

/-- What a release takes from a barrier: the contexts and the cores that have come, and their contributions. -/
def Barrier.gathered (b : Barrier) : List (CtxId × List Nat) × List Contrib × List (CoreId × Nat) := (b.ctxs, b.contribs, b.cores)
/-- The same for each domain of a launch. -/
def Launch.gathered (l : Launch) (dom : Nat) : List (CtxId × List Nat) × List Contrib × List (CoreId × Nat) :=
  (Tab.get l.barriers dom {}).gathered
/-- The cores, and what has gathered at the barriers of each launch. -/
def State.standing (s : State) : Tab CoreId Core × (Nat → Option (Nat → List (CtxId × List Nat) × List Contrib × List (CoreId × Nat))) :=
  (s.cores, fun lid => (s.launch lid).map Launch.gathered)

/-- What no part of a fold touches stands after it. -/
theorem foldl_keeps {σ α β : Type} {p : σ → β} {f : σ → α → σ} (hf : ∀ t e, p (f t e) = p t) (l : List α) (s : σ) :
    p (l.foldl f s) = p s := by
  induction l generalizing s with
  | nil => rfl
  | cons e l ih => rw [List.foldl_cons, ih, hf]

/-- A barrier replaced by one at which the same has gathered. -/
theorem Launch.gathered_set {l : Launch} {dom : Nat} {b : Barrier} (hb : b.gathered = l.gathered dom) :
    ({ l with barriers := Tab.set l.barriers dom b } : Launch).gathered = l.gathered := by
  funext d
  by_cases hd : d = dom
  · subst hd
    simp only [Launch.gathered, Tab.get_set_self] at hb ⊢
    exact hb
  · simp only [Launch.gathered, Tab.get_set_other hd]

section
variable {s : State}

/-- A launch replaced is found under its number, if one was found there. -/
theorem State.launch_setLaunch (l : Launch) (lid : Nat) :
    (s.setLaunch l).launch lid = (s.launch lid).map fun m => if m.id = l.id then l else m := by
  simp only [State.launch, State.setLaunch, List.find?_map]
  congr 2
  funext m
  by_cases hm : m.id = l.id <;> simp [hm]

theorem State.launch_id {lid : Nat} {m : Launch} (h : s.launch lid = some m) : m.id = lid := by
  have hfound := List.find?_some h
  simpa using hfound

theorem State.standing_congr {t : State} (hcores : t.cores = s.cores) (hlaunches : t.launches = s.launches) : t.standing = s.standing := by
  simp only [State.standing, State.launch, hcores, hlaunches]

theorem State.setLaunch_standing {l : Launch} (h : ∀ m, s.launch l.id = some m → l.gathered = m.gathered) :
    (s.setLaunch l).standing = s.standing := by
  simp only [State.standing, State.setLaunch_cores, State.launch_setLaunch, Option.map_map]
  congr 1
  funext lid
  cases hm : s.launch lid with
  | none => rfl
  | some m =>
    by_cases hid : m.id = l.id
    · rw [← State.launch_id hm, hid] at hm
      simp [hid, h m hm]
    · simp [hid]

/-- Setting a release going leaves what has gathered (R92). -/
theorem State.tryRelease_standing {l : Launch} (dom : Nat) (h : ∀ m, s.launch l.id = some m → l.gathered = m.gathered) :
    (s.tryRelease l dom).standing = s.standing := by
  have hset (b : Barrier) (hb : b.gathered = l.gathered dom) :
      (s.setLaunch { l with barriers := Tab.set l.barriers dom b }).standing = s.standing :=
    State.setLaunch_standing fun m hm => (Launch.gathered_set hb).trans (h m hm)
  unfold State.tryRelease
  dsimp only
  split
  · split
    · exact (State.standing_congr rfl rfl).trans (hset _ rfl)
    · exact (State.standing_congr rfl rfl).trans (hset _ rfl)
  · rfl

@[simp] theorem State.withMem_standing (m : List Host.Cell) : ({ s with mem := m } : State).standing = s.standing := rfl
@[simp] theorem State.after_standing (n : Nat) (i : Instr) (a : Arg) : (s.after n i a).standing = s.standing := rfl
@[simp] theorem State.setHome_standing (n : Nat) (x : Home) : (s.setHome n x).standing = s.standing := rfl
@[simp] theorem State.setPylon_standing (n : Nat) (x : Pylon) : (s.setPylon n x).standing = s.standing := rfl
@[simp] theorem State.setCtx_standing (c : CtxId) (x : Ctx) : (s.setCtx c x).standing = s.standing := rfl

/-! ### What follows a write of memory -/

@[simp] theorem State.wrBytes_standing (k n v m : Nat) (w : Option CtxId) : (s.wrBytes k n v m w).standing = s.standing := by
  unfold State.wrBytes State.clearPoison
  dsimp only
  split <;> split <;> rfl

@[simp] theorem State.stampBlock_standing (p b : Nat) (m : Master) : (s.stampBlock p m b).standing = s.standing := by
  unfold State.stampBlock
  dsimp only
  split <;> rfl

@[simp] theorem State.stamp_standing (k n : Nat) : (s.stamp k n).standing = s.standing :=
  foldl_keeps (fun t e => by split <;> simp) _ _

/-- A counter's value judges the expectations of a barrier and leaves what has gathered at it (R358). -/
theorem Barrier.counter_gathered (b : Barrier) (pa val cyc : Nat) : (b.counter pa val cyc).gathered = b.gathered := rfl

/-- A launch as it stands, with one of its barriers replaced by one at which the same has gathered. -/
theorem State.setLaunch_tryRelease_standing {l : Launch} {dom : Nat} {b : Barrier} (hl : s.launch l.id = some l)
    (hb : b.gathered = l.gathered dom) :
    ((s.setLaunch { l with barriers := Tab.set l.barriers dom b }).tryRelease { l with barriers := Tab.set l.barriers dom b } dom).standing =
      s.standing := by
  rw [State.tryRelease_standing, State.setLaunch_standing]
  · intro m hm
    rw [Launch.gathered_set hb, Option.some.inj (hl.symm.trans hm)]
  · intro m hm
    rw [State.launch_setLaunch, hl] at hm
    simp only [Option.map_some, if_true, Option.some.injEq] at hm
    rw [hm]

/-- Reports and expectations leave it, where what follows a counter that went down does (R111, R358, R444). -/
theorem State.counterWriteBy_standing {regress : State → Reg → State} (hr : ∀ t r, (regress t r).standing = t.standing) (k n : Nat) :
    (s.counterWriteBy k n regress).standing = s.standing := by
  unfold State.counterWriteBy
  dsimp only
  split
  · rfl
  · rw [foldl_keeps (p := State.standing), State.setHome_standing, foldl_keeps hr]
    intro t r
    split
    · rfl
    · refine foldl_keeps (fun t l => foldl_keeps (fun t b => ?_) _ _) _ _
      split
      · rfl
      · next hl => exact State.setLaunch_tryRelease_standing (by rwa [State.launch_id hl]) rfl

theorem State.wrRecord_standing {regress : State → Reg → State} (hr : ∀ t r, (regress t r).standing = t.standing) (ws : List Nat)
    (s : State) (k : Nat) : (s.wrRecord k regress ws).standing = s.standing := by
  induction ws generalizing s k with
  | nil => rfl
  | cons w ws ih => simp [State.wrRecord, ih, State.counterWriteBy_standing hr]

theorem State.engineWalk_standing {asid va : Nat} {wr : Bool} {t : State} {e : Tlb} (h : s.engineWalk asid va wr = .ok (t, e)) :
    t.standing = s.standing := by
  unfold State.engineWalk at h
  split at h
  · cases h
  · cases h
  · cases h
    simp [State.setAD]

theorem State.ringWrite_standing {regress : State → Reg → State} (hr : ∀ t r, (regress t r).standing = t.standing) (block pyl : Nat)
    (ws : List Nat) : (s.ringWrite block pyl regress ws).standing = s.standing := by
  unfold State.ringWrite
  dsimp only
  rw [State.withMem_standing]
  split
  · rfl
  · split
    · rfl
    · next hwalk => rw [State.wrRecord_standing hr, State.engineWalk_standing hwalk]

theorem State.regressLog_standing {next : State → Reg → State} (hr : ∀ t r, (next t r).standing = t.standing) (s : State) (r : Reg) :
    (State.regressLog next s r).standing = s.standing := State.ringWrite_standing hr _ _ _
theorem State.regressed_standing (s : State) (r : Reg) : (s.regressed r).standing = s.standing :=
  State.regressLog_standing (State.regressLog_standing fun _ _ => rfl) s r

@[simp] theorem State.pendAsync_standing (c : CtxId) (w : Trap) : (s.pendAsync c w).standing = s.standing := by
  unfold State.pendAsync
  dsimp only
  generalize (if (s.ctx c).st = .free then (⟨c.core, 0⟩ : CtxId) else c) = c'
  split
  · exact State.ringWrite_standing (State.regressLog_standing fun _ _ => rfl) _ _ _
  · split <;> simp

@[simp] theorem State.wrMem_standing (k n v m : Nat) (w : Option CtxId) : (s.wrMem k n v m w).standing = s.standing := by
  have hcount (t : State) : (t.counterWrite k n w).standing = t.standing := by
    cases w with
    | none => exact State.counterWriteBy_standing State.regressed_standing k n
    | some c => exact State.counterWriteBy_standing (fun t r => State.pendAsync_standing ..) k n
  unfold State.wrMem State.wrPlain
  dsimp only
  split <;> simp [hcount]

/-! ### A write where no counter is registered -/

@[simp] theorem State.wrBytes_homes (k n v m : Nat) (w : Option CtxId) : (s.wrBytes k n v m w).homes = s.homes := by
  unfold State.wrBytes State.clearPoison
  dsimp only
  split <;> split <;> rfl

@[simp] theorem State.stampBlock_ctxs (p b : Nat) (m : Master) : (s.stampBlock p m b).ctxs = s.ctxs := by
  unfold State.stampBlock
  dsimp only
  split <;> simp
@[simp] theorem State.stamp_ctxs (k n : Nat) : (s.stamp k n).ctxs = s.ctxs :=
  foldl_keeps (fun t e => by split <;> simp) _ _

/-- A part of a context that a write of memory does not reach: watch entries and buffers are no part of it (R161, R181). -/
def Ctx.Unreached {α : Type} (p : Ctx → α) : Prop := ∀ x w0 w1 w2 w3 b g,
  p { x with watch0 := w0, watch1 := w1, watch2 := w2, watch3 := w3, publish := b, grant := g } = p x

theorem State.wrBytes_ctx_part {α : Type} {p : Ctx → α} (hp : Ctx.Unreached p) (k n v m : Nat) (w : Option CtxId) (c : CtxId) :
    p ((s.wrBytes k n v m w).ctx c) = p (s.ctx c) := by
  have hfire (t : State) (m : Nat) : p ((t.fireWatch k n m).ctx c) = p (t.ctx c) := by
    refine Tab.get_map_part (κ := CtxId) (fun e => ?_) (fun e => ?_) c _ t.ctxs
    · rfl
    · exact hp ..
  have hover (t : State) (m : Nat) : p ((t.overtake k n m w).ctx c) = p (t.ctx c) := by
    refine Tab.get_map_part (κ := CtxId) (fun e => ?_) (fun e => ?_) c _ t.ctxs <;> split
    · rfl
    · rfl
    · rfl
    · exact hp ..
  have hclear (t : State) (m : Nat) : (t.clearPoison k n m).ctx c = t.ctx c := by
    unfold State.clearPoison
    split <;> rfl
  unfold State.wrBytes
  dsimp only
  split
  · rw [hover, hfire, hclear]; rfl
  · rw [hfire, hclear]; rfl

theorem State.counterWriteBy_of_no_regs {k : Nat} (hregs : (s.home (homeOf k)).regs = []) (n : Nat) (regress : State → Reg → State) :
    s.counterWriteBy k n regress = s := by
  simp [State.counterWriteBy, hregs]

/-- With no registered counter at the location's home, a write is its bytes and the stamps of master blocks. -/
theorem State.wrMem_of_no_regs {k : Nat} (hregs : isDevice k = false ∨ (s.home (homeOf k)).regs = []) (n v m : Nat) (w : Option CtxId) :
    s.wrMem k n v m w = if isDevice k then (s.wrBytes k n v m w).stamp k n else s.wrBytes k n v m w := by
  unfold State.wrMem State.wrPlain State.counterWrite
  dsimp only
  obtain hdev | hregs := hregs
  · simp [hdev]
  · rw [State.counterWriteBy_of_no_regs]
    · simp
    · simpa only [State.home, State.wrBytes_homes] using hregs

theorem State.wrMem_mem_of_no_regs {k : Nat} (hregs : isDevice k = false ∨ (s.home (homeOf k)).regs = []) (n v m : Nat)
    (w : Option CtxId) :
    (s.wrMem k n v m w).mem = Mem.writeMask s.mem k n v (if s.hardZero k then m / 256 * 256 else m) := by
  rw [State.wrMem_of_no_regs hregs, ← State.wrBytes_mem k n v m w]
  split <;> simp

theorem State.wrMem_ctx_part_of_no_regs {α : Type} {p : Ctx → α} (hp : Ctx.Unreached p) {k : Nat}
    (hregs : isDevice k = false ∨ (s.home (homeOf k)).regs = []) (n v m : Nat) (w : Option CtxId) (c : CtxId) :
    p ((s.wrMem k n v m w).ctx c) = p (s.ctx c) := by
  rw [State.wrMem_of_no_regs hregs]
  refine Eq.trans ?_ (State.wrBytes_ctx_part hp k n v m w c)
  split
  · rw [State.ctx, State.stamp_ctxs]; rfl
  · rfl

/-- Which doublewords are hard zeros is the cores' matter (R80). -/
theorem State.hardZero_congr {t : State} (h : t.cores = s.cores) (k : Nat) : t.hardZero k = s.hardZero k := by
  have hcore : t.core = s.core := by simp only [funext_iff, State.core, h, implies_true]
  have hnwin : t.nwin = s.nwin := by simp only [funext_iff, State.nwin, hcore, implies_true]
  rw [State.hardZero, State.hardZero, hcore, hnwin]

theorem State.wrMem_hardZero (j k n v m : Nat) (w : Option CtxId) : (s.wrMem k n v m w).hardZero j = s.hardZero j :=
  State.hardZero_congr (congrArg Prod.fst (State.wrMem_standing ..)) j

end

end Sys2Proof.Machine

namespace Sys2Proof.Proofs
open Sys2Proof.Machine

/-- Settles O7: with no counter registered there, memory after a write is that of the masked write of its bytes. -/
theorem memoryWrites : Obligations.MemoryWrites := by
  unfold Obligations.MemoryWrites
  intro s key n v mask w hwf hregs t
  have hmem : t.mem = _ := State.wrMem_mem_of_no_regs hregs n v mask w
  have hzero : t.hardZero key = s.hardZero key := State.wrMem_hardZero ..
  refine ⟨fun a ha => ?_, fun j hj hbit => ?_, fun hsoft hmask => ?_, fun hhard hn => ⟨?_, fun hmask => ?_⟩, fun c => ?_⟩
  · rw [hmem]
    exact Mem.get_writeMask_of_not_written _ _ _ _ _ hwf fun i hi hai => by omega
  · rw [hmem]
    refine Mem.get_writeMask_of_not_written _ _ _ _ _ hwf fun i hi hji => ?_
    obtain rfl := Nat.add_left_cancel hji
    split
    · exact bit_div_mul_256 mask hbit
    · exact hbit
  · have hpow : 256 ^ n = 2 ^ (8 * n) := by rw [Nat.pow_mul]
    rw [State.rdMem, hzero, hsoft, if_neg Bool.false_ne_true, hmem, hsoft, if_neg Bool.false_ne_true, hmask, Mem.writeMask_ones,
      Mem.read_write _ _ _ hwf, hpow]
  · rw [State.rdMem, hzero, hhard, if_pos rfl, if_pos hn]
  · rw [hmem, hhard, if_pos rfl, Nat.div_eq_of_lt hmask, Nat.zero_mul, Mem.writeMask_zero]
  · have hpart := State.wrMem_ctx_part_of_no_regs (p := fun x => (x.pc, x.level, x.fcsr)) (fun _ _ _ _ _ _ _ => rfl) hregs n v mask w c
    simpa only [Prod.mk.injEq] using hpart

end Sys2Proof.Proofs
end

section
/-! PROOF. A fetch in minimal mode: a home of a pylon that is off gives no word (R158, R233). -/

namespace Sys2Proof.Machine

/-- The word that a home which is off should give is not fetched: its context tries again in the next cycle (R233). -/
theorem State.fetch_of_home_off {s : State} {c : CtxId} {pa : Nat} (halign : (s.ctx c).pc.toNat % 4 = 0)
    (hspace : (s.ctx c).pc.toNat < 281474976710656) (htranslate : s.translate c (s.ctx c).pc.toNat false true = .ok pa)
    (hdevice : isDevice pa = true) (hoff : s.off (homeOf pa / 64) = true) :
    s.fetch c = .error (s.setCtx c { s.ctx c with notBefore := s.cyc + 1 }) := by
  have hhigh : bits (s.ctx c).pc.toNat 63 60 = 0 := by simp only [bits]; omega
  have hmid : bits (s.ctx c).pc.toNat 59 48 = 0 := by simp only [bits]; omega
  simp [State.fetch, halign, hhigh, hmid, htranslate, hdevice, hoff]

/-- Pylon 1 alone is on (R233), and the boot context stands at address 0, whose page lies at home 0 in pylon 0. -/
def wordAtDarkHome : State :=
  { State.reset with
    minimal := some 1
    clusters := [(4096, { tlb := [{ asid := 0, page := 0, big := false, pa := 0, w := true, x := true, vsrc := false, d := true }] })] }

theorem wordAtDarkHome_translate : wordAtDarkHome.translate bootCtx (wordAtDarkHome.ctx bootCtx).pc.toNat false true = .ok 0 := rfl

end Sys2Proof.Machine

namespace Sys2Proof.Proofs
open Sys2Proof.Machine

/-- Refutes O35: the clause of the word at the pc does not ask that the word's home be on. In minimal mode, where address 0 leads to
home 0 of a pylon that is off, the translation answers and nothing is poisoned, and yet no word is fetched (R233). -/
theorem not_stepRunsTheWord : ¬ Obligations.StepRunsTheWord := by
  unfold Obligations.StepRunsTheWord
  intro h
  obtain ⟨-, -, -, -, -, -, -, -, -, hfetch, -⟩ := h wordAtDarkHome bootCtx 0 .halt {}
  have hword := hfetch 0 rfl (by decide) wordAtDarkHome_translate rfl
  rw [State.fetch_of_home_off rfl (by decide) wordAtDarkHome_translate rfl rfl] at hword
  cases hword

end Sys2Proof.Proofs
end

section
/-! PROOF. Barriers: what each step of a barrier does, case by case (R91, R92, R236, R239, R449, R455), and what a release leaves of the
cores and of the next barrier (R92, R93, R153, R356, R359). -/

namespace Sys2Proof.Machine

/-! ### The steps -/

section
variable {s : State} {l : Launch} {dom : Nat}

theorem execCoreArrival_not_ready (hl : s.launchOf s.arg.ctx.core = some l) (hready : s.coreReady l s.arg.ctx.core (s.n 0) = false) :
    execCoreArrival s = .next s := by
  simp [execCoreArrival, hl, hready, done]

/-- A core's arrival, where it is not the first or no timeout is set (R91, R360, R455). -/
theorem execCoreArrival_ready (hl : s.launchOf s.arg.ctx.core = some l) (hready : s.coreReady l s.arg.ctx.core (s.n 0) = true)
    (hbto : (Tab.get l.barriers (s.n 0) {}).first ≠ none ∨
      Mem.read (s.payloads s.arg.ctx.core (Tab.get l.barriers (s.n 0) {})).1.mem (ctlBase + 117440520) 4 = 0) :
    execCoreArrival s =
      let (t, b) := s.payloads s.arg.ctx.core (Tab.get l.barriers (s.n 0) {})
      let b := { b with cores := b.cores ++ [(s.arg.ctx.core, t.cyc)], first := some (b.first.getD t.cyc) }
      let m := { l with barriers := Tab.set l.barriers (s.n 0) b }
      .next ((t.setLaunch m).tryRelease m (s.n 0)) := by
  have huntimed : ¬((Tab.get l.barriers (s.n 0) {}).first = none ∧
      Mem.read (s.payloads s.arg.ctx.core (Tab.get l.barriers (s.n 0) {})).1.mem (ctlBase + 117440520) 4 ≠ 0) :=
    fun ⟨hfirst, hset⟩ => hbto.elim (· hfirst) hset
  simp only [execCoreArrival, hl, hready, Bool.not_true, Bool.false_eq_true, if_false, done]
  exact congrArg (fun t => done (State.tryRelease t _ _)) (if_neg huntimed)

theorem execBarrierRelease_not_due (hl : s.launch (s.n 0) = some l) (hdom : s.n 1 = dom)
    (hdue : (Tab.get l.barriers dom {}).due = none) : execBarrierRelease s = .next s := by
  subst hdom
  simp [execBarrierRelease, hl, hdue, done]

/-- The release that a precise stop lands waits a cycle for the members' commands (R239). -/
theorem execBarrierRelease_waits {t : Nat} (hl : s.launch (s.n 0) = some l) (hdom : s.n 1 = 0)
    (hdue : (Tab.get l.barriers 0 {}).due = some t) (ht : t ≤ s.cyc) (hstop : s.stopLands l = true) (hleft : s.commandsLeft l = true) :
    execBarrierRelease s =
      let later : Barrier := { Tab.get l.barriers 0 {} with due := some (s.cyc + 1) }
      .next ((s.setLaunch { l with barriers := Tab.set l.barriers 0 later }).after 1 .barrierRelease s.arg) := by
  simp [execBarrierRelease, hl, hdom, hdue, Nat.not_lt.2 ht, hstop, hleft, done]

theorem execBarrierRelease_releases {t : Nat} (hl : s.launch (s.n 0) = some l) (hdom : s.n 1 = dom)
    (hdue : (Tab.get l.barriers dom {}).due = some t) (ht : t ≤ s.cyc)
    (hgo : dom ≠ 0 ∨ s.stopLands l = false ∨ s.commandsLeft l = false) : execBarrierRelease s = .next (s.release l dom []) := by
  have hfree : ¬(dom = 0 ∧ s.stopLands l = true ∧ s.commandsLeft l = true) := by
    rintro ⟨h0, hstop, hleft⟩
    simp [h0, hstop, hleft] at hgo
  subst hdom
  simp only [execBarrierRelease, hl, hdue, if_neg (Nat.not_lt.2 ht), if_neg hfree, done]

theorem execSystemBarrierRelease_none (hmine : s.sysArr.filter (·.1 == s.n 0) = []) :
    execSystemBarrierRelease s = .next { s with sysArr := s.sysArr.filter (·.1 != s.n 0) } := by
  simp only [execSystemBarrierRelease, hmine, List.any_nil, Bool.false_eq_true, if_false, List.foldl_nil, done]

theorem execSystemBarrierRelease_waits (hmine : s.sysArr.filter (·.1 == s.n 0) = [(s.n 0, l.id, 0)]) (hl : s.launch l.id = some l)
    (hstop : s.stopLands l = true) (hleft : s.commandsLeft l = true) :
    execSystemBarrierRelease s = .next (s.after 1 .systemBarrierRelease s.arg) := by
  simp [execSystemBarrierRelease, hmine, hl, hstop, hleft, done]

/-- The system group's release of the one domain that has arrived here (R236): remote line caches of its pylons are invalid. -/
theorem execSystemBarrierRelease_releases (hmine : s.sysArr.filter (·.1 == s.n 0) = [(s.n 0, l.id, dom)]) (hl : s.launch l.id = some l)
    (hgo : dom = 0 → s.stopLands l = true → s.commandsLeft l = false) :
    execSystemBarrierRelease s = .next (State.release { s with
      sysArr := s.sysArr.filter (·.1 != s.n 0)
      pylons := s.pylons.map fun y =>
        if ((Tab.get l.doms dom []).map (·.pyl)).contains y.1 then (y.1, { y.2 with rlc := [] }) else y } l dom
      (triples (s.arg.ns.drop 1))) := by
  have hfree : (dom == 0 && (s.stopLands l && s.commandsLeft l)) = false := by
    by_cases hdom : dom = 0
    · cases hstop : s.stopLands l
      · simp
      · simp [hgo hdom hstop]
    · simp [hdom]
  have hl' : ({ s with sysArr := s.sysArr.filter (·.1 != s.n 0) } : State).launch l.id = some l := hl
  simp only [execSystemBarrierRelease, hmine, List.any_cons, List.any_nil, hl, Option.any_some, hfree, Bool.or_false, Bool.false_eq_true,
    if_false, List.foldl_cons, List.foldl_nil, hl', done]

theorem execBarrierTimeout_withdraws (hl : s.launch (s.n 0) = some l) (hfirst : (Tab.get l.barriers (s.n 1) {}).first = some (s.n 2)) :
    execBarrierTimeout s = .next (s.withdraw l (s.n 1) 6) := by
  simp only [execBarrierTimeout, hl, if_pos hfirst, done]

/-- The barrier of a timeout that finds another first arrival, or none, has been released since (R455). -/
theorem execBarrierTimeout_past (hl : s.launch (s.n 0) = some l) (hfirst : (Tab.get l.barriers (s.n 1) {}).first ≠ some (s.n 2)) :
    execBarrierTimeout s = .next s := by
  simp only [execBarrierTimeout, hl, if_neg hfirst, done]

theorem execScheduleLimit_untimed (htimed : (s.ctx s.arg.ctx).timed = none) : execScheduleLimit s = .next s := by
  simp only [execScheduleLimit, htimed, done]

theorem execScheduleLimit_reached (htimed : (s.ctx s.arg.ctx).timed = some (dom, s.n 0)) :
    execScheduleLimit s =
      .next (s.takeTrap s.arg.ctx { cause := 48, detail := 7, val := 65536 } (s.ctx s.arg.ctx).resume 0) := by
  simp only [execScheduleLimit, htimed, if_true, done]

end

/-! ### A context whose barrier is released -/

section
variable {s : State} (dom : Nat) {c : CtxId}

theorem State.releaseCtx_arrived {a : Nat} {b : Bool} (harrived : (s.ctx c).parrive = some (a, b)) :
    s.releaseCtx dom c = s.setCtx c { s.ctx c with parrive := some (dom, true) } := by
  simp only [State.releaseCtx, harrived]

/-- The wait is over (R92, R356); in timed exchange the schedule begins in the next cycle, and its limit is set (R94, R359, R449). -/
theorem State.releaseCtx_waiting {d : Nat} {timed : Bool} (harrived : (s.ctx c).parrive = none) (hst : (s.ctx c).st = .waiting)
    (hwait : (s.ctx c).wait = .barrier d timed) :
    s.releaseCtx dom c = if timed then
        ((s.wake c).setCtx c { (s.wake c).ctx c with timed := some (dom, s.cyc + 1) }).at_ (s.cyc + 65537) .scheduleLimit
          { ctx := c, ns := [s.cyc + 1] }
      else s.wake c := by
  simp only [State.releaseCtx, harrived, hst, hwait, reduceCtorEq, if_false, if_true]
  rfl

@[simp] theorem State.wake_ctx_st : ((s.wake c).ctx c).st = .ready := by simp [State.wake, State.advance, State.goOn]
@[simp] theorem State.wake_ctx_pc : ((s.wake c).ctx c).pc = (s.ctx c).pc + 4 := by simp [State.wake]
@[simp] theorem State.wake_ctx_timed : ((s.wake c).ctx c).timed = (s.ctx c).timed := by
  simp [State.wake, State.advance, State.goOn, Ctx.used]

/-- It changes the context and the agenda alone. -/
theorem State.releaseCtx_part {α : Type} {p : State → α} (hctx : ∀ t x, p (t.setCtx c x) = p t)
    (hagenda : ∀ t n i a, p (State.at_ t n i a) = p t) : p (s.releaseCtx dom c) = p s := by
  have hwake : p (s.wake c) = p s := by rw [State.wake, hctx, State.advance, State.goOn, hctx]
  unfold State.releaseCtx
  dsimp only
  split
  · exact hctx ..
  · split
    · split
      · exact hctx ..
      · split
        · split
          · rw [hagenda, hctx, hwake]
          · exact hwake
        · rfl
    · rfl

@[simp] theorem State.releaseCtx_mem : (s.releaseCtx dom c).mem = s.mem :=
  State.releaseCtx_part dom (fun _ _ => rfl) fun _ _ _ _ => rfl
@[simp] theorem State.releaseCtx_standing : (s.releaseCtx dom c).standing = s.standing :=
  State.releaseCtx_part dom (fun _ _ => rfl) fun _ _ _ _ => rfl

end

/-! ### What a release sets off beside -/

section
variable {s : State}

/-- An arrival set going, or the release of a barrier that the core no longer keeps from it (R91, R461). -/
@[simp] theorem State.tryArrive_standing (u : CoreId) : (s.tryArrive u).standing = s.standing := by
  unfold State.tryArrive
  split
  · rfl
  · refine foldl_keeps (fun t dom => ?_) _ _
    split
    · rfl
    · split
      · next hl =>
        split
        · exact State.tryRelease_standing _ fun m hm => by rw [State.launch_id hl, hl] at hm; rw [Option.some.inj hm]
        · rfl
      · rfl

@[simp] theorem State.reduceOut_standing (dom : Nat) (cs : List Contrib) (remote : List (Nat × Nat × Nat)) :
    (s.reduceOut dom cs remote).standing = s.standing := by
  unfold State.reduceOut
  split
  · rfl
  · split
    · exact foldl_keeps (fun t e => State.pendAsync_standing ..) _ _
    · exact foldl_keeps (fun t e => State.wrMem_standing ..) _ _

/-- A record in a debug ring, and in a capture (R238, R241). -/
@[simp] theorem State.traceFor_standing (l : Option Launch) (pyl sstep place kind payload : Nat) :
    (s.traceFor l pyl sstep place kind payload).standing = s.standing := by
  unfold State.traceFor
  dsimp only
  split
  · rw [State.setPylon_standing]
    split
    · split
      · exact State.ringWrite_standing State.regressed_standing ..
      · next hwalk =>
        rw [State.wrRecord_standing State.regressed_standing, State.engineWalk_standing hwalk,
          State.ringWrite_standing State.regressed_standing]
    · exact State.ringWrite_standing State.regressed_standing ..
  · exact State.ringWrite_standing State.regressed_standing ..

@[simp] theorem State.diverge_standing (l : Option Launch) (pyl sstep detail : Nat) :
    (s.diverge l pyl sstep detail).standing = s.standing := by
  have hpylons (ps : List Nat) : (ps.foldl (fun s p => s.setPylon p { s.pylon p with diverged := true }) s).standing = s.standing :=
    foldl_keeps (fun t p => State.setPylon_standing ..) _ _
  unfold State.diverge
  dsimp only
  split
  · rw [State.traceFor_standing, hpylons]
  · have hpend (cs : List CtxId) (w : Trap) (t : State) : (cs.foldl (fun s c => s.pendAsync c w) t).standing = t.standing :=
      foldl_keeps (fun t c => State.pendAsync_standing ..) _ _
    split <;> simp [hpylons, hpend]

/-- An outcome logged or compared (R242, R460). -/
@[simp] theorem State.recordFor_standing (l : Option Launch) (pyl sstep place kind payload : Nat) :
    (s.recordFor l pyl sstep place kind payload).standing = s.standing := by
  unfold State.recordFor
  dsimp only
  split
  · split
    · rw [State.traceFor_standing, State.withMem_standing]
      split
      · rfl
      · split
        · rfl
        · next hwalk => rw [State.wrRecord_standing State.regressed_standing, State.engineWalk_standing hwalk]
    · rfl
  · split
    · rfl
    · split
      · rfl
      · exact State.diverge_standing ..

/-- The imbalance record, the signature and a precise stop of domain 0 (R239, R240, R242). -/
@[simp] theorem State.releaseZero_standing (l : Launch) (b : Barrier) (lands : Bool) : (s.releaseZero l b lands).standing = s.standing := by
  have htraces (t : State) (ps : List Nat) (n place : Nat) (w : Nat → Nat) :
      (ps.foldl (fun s p => (upFrom 0 4).foldl (fun s j => s.traceFor (some l) p n place (j + 1) (w j)) s) t).standing = t.standing :=
    foldl_keeps (fun t p => foldl_keeps (fun t j => State.traceFor_standing ..) _ _) _ _
  have hsign (t : State) (b : Bool) (y : Pylon) (p n sig : Nat) :
      (if b then (t.setPylon p y).recordFor (some l) p n 0 10 sig else t).standing = t.standing := by
    split <;> simp
  unfold State.releaseZero
  dsimp only
  split
  · rw [State.traceFor_standing]
    split
    · next m hm =>
      rw [State.setLaunch_standing, State.withMem_standing, foldl_keeps (p := State.standing) fun t p => hsign .., htraces]
      · rfl
      · intro m' hm'
        rw [State.launch_id hm, hm] at hm'
        rw [← Option.some.inj hm']
        rfl
    · rw [State.withMem_standing, foldl_keeps (p := State.standing) fun t p => hsign .., htraces]
      rfl
  · rw [foldl_keeps (p := State.standing) fun t p => hsign .., htraces]
    rfl

/-- A superstep of a core that is a member of the domain and has it for its current one (R93). -/
def countSuperstep (members : List CoreId) (dom : Nat) (e : CoreId × Core) : CoreId × Core :=
  if members.contains e.1 && e.2.bdom == dom then (e.1, { e.2 with sstep := e.2.sstep + 1 }) else e

theorem countSuperstep_fst (members : List CoreId) (dom : Nat) (e : CoreId × Core) : (countSuperstep members dom e).1 = e.1 := by
  unfold countSuperstep
  split <;> rfl
theorem countSuperstep_snd (members : List CoreId) (dom : Nat) (e : CoreId × Core) : (countSuperstep members dom e).2 =
    if members.contains e.1 ∧ e.2.bdom = dom then { e.2 with sstep := e.2.sstep + 1 } else e.2 := by
  simp only [countSuperstep, Bool.and_eq_true, beq_iff_eq]
  split <;> rfl

/-- A release counts supersteps and replaces the barrier by the next one; what it sets off beside leaves both. -/
theorem State.release_standing (l : Launch) (dom : Nat) (remote : List (Nat × Nat × Nat)) :
    (s.release l dom remote).standing =
      ({ s.setLaunch { l with barriers := Tab.set l.barriers dom (Tab.get l.barriers dom {}).next } with
          cores := s.cores.map (countSuperstep (Tab.get l.doms dom []) dom) } : State).standing := by
  unfold State.release
  dsimp only
  rw [foldl_keeps (p := State.standing) fun t e => State.tryArrive_standing ..]
  have hcontexts (t : State) (cs : List (CtxId × List Nat)) : (cs.foldl (fun s e => s.releaseCtx dom e.1) t).standing = t.standing :=
    foldl_keeps (fun t e => State.releaseCtx_standing ..) _ _
  have hexpects (t : State) (es : List Expect) : (es.foldl (fun s e =>
      let h := homeOf e.pa
      s.setHome h { s.home h with regs := (s.home h).regs.filter fun r => r.pa != e.pa || r.home.isSome }) t).standing = t.standing :=
    foldl_keeps (fun t e => State.setHome_standing ..) _ _
  split
  · rw [State.releaseZero_standing, hcontexts, State.reduceOut_standing, hexpects]
    rfl
  · rw [hcontexts, State.reduceOut_standing, hexpects]
    rfl

theorem State.release_core (l : Launch) (dom : Nat) (remote : List (Nat × Nat × Nat)) (u : CoreId) :
    (s.release l dom remote).core u =
      if (Tab.get l.doms dom []).contains u ∧ (s.cores.any (·.1 == u)) = true ∧ (s.core u).bdom = dom
        then { s.core u with sstep := (s.core u).sstep + 1 } else s.core u := by
  have hcores : (s.release l dom remote).cores = s.cores.map (countSuperstep (Tab.get l.doms dom []) dom) :=
    congrArg Prod.fst (State.release_standing ..)
  rw [State.core, hcores, Tab.get_map fun e => countSuperstep_fst ..]
  cases hin : s.cores.any (·.1 == u) with
  | true =>
    rw [if_pos rfl, countSuperstep_snd]
    simp only [true_and]
    rfl
  | false =>
    simp only [Bool.false_eq_true, false_and, and_false, if_false]
    exact (Tab.get_of_not_any _ hin).symm

/-- At the next barrier stand those who had come early (R91, R360). -/
theorem State.release_launch {l : Launch} (hl : s.launch l.id ≠ none) (dom : Nat) (remote : List (Nat × Nat × Nat)) :
    ∃ m, (s.release l dom remote).launch l.id = some m ∧ m.gathered dom = (Tab.get l.barriers dom {}).next.gathered := by
  obtain ⟨m₀, hm₀⟩ := Option.ne_none_iff_exists'.1 hl
  have hset : (s.setLaunch { l with barriers := Tab.set l.barriers dom (Tab.get l.barriers dom {}).next }).launch l.id =
      some { l with barriers := Tab.set l.barriers dom (Tab.get l.barriers dom {}).next } := by
    rw [State.launch_setLaunch, hm₀, Option.map_some, if_pos (State.launch_id hm₀)]
  have hgathered : ((s.release l dom remote).launch l.id).map Launch.gathered =
      ((s.setLaunch { l with barriers := Tab.set l.barriers dom (Tab.get l.barriers dom {}).next }).launch l.id).map Launch.gathered :=
    congrFun (congrArg Prod.snd (State.release_standing ..)) l.id
  rw [hset, Option.map_some, Option.map_eq_some_iff] at hgathered
  obtain ⟨m, hm, hmg⟩ := hgathered
  refine ⟨m, hm, ?_⟩
  rw [hmg, Launch.gathered, Tab.get_set_self]

end

end Sys2Proof.Machine

namespace Sys2Proof.Proofs
open Sys2Proof.Machine Sys2Proof.Claims

theorem barrierEvents : BarrierEvents := by
  unfold BarrierEvents
  intro l u c bar
  exact ⟨fun s ⟨hl, hready⟩ => execCoreArrival_not_ready hl hready, fun s ⟨hl, hready, hbto⟩ => execCoreArrival_ready hl hready hbto,
    fun t hdue s ⟨hl, hdom, ht, hstop, hleft⟩ => execBarrierRelease_waits hl hdom hdue ht hstop hleft,
    fun dom t hdue s ⟨hl, hdom, ht, hgo⟩ => execBarrierRelease_releases hl hdom hdue ht hgo,
    fun dom hdue s ⟨hl, hdom⟩ => execBarrierRelease_not_due hl hdom hdue,
    fun s hmine => execSystemBarrierRelease_none hmine, fun dom s ⟨hmine, hl, hgo⟩ => execSystemBarrierRelease_releases hmine hl hgo,
    fun s ⟨hmine, hl, hstop, hleft⟩ => execSystemBarrierRelease_waits hmine hl hstop hleft,
    fun s ⟨hl, hfirst⟩ => execBarrierTimeout_withdraws hl hfirst, fun s ⟨hl, hfirst⟩ => execBarrierTimeout_past hl hfirst,
    fun dom s htimed => execScheduleLimit_reached htimed, fun s htimed => execScheduleLimit_untimed htimed⟩

theorem releaseOfABarrier : ReleaseOfABarrier := by
  unfold ReleaseOfABarrier
  intro s dom c
  refine ⟨fun d t harrived hst hwait => ?_, fun a b harrived => ?_, State.releaseCtx_mem dom, fun l remote u => ?_, fun l remote hl => ?_⟩
  · rw [State.releaseCtx_waiting dom harrived hst hwait]
    cases t <;> simp
  · rw [State.releaseCtx_arrived dom harrived]
    simp
  · exact State.release_core ..
  · obtain ⟨m, hm, hgathered⟩ := State.release_launch hl dom remote
    simp only [Launch.gathered, Barrier.gathered, Barrier.next, Prod.mk.injEq] at hgathered
    exact ⟨m, hm, hgathered⟩

/-- Settles O55: each step of a barrier by its cases, and what a release does by what it leaves standing: cores but for the superstep,
and the next barrier with those who came early. -/
theorem barrierAndReleaseEvents : Obligations.BarrierAndReleaseEvents := by
  unfold Obligations.BarrierAndReleaseEvents
  exact ⟨barrierEvents, releaseOfABarrier⟩

end Sys2Proof.Proofs
end

section
/-! PROOF. Steps at homes and piers: what each does, case by case: posts, counters, steals, joins and returns at a home (R110 to R112,
R116 to R119, R122, R124, R126, R127, R366, R370, R371, R402, R443), jobs, calls and refreshes of a pier (R124, R138, R139, R142, R445),
and the governor (R133). -/

namespace Sys2Proof.Machine

/-! ### What a store and a record leave: the step's argument -/

section
variable {s : State}

@[simp] theorem State.pendAsync_arg (c : CtxId) (w : Trap) : (s.pendAsync c w).arg = s.arg := by
  unfold State.pendAsync
  dsimp only
  generalize (if (s.ctx c).st = .free then (⟨c.core, 0⟩ : CtxId) else c) = c'
  split
  · exact State.ringWrite_arg (State.regressLog_arg fun _ _ => rfl) _ _ _
  · split <;> simp

@[simp] theorem State.wrMem_some_arg (k n v m : Nat) (c : CtxId) : (s.wrMem k n v m (some c)).arg = s.arg := by
  have hcount (t : State) : (t.counterWrite k n (some c)).arg = t.arg :=
    State.counterWriteBy_arg (fun t r => State.pendAsync_arg ..) k n
  unfold State.wrMem State.wrPlain
  dsimp only
  split <;> simp [hcount]

@[simp] theorem State.signStore_arg (c : CtxId) (v : Nat) : (s.signStore c v).arg = s.arg := by
  unfold State.signStore
  dsimp only
  split <;> simp

@[simp] theorem State.traceFor_arg (l : Option Launch) (pyl sstep place kind payload : Nat) :
    (s.traceFor l pyl sstep place kind payload).arg = s.arg := by
  have hring (t : State) (b p : Nat) (ws : List Nat) : (t.ringWrite b p State.regressed ws).arg = t.arg :=
    State.ringWrite_arg State.regressed_arg ..
  unfold State.traceFor
  dsimp only
  split
  · rw [State.setPylon_arg]
    split
    · split
      · exact hring ..
      · next hwalk => rw [State.wrRecord_arg State.regressed_arg, State.engineWalk_arg hwalk, hring]
    · exact hring ..
  · exact hring ..

@[simp] theorem State.diverge_arg (l : Option Launch) (pyl sstep detail : Nat) : (s.diverge l pyl sstep detail).arg = s.arg := by
  have hpylons (t : State) (ps : List Nat) : (ps.foldl (fun s p => s.setPylon p { s.pylon p with diverged := true }) t).arg = t.arg :=
    foldl_arg (fun t p => State.setPylon_arg ..) _ _
  have hpend (cs : List CtxId) (w : Trap) (t : State) : (cs.foldl (fun s c => s.pendAsync c w) t).arg = t.arg :=
    foldl_arg (fun t c => State.pendAsync_arg ..) _ _
  unfold State.diverge
  dsimp only
  split
  · rw [State.traceFor_arg, hpylons]
  · split <;> simp [hpylons, hpend]

@[simp] theorem State.withMem_arg (m : List Host.Cell) : ({ s with mem := m } : State).arg = s.arg := rfl

@[simp] theorem State.record_arg (pyl sstep place kind payload : Nat) : (s.record pyl sstep place kind payload).arg = s.arg := by
  unfold State.record State.recordFor
  dsimp only
  split
  · split
    · rw [State.traceFor_arg, State.withMem_arg]
      split
      · rfl
      · split
        · rfl
        · next hwalk => rw [State.wrRecord_arg State.regressed_arg, State.engineWalk_arg hwalk]
    · rfl
  · split
    · rfl
    · split
      · rfl
      · exact State.diverge_arg ..

@[simp] theorem State.arbitrate_arg (c : CtxId) (key : Nat) (me : Option CtxId) : (s.arbitrate c key me).arg = s.arg := by
  unfold State.arbitrate
  split
  · exact State.record_arg ..
  · rfl

end

section
variable {s : State} {x : Queue} {t : Task}

/-! ### Meetings at a queue -/

theorem State.taskYields_of_alone {c : CtxId} {h q cls : Nat}
    (halone : (s.agenda.any fun e => decide (e.1 ≤ s.cyc) && taskMeets h q cls c e.2.1 e.2.2) = false) :
    s.taskYields c h q cls = false := by
  rw [State.taskYields, halone, Bool.false_and]
theorem State.taskLog_of_alone {c : CtxId} {h q cls : Nat}
    (halone : (s.agenda.any fun e => decide (e.1 ≤ s.cyc) && taskMeets h q cls c e.2.1 e.2.2) = false) :
    s.taskLog c h q cls = s := by
  rw [State.taskLog, halone, if_neg Bool.false_ne_true]
/-- A change of membership has its turn once no step of an earlier place in the cycle is due, and no other's stands before it (R371). -/
theorem State.not_yields_turn {c : CtxId} {h q cls hi : Nat} (hdue : s.homeDue h hi = false)
    (halone : (s.agenda.any fun e => decide (e.1 ≤ s.cyc) && taskMeets h q cls c e.2.1 e.2.2) = false) :
    ¬(s.homeDue h hi = true ∨ s.taskYields c h q cls = true) := by
  rw [hdue, State.taskYields_of_alone halone, or_self]
  exact Bool.false_ne_true

/-! ### Posts -/

/-- Is an earlier post of the context to the home still on its way (R110)? -/
def State.postSooner (s : State) : Bool :=
  s.agenda.any fun e => e.2.2.ctx == s.arg.ctx && e.2.2.ns.headD 0 == s.n 0 && decide (e.2.2.ns.getD 3 0 < s.n 3) && match e.2.1 with
    | .tpostArrival => true
    | _ => false
/-- The post takes its turn: what it is ordered behind is past (R110), and no other context's post meets it at the queue (R371). -/
structure State.PostArrives (s : State) : Prop where
  performed : s.waitsFor s.arg.ctx.core (s.arg.ns.drop (25 + 2 * s.n 24)) = false
  first : s.postSooner = false
  alone : (s.agenda.any fun e => decide (e.1 ≤ s.cyc) && taskMeets (s.n 0) (s.n 1) 1 s.arg.ctx e.2.1 e.2.2) = false
/-- The task that the message brings, under the queue's next sequence number (R110). -/
def State.postTask (s : State) : Task :=
  { seq := (s.queue (s.n 0) (s.n 1)).nextSeq, lid := s.n 4, asid := s.n 7, poster := s.arg.ctx
    desc := (upFrom 0 16).map fun i => s.n (8 + i), pa := s.n 5, donePa := s.n 6
    deps := (pairs ((s.arg.ns.drop 25).take (2 * s.n 24))).map fun d => (d.2, s.n (17 + 2 * d.1), false) }
/-- The queue has given the sequence number away. -/
def State.postCounted (s : State) : State :=
  s.setQueue (s.n 0) (s.n 1) { s.queue (s.n 0) (s.n 1) with nextSeq := (s.queue (s.n 0) (s.n 1)).nextSeq + 1 }
/-- QUEUE for the poster (R443). -/
def State.postRefuse (s : State) (d : Nat) : State := s.pendAsync s.arg.ctx { cause := 53, detail := d, val := queueVal (s.n 0) (s.n 1) }

theorem execTpostArrival_waits
    (hwaits : ¬(s.waitsFor s.arg.ctx.core (s.arg.ns.drop (25 + 2 * s.n 24)) = false ∧ s.postSooner = false)) :
    execTpostArrival s = .next ((s.after 1 .tpostArrival s.arg).homeTick (s.n 0)) := by
  have hbehind : s.waitsFor s.arg.ctx.core (s.arg.ns.drop (25 + 2 * s.n 24)) = true ∨ s.postSooner = true := by
    simpa only [Classical.not_and_iff_not_or_not, Bool.not_eq_false] using hwaits
  exact if_pos hbehind

/-- A queue that the poster's launch holds is not refused (R443). -/
theorem Queue.not_foreign {lid : Nat} (hheld : x.lid ≠ 0) (hlid : x.lid = lid) : ¬(x.lid = 0 ∨ x.lid ≠ lid) :=
  not_or.2 ⟨hheld, not_not_intro hlid⟩

/-- A post whose turn has come, by what its queue and the home's reserve have room for (R110, R126, R127, R443). -/
theorem execTpostArrival_of_arrives (hpost : s.PostArrives) (hx : s.queue (s.n 0) (s.n 1) = x) :
    execTpostArrival s = .next (State.homeTick (
      if x.lid = 0 ∨ x.lid ≠ s.n 4 then s.postRefuse 7
      else if x.used < x.share ∧ x.ring.isEmpty then s.postCounted.enterTask (s.n 0) (s.n 1) s.postTask
      else if s.n 2 = 1 ∧ x.share ≤ x.used ∧ (s.home (s.n 0)).reserveUsed < 256 then
        (s.postCounted.setHome (s.n 0) { s.postCounted.home (s.n 0) with
          reserveUsed := (s.home (s.n 0)).reserveUsed + 1 }).enterTask (s.n 0) (s.n 1) { s.postTask with reserve := true }
      else if x.ring.length < x.worst - x.share then
        s.postCounted.setQueue (s.n 0) (s.n 1) { s.postCounted.queue (s.n 0) (s.n 1) with ring := x.ring ++ [s.postTask] }
      else s.postCounted.postRefuse 6) (s.n 0)) := by
  subst hx
  obtain ⟨hperformed, hfirst, halone⟩ := hpost
  have hturn : ¬(s.waitsFor s.arg.ctx.core (s.arg.ns.drop (25 + 2 * s.n 24)) = true ∨ s.postSooner = true) := by
    simp [hperformed, hfirst]
  refine (if_neg hturn).trans ?_
  rw [State.taskYields_of_alone halone, if_neg Bool.false_ne_true, State.taskLog_of_alone halone]
  simp only [apply_ite (State.homeTick · (s.n 0)), apply_ite Host.Outcome.next]
  rfl

section
variable (hpost : s.PostArrives) (hx : s.queue (s.n 0) (s.n 1) = x)
include hpost hx

theorem execTpostArrival_foreign (hlid : x.lid = 0 ∨ x.lid ≠ s.n 4) :
    execTpostArrival s = .next ((s.postRefuse 7).homeTick (s.n 0)) := by
  rw [execTpostArrival_of_arrives hpost hx, if_pos hlid]

variable (hheld : x.lid ≠ 0) (hlid : x.lid = s.n 4)
include hheld hlid

theorem execTpostArrival_enters (hroom : x.used < x.share) (hring : x.ring = []) :
    execTpostArrival s = .next ((s.postCounted.enterTask (s.n 0) (s.n 1) s.postTask).homeTick (s.n 0)) := by
  rw [execTpostArrival_of_arrives hpost hx, if_neg (Queue.not_foreign hheld hlid), if_pos ⟨hroom, List.isEmpty_iff.2 hring⟩]

/-- A child's post with the share full takes a slot of the home's reserve (R127). -/
theorem execTpostArrival_reserves (hchild : s.n 2 = 1) (hfull : x.share ≤ x.used) (hreserve : (s.home (s.n 0)).reserveUsed < 256) :
    execTpostArrival s = .next (((s.postCounted.setHome (s.n 0) { s.postCounted.home (s.n 0) with
      reserveUsed := (s.home (s.n 0)).reserveUsed + 1 }).enterTask (s.n 0) (s.n 1)
        { s.postTask with reserve := true }).homeTick (s.n 0)) := by
  have hslot : ¬(x.used < x.share ∧ x.ring.isEmpty) := fun h => Nat.not_lt.2 hfull h.1
  rw [execTpostArrival_of_arrives hpost hx, if_neg (Queue.not_foreign hheld hlid), if_neg hslot, if_pos ⟨hchild, hfull, hreserve⟩]

theorem execTpostArrival_rings (hslot : x.share ≤ x.used ∨ x.ring ≠ [])
    (hreserve : s.n 2 ≠ 1 ∨ x.used < x.share ∨ 256 ≤ (s.home (s.n 0)).reserveUsed) (hring : x.ring.length < x.worst - x.share) :
    execTpostArrival s = .next ((s.postCounted.setQueue (s.n 0) (s.n 1)
      { s.postCounted.queue (s.n 0) (s.n 1) with ring := x.ring ++ [s.postTask] }).homeTick (s.n 0)) := by
  have hslot' : ¬(x.used < x.share ∧ x.ring.isEmpty) := by
    rw [List.isEmpty_iff]
    exact fun ⟨hroom, hempty⟩ => hslot.elim (Nat.not_le.2 hroom) (· hempty)
  have hreserve' : ¬(s.n 2 = 1 ∧ x.share ≤ x.used ∧ (s.home (s.n 0)).reserveUsed < 256) := by omega
  rw [execTpostArrival_of_arrives hpost hx, if_neg (Queue.not_foreign hheld hlid), if_neg hslot', if_neg hreserve', if_pos hring]

/-- With share and ring full a post is discarded, its number spent (R443, notes/assumptions/35). -/
theorem execTpostArrival_overflows (hfull : x.share ≤ x.used) (hroot : s.n 2 ≠ 1) (hring : x.worst - x.share ≤ x.ring.length) :
    execTpostArrival s = .next ((s.postCounted.postRefuse 6).homeTick (s.n 0)) := by
  have hslot : ¬(x.used < x.share ∧ x.ring.isEmpty) := fun h => Nat.not_lt.2 hfull h.1
  have hreserve : ¬(s.n 2 = 1 ∧ x.share ≤ x.used ∧ (s.home (s.n 0)).reserveUsed < 256) := fun h => hroot h.1
  rw [execTpostArrival_of_arrives hpost hx, if_neg (Queue.not_foreign hheld hlid), if_neg hslot, if_neg hreserve,
    if_neg (Nat.not_lt.2 hring)]

end

/-! ### Counters of waiting tasks -/

theorem State.queue_of_only {h q : Nat} (hqs : (s.home h).queues = [(q, x)]) : s.queue h q = x := by
  rw [State.queue, hqs, Tab.get, if_pos rfl]

/-- A counter's value has come back to the task's home (R111). -/
theorem execCounterReadAnswer_judges {i pa thr : Nat} {met : Bool} (ht : (s.queue (s.n 0) (s.n 1)).task (s.n 2) = some t)
    (hpair : s.n 3 = i) (hdep : t.deps[i]? = some (pa, thr, met)) (hfirst : s.n 4 = 1) :
    execCounterReadAnswer s = .next (((s.setQueue (s.n 0) (s.n 1) ((s.queue (s.n 0) (s.n 1)).setTask { t with
      deps := t.deps.set i (pa, thr, decide (thr ≤ s.n 5)), reads := t.reads - 1 })).judge (s.n 0) (s.n 1) t.seq).homeTick (s.n 0)) := by
  subst hpair
  simp only [execCounterReadAnswer, ht, hdep, hfirst, done]
  rfl

theorem execCounterReport_no_queues (hqs : (s.home (s.n 0)).queues = []) : execCounterReport s = .next (s.homeTick (s.n 0)) := by
  simp only [execCounterReport, hqs, List.foldl_nil, done]

/-- The report of the one counter that the one task of a home waits for (R111, R112). -/
theorem execCounterReport_judges {q thr : Nat} {met : Bool} (hqs : (s.home (s.n 0)).queues = [(q, x)]) (htasks : x.tasks = [t])
    (hst : t.st = .pending) (hdeps : t.deps = [(s.n 1, thr, met)]) :
    execCounterReport s = .next (((s.setQueue (s.n 0) q { x with
      tasks := [{ t with deps := [(s.n 1, thr, decide (thr ≤ s.n 2))] }] }).judge (s.n 0) q t.seq).homeTick (s.n 0)) := by
  simp [execCounterReport, hqs, State.queue_of_only hqs, htasks, hst, hdeps, done]

theorem execWatchReread_no_queues (hqs : (s.home (s.n 0)).queues = []) : execWatchReread s = .next (s.homeTick (s.n 0)) := by
  simp only [execWatchReread, hqs, List.foldl_nil, List.any_nil, Bool.false_eq_true, if_false, done]

/-- The one counter of the one task of a home has no watch entry: it is read again, and watched where the table has room (R111). -/
theorem execWatchReread_reads {q pa thr : Nat} {met : Bool} (hqs : (s.home (s.n 0)).queues = [(q, x)]) (htasks : x.tasks = [t])
    (hst : t.st = .pending) (hdeps : t.deps = [(pa, thr, met)]) (hwatch : (s.home (s.n 0)).watch.contains pa = false) :
    execWatchReread s =
      let u := (s.watchAdd (s.n 0) pa).after (hop (s.n 0) (homeOf pa)) .counterReadAnswer
        { ctx := t.poster, ns := [s.n 0, q, t.seq, 0, 2, 0] }
      .next ((if (u.home (s.n 0)).queues.any fun e => e.2.tasks.any fun t => (t.st == .pending || t.st == .reading) &&
          t.deps.any fun d => !(u.home (s.n 0)).watch.contains d.1
        then u.after 4096 .watchReread { ns := [s.n 0] } else u).homeTick (s.n 0)) := by
  have hpicked : [t].filter (fun t => t.st == .pending && ((t.st == .pending || t.st == .reading) &&
      t.deps.any fun d => !(s.home (s.n 0)).watch.contains d.1)) = [t] := by
    rw [List.filter_cons, hdeps, List.any_cons, hwatch, hst, List.filter_nil]
    rfl
  have hread : t.deps.zip (upFrom 0 4) = [((pa, thr, met), 0)] := by rw [hdeps]; rfl
  simp only [execWatchReread, hqs, htasks, hpicked, hread, List.foldl_cons, List.foldl_nil, hwatch, Bool.false_eq_true, if_false, done]

/-- A ready task becomes urgent when its time has come, and counts once (R118). -/
theorem execTaskUrgentDue_counts (hx : s.queue (s.n 0) (s.n 1) = x) (ht : x.task (s.n 2) = some t) (hst : t.st = .ready)
    (hurgent : t.urgent = false) (hdue : x.isDue t s.cyc = true) :
    execTaskUrgentDue s = .next ((s.setQueue (s.n 0) (s.n 1) (x.setTask { t with urgent := true, counted := true })).homeTick (s.n 0)) := by
  simp [execTaskUrgentDue, hx, ht, hst, hurgent, hdue, done]

/-! ### Steal groups -/

/-- The home's offers to the issuer of a TSTEAL are over (R117). -/
def State.offersEnded (s : State) : State :=
  s.setHome (s.n 0) { s.home (s.n 0) with queues := (s.home (s.n 0)).queues.map fun e =>
    (e.1, { e.2 with members := e.2.members.map fun m => if m.ctx = s.arg.ctx then { m with outstanding := false } else m }) }

/-- A steal comes after what makes tasks ready in its cycle (R371). -/
theorem execTstealArrival_waits (hdue : s.homeDue (s.n 0) 1 = true ∨ s.reportSoon (s.n 0) = true) :
    execTstealArrival s = .next (s.after 0 .tstealArrival s.arg) := if_pos hdue

section
variable (hdue : s.homeDue (s.n 0) 1 = false) (hsoon : s.reportSoon (s.n 0) = false)
include hdue hsoon

/-- A thief that is no member gets the answer 0 (R366). -/
theorem execTstealArrival_no_member (hmember : (s.offersEnded.queue (s.n 0) (s.n 1)).members.any (·.ctx == s.arg.ctx) = false) :
    execTstealArrival s = .next ((s.offersEnded.after (latHome s.arg.ctx.core (s.n 0) / 2) .tstealAnswerArrival
      { ctx := s.arg.ctx, ns := [s.n 0, s.n 1, s.n 2, 0] }).homeTick (s.n 0)) := by
  simp only [execTstealArrival, hdue, hsoon, Bool.false_eq_true, or_self, if_false]
  rw [← State.offersEnded]
  simp only [hmember, Bool.false_eq_true, if_false, done]
  rfl

/-- A member takes the task that a grant selects, and a recording logs it (R119, R242). -/
theorem execTstealArrival_grants (hmember : (s.offersEnded.queue (s.n 0) (s.n 1)).members.any (·.ctx == s.arg.ctx) = true)
    (hgrant : s.offersEnded.stealGrant s.arg.ctx (s.n 0) (s.n 1) = (some t, false)) :
    execTstealArrival s =
      let u := s.offersEnded.setQueue (s.n 0) (s.n 1) ((s.offersEnded.queue (s.n 0) (s.n 1)).setTask
        { t with st := .far s.arg.ctx, counted := false })
      .next (((u.record s.arg.ctx.core.pyl (u.core s.arg.ctx.core).sstep.toNat s.arg.ctx.place 9
        (s.n 0 + s.n 1 * 512 + t.seq * 65536)).after (latHome s.arg.ctx.core (s.n 0) / 2) .tstealAnswerArrival
          { ctx := s.arg.ctx, ns := [s.n 0, s.n 1, s.n 2, 1, t.seq, t.pa, s.n 3] ++ t.desc }).homeTick (s.n 0)) := by
  simp only [execTstealArrival, hdue, hsoon, Bool.false_eq_true, or_self, if_false]
  rw [← State.offersEnded]
  simp only [hmember, hgrant, Bool.false_eq_true, if_false, if_true, done]
  simp only [State.n, State.record_arg]
  rfl

end

section
variable (hdue : s.homeDue (s.n 0) 3 = false)
  (halone : (s.agenda.any fun e => decide (e.1 ≤ s.cyc) && taskMeets (s.n 0) (s.n 1) 4 s.arg.ctx e.2.1 e.2.2) = false)
  (hx : s.queue (s.n 0) (s.n 1) = x)
include hdue halone hx

/-- A join whose turn in the cycle has come (R371). -/
theorem execTjoinArrival_of_turn (hmember : x.members.any (·.ctx == s.arg.ctx) = false) :
    execTjoinArrival s = .next (State.homeTick (if x.members.length + x.holders.length ≥ 64 then
        s.pendAsync s.arg.ctx { cause := 53, detail := 1, val := queueVal (s.n 0) (s.n 1) }
      else s.setQueue (s.n 0) (s.n 1) { x with
        members := x.members ++ [{ ctx := s.arg.ctx }], holders := x.holders.filter (· != s.arg.ctx) }) (s.n 0)) := by
  subst hx
  refine (if_neg (State.not_yields_turn hdue halone)).trans ?_
  rw [State.taskLog_of_alone halone, hmember, if_neg Bool.false_ne_true, apply_ite (State.homeTick · (s.n 0)), apply_ite Host.Outcome.next]
  rfl

/-- A member without the last offer leaves a queue without tasks (R116). -/
theorem execTleaveArrival_leaves (hmember : x.members.findIdx? (·.ctx == s.arg.ctx) ≠ none) (hlast : x.lastOffer ≠ some s.arg.ctx)
    (htasks : x.tasks = []) :
    execTleaveArrival s = .next ((s.setQueue (s.n 0) (s.n 1) { x with
      members := x.members.filter (·.ctx != s.arg.ctx) }).homeTick (s.n 0)) := by
  obtain ⟨i, hi⟩ := Option.ne_none_iff_exists'.1 hmember
  refine (if_neg (State.not_yields_turn hdue halone)).trans ?_
  rw [State.taskLog_of_alone halone, hx]
  simp only [hi, if_neg hlast, htasks, List.any_nil, Bool.false_eq_true, if_false, done]

end

/-! ### QINFO -/

theorem execQinfoArrival_waits (hdue : s.homeDue (s.n 0) 4 = true ∨ s.reportSoon (s.n 0) = true) :
    execQinfoArrival s = .next (s.after 0 .qinfoArrival s.arg) := if_pos hdue

theorem execQinfoArrival_counts {f : Access} (hdue : s.homeDue (s.n 0) 4 = false) (hsoon : s.reportSoon (s.n 0) = false)
    (hf : s.access (s.n 2) = some f) :
    execQinfoArrival s = .next ((s.setAccess { f with got := s.queueInfo (s.n 0) (s.n 1) }).after (f.lat - f.lat / 2) .loadValueReturn
      { ctx := f.ctx, ns := [f.id] }) := by
  simp only [execQinfoArrival, hdue, hsoon, Bool.false_eq_true, or_self, if_false, hf, done]

/-! ### TRET -/

section
variable (ht : (s.queue (s.n 0) (s.n 1)).task (s.n 2) = some t) (hphase : s.n 4 = 0)
include ht hphase

theorem execTretArrival_waits (hwaits : s.waitsFor s.arg.ctx.core (s.arg.ns.drop 5) = true) :
    execTretArrival s = .next ((s.after 1 .tretArrival s.arg).homeTick (s.n 0)) := by
  simp only [execTretArrival, ht, hphase, hwaits, if_true, done]

variable (hwaits : s.waitsFor s.arg.ctx.core (s.arg.ns.drop 5) = false)
include hwaits

/-- A COMMUTE task's stores are performed: DONE's increment sets off, in this cycle already where they were before it (R124, R402). -/
theorem execTretArrival_commute (hsnap : t.snap = false) :
    execTretArrival s = .next ((s.after (t.doneHop (s.n 0) - if s.doneBefore (s.arg.ns.drop 5) && t.doneHop (s.n 0) == 1 then 1 else 0)
      .tretArrival { s.arg with ns := [s.n 0, s.n 1, s.n 2, s.n 3, 1] }).homeTick (s.n 0)) := by
  simp only [execTretArrival, ht, hphase, hwaits, hsnap, Bool.not_false, Bool.false_eq_true, if_false, if_true, done]

/-- A SNAP task's batch is applied (R122). -/
theorem execTretArrival_batch {b : Held} {bs : List Held} (hsnap : t.snap = true)
    (hbuf : (s.ctx s.arg.ctx).grant.elim [] (·.buf) = b :: bs)
    (hyields : ((b :: bs).any fun e => s.yields s.arg.ctx e.key (some s.arg.ctx)) = false)
    (hheld : ((b :: bs).findSome? fun e => s.holdOf e.key 8) = none) :
    execTretArrival s = .next ((((b :: bs).foldl (fun u e =>
        (u.signStore s.arg.ctx e.val).wrMem e.key 8 e.val e.mask (some s.arg.ctx)) (s.arbitrate s.arg.ctx b.key (some s.arg.ctx))).after
      (t.doneHop (s.n 0)) .tretArrival { s.arg with ns := [s.n 0, s.n 1, s.n 2, s.n 3, 1] }).homeTick (s.n 0)) := by
  have harg : ((b :: bs).foldl (fun u e => (u.signStore s.arg.ctx e.val).wrMem e.key 8 e.val e.mask (some s.arg.ctx))
      (s.arbitrate s.arg.ctx b.key (some s.arg.ctx))).arg = s.arg := by
    rw [foldl_arg fun u e => by rw [State.wrMem_some_arg, State.signStore_arg], State.arbitrate_arg]
  simp only [execTretArrival, ht, hphase, hwaits, hsnap, hbuf, hyields, hheld, Bool.not_true, Bool.false_eq_true, if_false, done]
  simp only [State.n, harg]

end

/-! ### Piers -/

/-- No other agent reaches the home that a pier's step accesses (R399). -/
def State.PierCalm (s : State) (ph : Nat) : Prop := ∀ e, s.pierPlace (s.n 0) ph = some e → s.contended e.2 none = false

theorem State.PierCalm.not_yields {ph : Nat} (hcalm : s.PierCalm ph) :
    ((s.pierPlace (s.n 0) ph).any fun e => s.yields e.1 e.2 none) = false := by
  cases hplace : s.pierPlace (s.n 0) ph with
  | none => rfl
  | some e => rw [Option.any_some, State.yields, hcalm e hplace, Bool.false_and]
theorem State.PierCalm.arbitrate {ph : Nat} (hcalm : s.PierCalm ph) :
    ((s.pierPlace (s.n 0) ph).elim s fun e => s.arbitrate e.1 e.2 none) = s := by
  cases hplace : s.pierPlace (s.n 0) ph with
  | none => rfl
  | some e => rw [Option.elim_some, State.arbitrate, hcalm e hplace, if_neg Bool.false_ne_true]

theorem execPierJobEnd_other_job (hother : (s.home (s.n 0)).job = none ∨ (s.home (s.n 0)).jobId ≠ s.n 1) :
    execPierJobEnd s = .next (s.homeTick (s.n 0)) :=
  if_pos (hother.imp_left Option.isNone_iff_eq_none.2)

section
variable {j : Job} (hjob : (s.home (s.n 0)).job = some j) (hid : (s.home (s.n 0)).jobId = s.n 1)
include hjob hid

/-- The last phase frees the pier. -/
theorem execPierJobEnd_frees (hphase : s.n 2 = 3) :
    execPierJobEnd s = .next ((s.setHome (s.n 0) { s.home (s.n 0) with job := none }).homeTick (s.n 0)) := by
  have hplace : s.pierPlace (s.n 0) 3 = none := Option.bind_eq_none_iff.2 fun _ _ => rfl
  simp [execPierJobEnd, hjob, hid, hphase, hplace, done]

variable (hcalm : s.PierCalm (s.n 2))
include hcalm

/-- DONE of the pier's task goes up (R124). -/
theorem execPierJobEnd_counts {q seq : Nat} (htask : j = .task q seq) (hphase : s.n 2 = 1) (hheld : s.doneHeld (s.n 0) = none)
    (ht : (s.queue (s.n 0) q).task seq = some t) :
    execPierJobEnd s = .next (((s.bumpDone t).after (t.newsHop (s.n 0)) .pierJobEnd
      { ns := [s.n 0, (s.home (s.n 0)).jobId, 2] }).homeTick (s.n 0)) := by
  subst htask
  rw [hphase] at hcalm
  simp [execPierJobEnd, hjob, hid, hphase, hheld, hcalm.not_yields, hcalm.arbitrate, ht, done]

variable (hphase : s.n 2 = 0) (hheld : s.pierHeld (s.n 0) (s.n 3) = none) {u : State}
include hphase hheld

/-- What the end of a sequence leaves of a job that is still in the pier. -/
theorem execPierJobEnd_more (hstep : s.pierStep (s.n 0) (s.n 3) (s.n 4 == 1) = .more u)
    (htask : ∀ q seq, j = .task q seq → (s.queue (s.n 0) q).task seq ≠ none) :
    execPierJobEnd s = .next (u.homeTick (s.n 0)) := by
  rw [hphase] at hcalm
  cases j with
  | call p => simp [execPierJobEnd, hjob, hid, hphase, hheld, hcalm.not_yields, hcalm.arbitrate, hstep, done]
  | task q seq =>
    obtain ⟨t, ht⟩ := Option.ne_none_iff_exists'.1 (htask q seq rfl)
    simp [execPierJobEnd, hjob, hid, hphase, hheld, hcalm.not_yields, hcalm.arbitrate, ht, hstep, done]

theorem execPierJobEnd_call {p : PCall} {f : Bool} (hcall : j = .call p) (hown : p.job = none)
    (hstep : s.pierStep (s.n 0) (s.n 3) (s.n 4 == 1) = .finished u f) :
    execPierJobEnd s = .next (((u.callEnd (s.n 0) p f).after 1 .pierJobEnd
      { ns := [s.n 0, (s.home (s.n 0)).jobId, 3] }).homeTick (s.n 0)) := by
  subst hcall
  rw [hphase] at hcalm
  simp [execPierJobEnd, hjob, hid, hphase, hheld, hcalm.not_yields, hcalm.arbitrate, hown, hstep, done]

/-- A task's body is over: its slot is freed next where it has failed, else DONE goes up (R124, R445). -/
theorem execPierJobEnd_task {q seq : Nat} {f : Bool} (htask : j = .task q seq) (ht : (s.queue (s.n 0) q).task seq = some t)
    (hstep : s.pierStep (s.n 0) (s.n 3) (s.n 4 == 1) = .finished u f) :
    execPierJobEnd s = .next ((if f then u.after 1 .pierJobEnd { ns := [s.n 0, (s.home (s.n 0)).jobId, 2] }
      else u.after (t.doneHop (s.n 0)) .pierJobEnd { ns := [s.n 0, (s.home (s.n 0)).jobId, 1] }).homeTick (s.n 0)) := by
  subst htask
  rw [hphase] at hcalm
  cases f <;> simp [execPierJobEnd, hjob, hid, hphase, hheld, hcalm.not_yields, hcalm.arbitrate, ht, hstep, done]

end

/-! ### Calls, refreshes and the governor -/

theorem execPcallAccept_full (hfull : 16 ≤ (s.home (s.n 0)).calls.length) :
    execPcallAccept s = .next ((s.after 1 .pcallAccept s.arg).homeTick (s.n 0)) := if_pos (.inr hfull)

/-- A call takes an entry, and its row is empty from now on (R139). -/
theorem execPcallAccept_enters (hroom : (s.home (s.n 0)).calls.length < 16)
    (hwaits : s.waitsFor s.arg.ctx.core (s.arg.ns.drop 11) = false) (hrow : s.emptyRows.contains (s.n 1) = false) :
    execPcallAccept s =
      let p : PCall := { ctx := s.arg.ctx, va := s.n 4, pa := s.n 5, len8 := s.n 6, entry := s.n 7, args := [s.n 8, s.n 9, s.n 10],
                         rowPa := s.n 1, asid := s.n 3 }
      let t : State := { s.setHome (s.n 0) { s.home (s.n 0) with calls := (s.home (s.n 0)).calls ++ [p] } with
        emptyRows := s.emptyRows ++ [s.n 1] }
      .next ((t.after (latHome s.arg.ctx.core (s.n 0) / 2) .pcallAcceptNews { ctx := s.arg.ctx, ns := [s.n 2] }).homeTick (s.n 0)) := by
  simp only [execPcallAccept, hwaits, hrow, Nat.not_le.2 hroom, Bool.false_eq_true, or_self, if_false, done]

/-- A refresh that is issued, or is one too many to be owed, leaves no trace (R142). -/
theorem execRefreshDue_issued (hdue : s.inSequence (s.n 0) = false ∨ 4 ≤ (s.home (s.n 0)).refreshOwed) :
    execRefreshDue s = .next s := by
  have hissued : ¬(s.inSequence (s.n 0) = true ∧ (s.home (s.n 0)).refreshOwed < 4) := by
    rintro ⟨hseq, howed⟩
    exact hdue.elim (by simp [hseq]) (Nat.not_le.2 howed)
  exact if_neg hissued
theorem execRefreshDue_postponed (hseq : s.inSequence (s.n 0) = true) (howed : (s.home (s.n 0)).refreshOwed < 4) :
    execRefreshDue s = .next (s.setHome (s.n 0) { s.home (s.n 0) with refreshOwed := (s.home (s.n 0)).refreshOwed + 1 }) :=
  if_pos ⟨hseq, howed⟩

theorem execGovernorSample_none (hmine : (s.launches.filter fun l => bit l.pyls (s.n 0) && decide (1 < l.stages.length)) = []) :
    execGovernorSample s = .next s := by
  simp only [execGovernorSample, hmine, List.isEmpty_nil, if_true, done]

/-- Of the one launch with stages in the pylon, a cluster is told to change its stage where the governor moves one (R133). -/
theorem execGovernorSample_one {l : Launch}
    (hmine : (s.launches.filter fun l => bit l.pyls (s.n 0) && decide (1 < l.stages.length)) = [l]) :
    execGovernorSample s = .next (((s.governorMove l (s.n 0)).elim s fun m => (clusterCores m.1).foldl (fun s u =>
      s.setCore u { s.core u with stagePend := true, stageNext := m.2 }) s).after 4096 .governorSample { ns := [s.n 0] }) := by
  simp only [execGovernorSample, hmine, List.isEmpty_cons, Bool.false_eq_true, if_false, List.findSome?_cons, List.findSome?_nil, done]
  cases s.governorMove l (s.n 0) <;> rfl

end

end Sys2Proof.Machine

namespace Sys2Proof.Proofs
open Sys2Proof.Machine Sys2Proof.Claims

theorem homeEvents : HomeEvents := by
  unfold HomeEvents
  intro c ids sooner ordered alone posted x task noted way
  exact ⟨
    fun s ⟨⟨⟨hw, hf⟩, ha⟩, hlid⟩ => execTpostArrival_foreign ⟨hw, hf, ha⟩ rfl hlid,
    fun s ⟨⟨⟨hw, hf⟩, ha⟩, hheld, hlid, hroom, hring⟩ => execTpostArrival_enters ⟨hw, hf, ha⟩ rfl hheld hlid hroom hring,
    fun s ⟨⟨⟨hw, hf⟩, ha⟩, hheld, hlid, hfull, hroot, hring⟩ =>
      execTpostArrival_overflows ⟨hw, hf, ha⟩ rfl hheld hlid hfull hroot hring,
    fun s ⟨⟨⟨hw, hf⟩, ha⟩, hheld, hlid, hchild, hfull, hreserve⟩ =>
      execTpostArrival_reserves ⟨hw, hf, ha⟩ rfl hheld hlid hchild hfull hreserve,
    fun s ⟨⟨⟨hw, hf⟩, ha⟩, hheld, hlid, hslot, hreserve, hring⟩ =>
      execTpostArrival_rings ⟨hw, hf, ha⟩ rfl hheld hlid hslot hreserve hring,
    fun s hwaits => execTpostArrival_waits hwaits,
    fun t pa thr met hdep s ⟨hpair, hfirst, ht⟩ => execCounterReadAnswer_judges ht hpair hdep hfirst,
    fun s hqs => execCounterReport_no_queues hqs,
    fun q y thr met t hst htasks s ⟨hqs, hdeps⟩ => execCounterReport_judges hqs htasks hst hdeps,
    fun s hqs => execWatchReread_no_queues hqs,
    fun q y pa thr met t hst htasks hdeps s ⟨hqs, hwatch⟩ => execWatchReread_reads hqs htasks hst hdeps hwatch,
    fun t hst hurgent s ⟨ht, hdue⟩ => execTaskUrgentDue_counts rfl ht hst hurgent hdue,
    fun s hdue => execTstealArrival_waits hdue,
    fun s ⟨hdue, hsoon, hmember⟩ => execTstealArrival_no_member hdue hsoon hmember,
    fun t s ⟨hdue, hsoon, hmember, hgrant⟩ => execTstealArrival_grants hdue hsoon hmember hgrant,
    fun s ⟨hdue, ha, hmember, hroom⟩ =>
      (execTjoinArrival_of_turn hdue ha rfl hmember).trans (by rw [if_neg (Nat.not_le.2 hroom)]),
    fun s ⟨hdue, ha, hmember, hfull⟩ => (execTjoinArrival_of_turn hdue ha rfl hmember).trans (by rw [if_pos hfull]; rfl),
    fun s ⟨hdue, ha, hmember, hlast, htasks⟩ => execTleaveArrival_leaves hdue ha rfl hmember hlast htasks,
    fun s hdue => execQinfoArrival_waits hdue,
    fun f s ⟨hdue, hsoon, hf⟩ => execQinfoArrival_counts hdue hsoon hf,
    fun t s ⟨ht, hphase, hwaits⟩ => execTretArrival_waits ht hphase hwaits,
    fun t s ⟨ht, hphase, hwaits, hsnap⟩ => execTretArrival_commute ht hphase hwaits hsnap,
    fun t b bs s ⟨ht, hphase, hsnap, hwaits, hbuf, hyields, hheld⟩ =>
      execTretArrival_batch ht hphase hwaits hsnap hbuf hyields hheld⟩

theorem pierEvents : PierEvents := by
  unfold PierEvents
  intro h m calm
  exact ⟨
    fun s hother => execPierJobEnd_other_job hother,
    fun j s ⟨hjob, hid, hphase⟩ => execPierJobEnd_frees hjob hid hphase,
    fun q seq t s ⟨hjob, hid, hphase, hheld, hcalm, ht⟩ => execPierJobEnd_counts hjob hid hcalm rfl hphase hheld ht,
    fun p u f s ⟨hjob, hown, hid, hphase, hheld, hcalm, hstep⟩ => execPierJobEnd_call hjob hid hcalm hphase hheld rfl hown hstep,
    fun j u s ⟨hjob, hid, hphase, hheld, hcalm, hstep, htask⟩ => execPierJobEnd_more hjob hid hcalm hphase hheld hstep htask,
    fun q seq t u f s ⟨hjob, hid, hphase, hheld, hcalm, ht, hstep⟩ => execPierJobEnd_task hjob hid hcalm hphase hheld rfl ht hstep,
    fun s hfull => execPcallAccept_full hfull,
    fun s ⟨hroom, hwaits, hrow⟩ => execPcallAccept_enters hroom hwaits hrow,
    fun s hdue => execRefreshDue_issued hdue,
    fun s ⟨hseq, howed⟩ => execRefreshDue_postponed hseq howed,
    fun s hmine => execGovernorSample_none hmine,
    fun l s ⟨hmine, hmove⟩ => (execGovernorSample_one hmine).trans (by rw [hmove, Option.elim_none]),
    fun l k n s ⟨hmine, hmove⟩ => (execGovernorSample_one hmine).trans (by rw [hmove, Option.elim_some])⟩

/-- Settles O56: a step at a home takes its turn behind what its cycle puts first, and then goes by what the queue holds; a pier's step
goes by the job in the pier and its phase. -/
theorem homeAndPierEvents : Obligations.HomeAndPierEvents := by
  unfold Obligations.HomeAndPierEvents
  exact ⟨homeEvents, pierEvents⟩

end Sys2Proof.Proofs
end

section
/-! PROOF. The module after power-on reset: its one live context, the control words that have a reset value, and the start as its first
step (R78, R87, R143, R232, R431, R458). -/

namespace Sys2Proof.Machine

/-! ### What the state after reset holds -/

theorem State.ctx_reset_boot : State.reset.ctx bootCtx = { st := .ready, level := .h } := by
  rw [State.ctx, State.reset, Tab.get, bootCtx, if_pos rfl]
theorem State.ctx_reset_other {c : CtxId} (hc : c ≠ bootCtx) : State.reset.ctx c = {} := if_neg hc

/-- VSH is 16 until it is written (R143). -/
theorem State.ctl_reset_vsh : State.reset.ctl 117440528 = 16 := by
  simp [State.ctl, State.reset, ctlBase, Mem.read, Mem.get, unlisted]
/-- FETO is 2^24 until it is written (R431). -/
theorem State.ctl_reset_feto : State.reset.ctl 117440512 = 16777216 := by
  simp [State.ctl, State.reset, ctlBase, Mem.read, Mem.get, unlisted]
/-- PTO is 2^24 until it is written (R458). -/
theorem State.ctl_reset_pto : State.reset.ctl 50343936 = 16777216 := by
  simp [State.ctl, State.reset, ctlBase, Mem.read, Mem.get, unlisted]

/-! ### The start counts itself once -/

section
variable (s : State)

@[simp] theorem State.setCtl_fsc (o v : Nat) : (s.setCtl o v).fsc = s.fsc := rfl
@[simp] theorem State.bootFail_fsc (reason step : Nat) : (s.bootFail reason step).fsc = s.fsc := rfl
@[simp] theorem State.enterImage_fsc (img : List Nat) : (s.enterImage img).fsc = s.fsc := rfl

/-- Training writes the ports' words alone (R232). -/
@[simp] theorem State.trainPorts_fsc : s.trainPorts.fsc = s.fsc := by
  unfold State.trainPorts
  refine List.foldlRecOn (motive := fun t => t.fsc = s.fsc) _ _ rfl fun (t : State) ht p _ => ?_
  split
  · exact (t.setCtl_fsc ..).trans ht
  · exact ht

/-- Whether its image is entered or not, a start changes the failed-start count no further (R232). -/
@[simp] theorem State.bootImage_fsc : s.bootImage.fsc = s.fsc := by
  simp only [State.bootImage, apply_ite State.fsc, State.bootFail_fsc, State.enterImage_fsc, State.trainPorts_fsc, ite_self]

end

/-- Where no move is chosen, the first step that is due runs with its argument. -/
theorem step_of_due {s : State} {t : Nat} {i : Instr} {a : Arg} {rest : List (Nat × Instr × Arg)} (hmoves : s.moves = [])
    (hagenda : s.agenda = (t, i, a) :: rest) (hdue : t ≤ s.cyc) : step s = exec i { s with agenda := rest, arg := a } := by
  rw [step, hmoves]
  dsimp only
  rw [hagenda]
  exact if_pos hdue

/-- One of the first two starts counts itself, also where it fails (R232). -/
theorem execBootStart_counts {s : State} (hfsc : s.fsc < 2) : ∃ t, execBootStart s = .next t ∧ t.fsc = s.fsc + 1 := by
  refine ⟨_, execBootStart_eq, ?_⟩
  rw [if_neg (Nat.not_le.2 hfsc), State.bootImage_fsc, State.after_fsc]
  exact Nat.min_eq_right (by omega)

theorem step_reset : ∃ t, step State.reset = .next t ∧ t.fsc = 1 := by
  rw [step_of_due rfl rfl (Nat.le_refl 0), exec_bootStart]
  exact execBootStart_counts (by decide : State.reset.fsc < 2)

end Sys2Proof.Machine

namespace Sys2Proof.Proofs
open Sys2Proof.Machine

/-- Settles O37: the fields are those of `State.reset`, the control words are what bytes that nothing has written read as, and the first
step is the boot ROM's start, which counts itself. -/
theorem resetState : Obligations.ResetState := by
  unfold Obligations.ResetState
  dsimp only
  rw [State.ctx_reset_boot]
  exact ⟨rfl, rfl, rfl, rfl, rfl, rfl, rfl, rfl, fun c hc => congrArg Ctx.st (State.ctx_reset_other hc), rfl, step_reset,
    State.ctl_reset_vsh, State.ctl_reset_feto, State.ctl_reset_pto, rfl⟩

end Sys2Proof.Proofs
end

section
/-! PROOF. The encoding (10_encoding R244 to R257): what the decoder accepts, the word of a well-formed instruction decodes to it, and an
accepted word is the word of its instruction. -/

namespace Sys2Proof

/-! ### Acceptance (R245) -/

section
variable {xs : List (Nat × Bool)} {i j : Instr}

theorem Instr.badField_eq_none : i.badField = none ↔ i.checks.all (·.2) = true := by
  simp [Instr.badField]
theorem Instr.wf_iff : i.wf = true ↔ i.isWord = true ∧ i.checks.all (·.2) = true := by
  simp [Instr.wf]

/-- A word is accepted exactly when its unused fields are zero and its own checks hold. -/
theorem accept_eq_ok : accept xs j = .ok i ↔ j = i ∧ xs.all (·.2) = true ∧ j.checks.all (·.2) = true := by
  have hfaults : (xs.filter fun x => !x.2).map (·.1) ++ j.badField.toList = [] ↔
      xs.all (·.2) = true ∧ j.checks.all (·.2) = true := by
    rw [List.append_eq_nil_iff, Option.toList_eq_nil_iff, Instr.badField_eq_none]
    simp
  unfold accept
  split
  · next hnil => simp [hfaults.1 hnil]
  · next f fs hcons =>
    have hno : ¬(xs.all (·.2) = true ∧ j.checks.all (·.2) = true) := fun h => by
      simp [hfaults.2 h] at hcons
    simp only [reduceCtorEq, hno, and_false]

theorem accept_of_wf (hj : j = i) (hx : xs.all (·.2) = true) (hi : i.wf = true) : accept xs j = .ok i :=
  accept_eq_ok.2 ⟨hj, hx, hj ▸ (Instr.wf_iff.1 hi).2⟩

end

/-! ### The fields of a word (R244, R248) -/

section
variable {op d a b c f imm off sp fs sz sg cnd : Nat}

theorem fA_fields (hop : op < 64) (hd : d < 32) (ha : a < 32) (hb : b < 32) (hc : c < 32) (hf : f < 64) :
    fA op d a b c f < 4294967296 ∧ fA op d a b c f / 2 ^ 26 % 64 = op ∧ fA op d a b c f / 2 ^ 21 % 32 = d ∧
      fA op d a b c f / 2 ^ 16 % 32 = a ∧ fA op d a b c f / 2 ^ 11 % 32 = b ∧ fA op d a b c f / 2 ^ 6 % 32 = c ∧
      fA op d a b c f % 64 = f := by
  unfold fA; omega
theorem fI_fields (hop : op < 64) (hd : d < 32) (ha : a < 32) (himm : imm < 65536) :
    fI op d a imm < 4294967296 ∧ fI op d a imm / 2 ^ 26 % 64 = op ∧ fI op d a imm / 2 ^ 21 % 32 = d ∧
      fI op d a imm / 2 ^ 16 % 32 = a ∧ fI op d a imm % 2 ^ 16 = imm := by
  unfold fI; omega
theorem fM_fields (hop : op < 64) (hd : d < 32) (ha : a < 32) (hsp : sp < 8) (hsz : sz < 4) (hsg : sg < 2) (hoff : off < 1024) :
    fM op d a sp sz sg off < 4294967296 ∧ fM op d a sp sz sg off / 2 ^ 26 % 64 = op ∧
      fM op d a sp sz sg off / 2 ^ 21 % 32 = d ∧ fM op d a sp sz sg off / 2 ^ 16 % 32 = a ∧
      fM op d a sp sz sg off / 2 ^ 13 % 8 = sp ∧ fM op d a sp sz sg off / 2 ^ 11 % 4 = sz ∧
      fM op d a sp sz sg off / 2 ^ 10 % 2 = sg ∧ fM op d a sp sz sg off % 2 ^ 10 = off := by
  unfold fM; omega
theorem fVM_fields (hop : op < 64) (hd : d < 32) (ha : a < 32) (hfs : fs < 32) (hsp : sp < 8) (hoff : off < 256) :
    fVM op d a fs sp off < 4294967296 ∧ fVM op d a fs sp off / 2 ^ 26 % 64 = op ∧ fVM op d a fs sp off / 2 ^ 21 % 32 = d ∧
      fVM op d a fs sp off / 2 ^ 16 % 32 = a ∧ fVM op d a fs sp off / 2 ^ 11 % 32 = fs ∧
      fVM op d a fs sp off / 2 ^ 8 % 8 = sp ∧ fVM op d a fs sp off % 2 ^ 8 = off := by
  unfold fVM; omega
theorem fB_fields (hcnd : cnd < 16) (ha : a < 32) (hb : b < 32) (hoff : off < 4096) :
    fB cnd a b off < 4294967296 ∧ fB cnd a b off / 2 ^ 26 % 64 = 13 ∧ fB cnd a b off / 2 ^ 22 % 16 = cnd ∧
      fB cnd a b off / 2 ^ 17 % 32 = a ∧ fB cnd a b off / 2 ^ 12 % 32 = b ∧ fB cnd a b off % 2 ^ 12 = off := by
  unfold fB; omega
theorem fJ_fields (hop : op < 64) (hoff : off < 67108864) :
    fJ op off < 4294967296 ∧ fJ op off / 2 ^ 26 % 64 = op ∧ fJ op off % 2 ^ 26 = off := by
  unfold fJ; omega

theorem AccKind.code_lt (k : AccKind) : k.code < 8 := by cases k <;> decide
theorem AccKind.ofCode_code (k : AccKind) : AccKind.ofCode k.code = k := by cases k <;> rfl
theorem AccKind.code_ofCode {n : Nat} (hn : n < 8) : (AccKind.ofCode n).code = n := by revert n; decide
/-- A bit of a word, and the flag that it stands for. -/
theorem toNat_beq_one (b : Bool) : (b.toNat == 1) = b := by cases b <;> rfl
theorem beq_one_toNat {n : Nat} (hn : n < 2) : (n == 1).toNat = n := by revert n; decide
theorem mod_two_beq_one_toNat (n : Nat) : (n % 2 == 1).toNat = n % 2 := beq_one_toNat (Nat.mod_lt n (by decide))

end

/-! ### The groups of format A (R250) -/

/-- The decoder of a group of format A, by major opcode. -/
def groupA : Nat → Option (Nat → Nat → Nat → Nat → Nat → Except Nat Instr)
  | 0 => decSys | 1 => decAlu | 6 => decShi | 12 => decAmo | 16 => decJmpr | 22 => decSync | 23 => decTask | 24 => decMsg
  | 25 => decEng | 28 => decValu | 29 => decVcmp | 30 => decVcvt | 31 => decVsfu | 32 => decVred | 33 => decStrm
  | 36 => decIar | 37 => decIct | 38 => decIpr | 39 => decMtx | 40 => decView | 41 => decHnd | 42 => decFmt | 43 => decVmem
  | _ => none

section
variable {op d a b c f : Nat} {dec : Nat → Nat → Nat → Nat → Nat → Except Nat Instr} {i : Instr}

/-- A word of a group is read by the group's decoder. -/
theorem decodeWord_of_group {w : Nat} (hg : groupA (w / 2 ^ 26 % 64) = some dec) :
    decodeWord w = dec (w / 2 ^ 21 % 32) (w / 2 ^ 16 % 32) (w / 2 ^ 11 % 32) (w / 2 ^ 6 % 32) (w % 64) := by
  unfold decodeWord
  generalize w / 2 ^ 26 % 64 = op at hg
  unfold groupA at hg
  split at hg <;> cases hg <;> rfl

theorem groupA_lt (hg : groupA op = some dec) : op < 64 := by
  unfold groupA at hg
  split at hg
  case h_24 => cases hg
  all_goals decide

end

/-! ### From an instruction to its word and back -/

/-- The word of an instruction fits in 32 bits and decodes to it. -/
def RoundTrips (i : Instr) : Prop := encode i < 4294967296 ∧ decodeWord (encode i) = .ok i

/-- A word of format A decodes to what its group's decoder makes of its fields. -/
theorem roundTrips_of_group {op d a b c f : Nat} {dec : Nat → Nat → Nat → Nat → Nat → Except Nat Instr} {i : Instr}
    (hg : groupA op = some dec) (he : encode i = fA op d a b c f) (hfit : d < 32 ∧ a < 32 ∧ b < 32 ∧ c < 32 ∧ f < 64)
    (hdec : dec d a b c f = .ok i) : RoundTrips i := by
  obtain ⟨hd, ha, hb, hc, hf⟩ := hfit
  obtain ⟨hlt, eop, ed, ea, eb, ec, ef⟩ := fA_fields (groupA_lt hg) hd ha hb hc hf
  refine ⟨he ▸ hlt, ?_⟩
  rw [he, decodeWord_of_group (by rw [eop, hg]), ed, ea, eb, ec, ef, hdec]

/-- Is the word of format A (R244)? -/
def Instr.formatA : Instr → Bool
  | .addi .. | .andi .. | .ori .. | .xori .. | .movi .. | .movk .. | .slti .. | .loop .. | .csrr .. | .csrw ..
  | .csrs .. | .csrc .. | .ld .. | .st .. | .vld .. | .vst .. | .ild .. | .ist .. | .beq .. | .bne .. | .blt ..
  | .bge .. | .bltu .. | .bgeu .. | .bz .. | .bnz .. | .j .. | .jal .. | .hintImm | .hintMod | .hintDly | .hintPrf => false
  | _ => true
/-- Do two operands share a field of the word, or an operand a field with the function (R250)? -/
def Instr.sharesField : Instr → Bool
  | .start .. | .joinh .. | .preduce .. | .shli .. | .shri .. | .srai .. | .aadd .. | .aand .. | .aor .. | .axor ..
  | .amin .. | .amax .. | .aminu .. | .amaxu .. | .aswp .. | .acas .. | .afadd .. | .ainc .. => true
  | _ => false

/-- Each field of the word is an operand, a flag, zero or the function. -/
theorem roundTrips_of_formatA {i : Instr} (h : i.wf = true) (hA : i.formatA = true) (hs : i.sharesField = false) : RoundTrips i := by
  have hb := (Instr.wf_iff.1 h).2
  cases i with
  | wfi | pgate | cstop | cresume | launch | qpost | tlbinvAsid | tlbinvPage | add | sub | and | or | xor | shl | shr
  | sra | mul | mulh | mulhu | div | divu | rem | remu | min | max | minu | maxu | slt | sltu | seq | sel | clz | ctz
  | popc | addw | subw | mkpa | mkpaRel | jr | jalr | fenceX | bdom | bexp | mwait | waitt | ewait | tpost | tpostC
  | tsteal | tjoin | twait | pcall | qinfo | send | sende | recv | rpeek | gpost | msend | mcap | vadd | vsub | vmul
  | vfma | vfms | vmin | vmax | vminp | vmaxp | vabs | vneg | vand | vor | vxor | vnot | vshl | vshr | vsra | vadds
  | vsubs | vmov | vcmpeq | vcmplt | vcmple | vcmpne | vsel | vperm | vslide | pand | por | pnot | pcnt | vquant
  | vscale | vpack | vexp2 | vlog2 | vrcp | vrsqrt | vsqrt | vdiv | vtanh | vsigm | vrsum | vrmax | vrmin | vbcast
  | vmovx | vins | vrsump | sbind | sfree | sstat | iadd | isub | imul | idiv | isqr | isqrt | iexp2 | ilog2 | imin
  | imax | irelu | ineg | iabs | ifma | iscale | cadd | csub | cmul | cdiv | csqr | csqrt | cexp2 | cmax | cmin | crelu
  | cabs | ihull | imeet | isplit | iclt | icle | iceq | isubset | idisj | iisemp | qand | qor | qnot | qsel | iprog
  | mma64 | vwreg | vwdel | vwsync | vwpol | vwstat | vwkick | hld | hqry | hclr | fmtset | fmtget | vlds | vldm | vstm
  | vldi | vsti =>
    simp only [Instr.checks, List.all_cons, List.all_nil, Bool.and_eq_true, decide_eq_true_eq] at hb
    exact roundTrips_of_group rfl rfl (by omega) (accept_of_wf rfl rfl h)
  | nop | halt | yield | trap | scall | eret | tlbinvAll | brk | ret | fenceO | pwait | snapinv | xend | tret
  | tleave =>
    exact roundTrips_of_group rfl rfl (by decide) rfl
  | msync l => cases l <;> exact roundTrips_of_group rfl rfl (by decide) rfl
  | vzip d a b hi | vunzip d a b hi | vunpk d a hi | imid d a hi | irad d a hi | iwid d a hi | imk d a b hi | ilo d a hi
  | ihi d a hi | iempty d hi | qall d a hi | qany d a hi | mzero d hi | mstat d a hi | vsts d a b hi | phase b hi
  | parrive b hi | xbegin b hi =>
    simp only [Instr.checks, List.all_cons, List.all_nil, Bool.and_eq_true, decide_eq_true_eq] at hb
    have hhi := hi.toNat_lt
    exact roundTrips_of_group rfl rfl (by omega) (by cases hi <;> exact accept_of_wf rfl rfl h)
  | vretag d a b ireg | vtagr d a ireg =>
    have hreg : (if ireg then 16 else 32) ≤ 32 := by cases ireg <;> decide
    simp only [Instr.checks, List.all_cons, List.all_nil, Bool.and_eq_true, decide_eq_true_eq] at hb
    have hireg := ireg.toNat_lt
    exact roundTrips_of_group rfl rfl (by omega) (by cases ireg <;> exact accept_of_wf rfl rfl h)
  | mon | vcvt | vdeq | mma | mmaiv | mldw | mdrain =>
    simp only [Instr.checks, List.all_cons, List.all_nil, Bool.and_eq_true, decide_eq_true_eq] at hb
    exact roundTrips_of_group rfl rfl (by omega)
      (accept_of_wf (by simp (disch := omega) only [Nat.mod_eq_of_lt]) (by simp (disch := omega) [Nat.div_eq_of_lt]) h)
  | start | joinh | preduce | shli | shri | srai | aadd | aand | aor | axor | amin | amax | aminu | amaxu | aswp | acas
  | afadd | ainc => cases hs
  | addi | andi | ori | xori | movi | movk | slti | loop | csrr | csrw | csrs | csrc | ld | st | vld | vst | ild | ist
  | beq | bne | blt | bge | bltu | bgeu | bz | bnz | j | jal | hintImm | hintMod | hintDly | hintPrf => cases hA
  | _ => exact absurd h Bool.false_ne_true

/-- A field holds two operands, or an operand and the function. -/
theorem roundTrips_of_sharesField {i : Instr} (h : i.wf = true) (hs : i.sharesField = true) : RoundTrips i := by
  have hb := (Instr.wf_iff.1 h).2
  cases i with
  | start a b n keep =>
    simp only [Instr.checks, List.all_cons, List.all_nil, Bool.and_eq_true, decide_eq_true_eq] at hb
    have hkeep := keep.toNat_lt
    have hn : (n * 2 + keep.toNat) / 2 = n := by omega
    have hbit : (n * 2 + keep.toNat) % 2 = keep.toNat := by omega
    exact roundTrips_of_group rfl rfl (by omega) (accept_of_wf (by rw [hn, hbit, toNat_beq_one]) rfl h)
  | joinh n =>
    simp only [Instr.checks, List.all_cons, List.all_nil, Bool.and_eq_true, decide_eq_true_eq] at hb
    exact roundTrips_of_group rfl rfl (by omega) (accept_of_wf (by rw [Nat.mul_div_cancel n (by decide)]) (by simp) h)
  | preduce a b ex ty op =>
    simp only [Instr.checks, List.all_cons, List.all_nil, Bool.and_eq_true, decide_eq_true_eq] at hb
    have hbit := ex.toNat_lt
    have hex : (ex.toNat * 16 + ty * 4 + op) / 16 = ex.toNat := by omega
    have hty : (ex.toNat * 16 + ty * 4 + op) / 4 % 4 = ty := by omega
    have hop : (ex.toNat * 16 + ty * 4 + op) % 4 = op := by omega
    exact roundTrips_of_group rfl rfl (by omega) (accept_of_wf (by rw [hex, hty, hop, toNat_beq_one]) rfl h)
  | shli d a n n5 | shri d a n n5 | srai d a n n5 =>
    simp only [Instr.checks, List.all_cons, List.all_nil, Bool.and_eq_true, decide_eq_true_eq] at hb
    obtain rfl | rfl : n5 = 0 ∨ n5 = 1 := by omega
    all_goals exact roundTrips_of_group rfl rfl (by omega) (accept_of_wf rfl rfl h)
  | aadd d a b ord scope anch | aand d a b ord scope anch | aor d a b ord scope anch | axor d a b ord scope anch
  | amin d a b ord scope anch | amax d a b ord scope anch | aminu d a b ord scope anch | amaxu d a b ord scope anch
  | aswp d a b ord scope anch | acas d a b ord scope anch | afadd d a b ord scope anch | ainc d a ord scope anch =>
    simp only [Instr.checks, List.all_cons, List.all_nil, Bool.and_eq_true, decide_eq_true_eq] at hb
    have hord : (ord * 8 + scope) / 8 = ord := by omega
    have hscope : (ord * 8 + scope) % 8 = scope := by omega
    have hanch := anch.toNat_lt
    exact roundTrips_of_group rfl rfl (by omega) (by cases anch <;> exact accept_of_wf (by rw [hord, hscope]; rfl) rfl h)
  | _ => cases hs

/-- Formats I, M, VM, B, J and H. -/
theorem roundTrips_of_not_formatA {i : Instr} (h : i.wf = true) (hA : i.formatA = false) : RoundTrips i := by
  have hb := (Instr.wf_iff.1 h).2
  unfold RoundTrips
  cases i with
  | addi | andi | ori | xori | movi | movk | slti | loop | csrr | csrw | csrs | csrc =>
    simp only [Instr.checks, List.all_cons, List.all_nil, Bool.and_eq_true, decide_eq_true_eq] at hb
    simp (disch := omega) only [encode, decodeWord, fI_fields, true_and]
    exact accept_of_wf rfl rfl h
  | ld d a k sz sg off =>
    simp only [Instr.checks, List.all_cons, List.all_nil, Bool.and_eq_true, decide_eq_true_eq] at hb
    have hk := k.code_lt
    have hsg := sg.toNat_lt
    simp (disch := omega) only [encode, decodeWord, fM_fields, true_and, AccKind.ofCode_code, toNat_beq_one]
    exact accept_of_wf rfl rfl h
  | st d a k sz off =>
    simp only [Instr.checks, List.all_cons, List.all_nil, Bool.and_eq_true, decide_eq_true_eq] at hb
    have hk := k.code_lt
    simp (disch := omega) only [encode, decodeWord, fM_fields, true_and, AccKind.ofCode_code]
    exact accept_of_wf rfl rfl h
  | vld d a fs k off | vst d a fs k off | ild d a fs k off | ist d a fs k off =>
    simp only [Instr.checks, List.all_cons, List.all_nil, Bool.and_eq_true, decide_eq_true_eq] at hb
    have hk := k.code_lt
    simp (disch := omega) only [encode, decodeWord, fVM_fields, true_and, AccKind.ofCode_code]
    exact accept_of_wf rfl rfl h
  | beq | bne | blt | bge | bltu | bgeu | bz | bnz =>
    simp only [Instr.checks, List.all_cons, List.all_nil, Bool.and_eq_true, decide_eq_true_eq] at hb
    simp (disch := omega) only [encode, decodeWord, fB_fields, true_and]
    exact accept_of_wf rfl rfl h
  | j | jal =>
    simp only [Instr.checks, List.all_cons, List.all_nil, Bool.and_eq_true, decide_eq_true_eq] at hb
    simp (disch := omega) only [encode, decodeWord, fJ_fields, true_and]
    exact accept_of_wf rfl rfl h
  | hintImm | hintMod | hintDly | hintPrf => exact ⟨by decide, rfl⟩
  | _ => cases hA

theorem roundTrips_of_wf {i : Instr} (h : i.wf = true) : RoundTrips i := by
  cases hA : i.formatA
  case false => exact roundTrips_of_not_formatA h hA
  case true =>
    cases hs : i.sharesField
    case false => exact roundTrips_of_formatA h hA hs
    case true => exact roundTrips_of_sharesField h hs

/-! ### From a word to its instruction and back -/

/-- The words whose payload is no part of the instruction. -/
def payloadWords : List Instr := [.hintImm, .hintMod, .hintDly, .hintPrf, .trap, .scall, .brk]
/-- An instruction that answer r accepts for word w is well-formed and, but for a payload, w is its word. -/
def Faithful (w : Nat) (r : Except Nat Instr) : Prop :=
  ∀ i, r = .ok i → i.wf = true ∧ (i ∉ payloadWords → encode i = w)

section
variable {w op d a b c f k : Nat} {xs : List (Nat × Bool)} {j : Instr} {r : Except Nat Instr}
  {dec : Nat → Nat → Nat → Nat → Nat → Except Nat Instr}

theorem faithful_error : Faithful w (.error f) := fun _ h => nomatch h
theorem faithful_accept (hj : j.isWord = true) (he : xs.all (·.2) = true → encode j = w) : Faithful w (accept xs j) := by
  intro i h
  obtain ⟨rfl, hx, hc⟩ := accept_eq_ok.1 h
  exact ⟨Instr.wf_iff.2 ⟨hj, hc⟩, fun _ => he hx⟩
theorem faithful_payload (hj : j.isWord = true) (hp : j ∈ payloadWords) : Faithful w (accept xs j) := by
  intro i h
  obtain ⟨rfl, -, hc⟩ := accept_eq_ok.1 h
  exact ⟨Instr.wf_iff.2 ⟨hj, hc⟩, fun hn => absurd hp hn⟩
theorem decSys_faithful : Faithful (fA 0 d a b c f) (decSys d a b c f) := by
  simp only [decSys, beq_iff_eq]
  split
  case h_13 | h_14 | h_16 => exact faithful_payload rfl (by decide)
  case h_17 => exact faithful_error
  all_goals repeat' split
  all_goals
    refine faithful_accept rfl ?_
    simp +contextual [encode, mod_two_beq_one_toNat] <;> (unfold fA; omega)

/-- An accepted word of a group has every field where its instruction's encoding puts it. -/
theorem group_faithful (hg : groupA op = some dec) (hc : c < 32) (hf : f < 64) : Faithful (fA op d a b c f) (dec d a b c f) := by
  have hex : (c / 16 == 1).toNat = c / 16 := beq_one_toNat (by omega)
  have hanch : (f / 32 == 1).toNat = f / 32 := beq_one_toNat (by omega)
  unfold groupA at hg
  split at hg
  all_goals cases hg
  case h_1 => exact decSys_faithful
  all_goals
    simp only [decAlu, decShi, decAmo, decJmpr, decSync, decTask, decMsg, decEng, decValu, decVcmp, decVcvt, decVsfu, decVred,
      decStrm, decIar, decIct, decIpr, decMtx, decView, decHnd, decFmt, decVmem, beq_iff_eq]
    repeat' split
  any_goals with_reducible exact faithful_error
  all_goals
    refine faithful_accept rfl ?_
    simp +contextual [encode, mod_two_beq_one_toNat, hex, hanch] <;> (unfold fA; omega)

theorem decBr_faithful {cnd off : Nat} : Faithful (fB cnd a b off) (decBr cnd a b off) := by
  unfold decBr
  split
  case h_9 => exact faithful_error
  all_goals
    refine faithful_accept rfl ?_
    simp +contextual [encode]

theorem decHint_faithful : Faithful w (decHint k w) := by
  unfold decHint
  split
  case h_5 => exact faithful_error
  all_goals exact faithful_payload rfl (by decide)

/-- A word of a group, by its fields. -/
theorem word_faithful_of_group (hw : w < 4294967296) (hop : w / 2 ^ 26 % 64 = op) (hg : groupA op = some dec) :
    Faithful w (dec (w / 2 ^ 21 % 32) (w / 2 ^ 16 % 32) (w / 2 ^ 11 % 32) (w / 2 ^ 6 % 32) (w % 64)) := by
  have hfields : fA op (w / 2 ^ 21 % 32) (w / 2 ^ 16 % 32) (w / 2 ^ 11 % 32) (w / 2 ^ 6 % 32) (w % 64) = w := by
    unfold fA; omega
  have h := group_faithful (d := w / 2 ^ 21 % 32) (a := w / 2 ^ 16 % 32) (b := w / 2 ^ 11 % 32) hg
    (Nat.mod_lt (w / 2 ^ 6) (by decide : 0 < 32)) (Nat.mod_lt w (by decide : 0 < 64))
  rwa [hfields] at h

theorem decodeWord_faithful (hw : w < 4294967296) : Faithful w (decodeWord w) := by
  unfold decodeWord
  dsimp only
  split
  any_goals (rename_i hop; exact word_faithful_of_group hw hop rfl)
  case h_14 hop =>
    have hfields : fB (w / 2 ^ 22 % 16) (w / 2 ^ 17 % 32) (w / 2 ^ 12 % 32) (w % 2 ^ 12) = w := by unfold fB; omega
    have h := decBr_faithful (cnd := w / 2 ^ 22 % 16) (a := w / 2 ^ 17 % 32) (b := w / 2 ^ 12 % 32) (off := w % 2 ^ 12)
    rwa [hfields] at h
  case h_45 => exact decHint_faithful
  case h_46 => exact faithful_error
  all_goals
    refine faithful_accept rfl ?_
    simp +contextual (disch := omega) only [List.all_cons, List.all_nil, Bool.and_eq_true, beq_iff_eq, encode, AccKind.code_ofCode,
      mod_two_beq_one_toNat, fI, fM, fVM, fJ]
    omega

end

end Sys2Proof

namespace Sys2Proof.Proofs

/-- Settles O33: the word of an instruction is laid out by its format, whose fields the decoder reads back; the group of its opcode then
reads the instruction, whose own checks hold. -/
theorem decodeEncode : Obligations.DecodeEncode := by
  unfold Obligations.DecodeEncode
  exact fun _ h => roundTrips_of_wf h

/-- Settles O34: each answer of the decoder is an acceptance of an instruction whose encoding puts the word's fields back in their places,
the unused ones being zero. -/
theorem encodeDecode : Obligations.EncodeDecode := by
  unfold Obligations.EncodeDecode
  exact fun _ i hw h => decodeWord_faithful hw i h

end Sys2Proof.Proofs
end

section
/-! PROOF. Words written out from the encodings, and words of reserved opcodes (10_encoding R243 to R251; 21_traps R413). -/

namespace Sys2Proof

/-- A word that is an encoding decodes to its instruction. -/
theorem decodeWord_of_encode {w : Nat} {i : Instr} (h : i.wf = true ∧ encode i = w) : decodeWord w = .ok i :=
  h.2 ▸ (roundTrips_of_wf h.1).2

/-- Opcodes 44 to 62 are reserved (R250). -/
theorem decodeWord_of_reserved_opcode {w : Nat} (hlo : 44 ≤ w / 2 ^ 26 % 64) (hhi : w / 2 ^ 26 % 64 < 63) : decodeWord w = .error 1 := by
  unfold decodeWord
  generalize w / 2 ^ 26 % 64 = op at hlo hhi
  dsimp only
  split
  case h_46 => rfl
  all_goals omega

end Sys2Proof

namespace Sys2Proof.Proofs

/-- Settles O32: the words of the first list are the encodings of their instructions, which are well-formed; the others are decoded as they
stand, and a reserved opcode has no row in the map. -/
theorem decodeWords : Obligations.DecodeWords := by
  unfold Obligations.DecodeWords
  refine ⟨fun e he => decodeWord_of_encode ?_, ?_, fun op hlo hhi r hr => ?_, rfl, rfl, rfl, rfl, rfl, rfl⟩
  · revert e he
    decide
  · simp only [List.forall_mem_cons, List.not_mem_nil, false_imp_iff, implies_true, and_true]
    exact ⟨rfl, rfl, rfl, rfl⟩
  · have hop : (op * 67108864 + r) / 2 ^ 26 % 64 = op := by omega
    exact decodeWord_of_reserved_opcode (by omega) (by omega)

end Sys2Proof.Proofs
end

section
/-! PROOF. The hint words (10_encoding R252 to R257). -/

namespace Sys2Proof.Machine

section
variable {s t : State}

/-- A hint whose payload holds no reserved value has its effect. -/
theorem hintEnd_of_accepted (hbad : s.bad = none) : hintEnd s t = .next t := by simp only [hintEnd, hbad]

theorem execHintImm_of_room (hbad : s.bad = none) (himm : (s.ctx s.cur).chainImm = none) (hmod : (s.ctx s.cur).chainMod = none) :
    execHintImm s = .next (s.chain { s.ctx s.cur with chainImm := some (s.ir.toNat % 4194304) }) := by
  simp only [execHintImm, himm, hmod, hintEnd_of_accepted hbad]
/-- HINT.MOD may follow HINT.IMM in a chain (R252). -/
theorem execHintMod_of_room (hbad : s.bad = none) (hmod : (s.ctx s.cur).chainMod = none) :
    execHintMod s = .next (s.chain { s.ctx s.cur with chainMod := some (s.ir.toNat % 4194304) }) := by
  cases himm : (s.ctx s.cur).chainImm <;> simp only [execHintMod, himm, hmod, hintEnd_of_accepted hbad]

theorem execHintPrf_of_no_chain (hbad : s.bad = none) (hpc : (s.ctx s.cur).chainPc = none) :
    execHintPrf s = .next (s.advance s.cur) := by
  simp only [execHintPrf, hpc, Option.isSome_none, Bool.false_eq_true, if_false, hintEnd_of_accepted hbad]

/-- A delay of no cycles, and one in timed exchange, holds the next issue back (R256). -/
theorem execHintDly_in_place (hbad : s.bad = none) (hpc : (s.ctx s.cur).chainPc = none)
    (hnow : (s.ctx s.cur).timed ≠ none ∨ s.ir.toNat % 4096 = 0) :
    execHintDly s = .next (s.setCtx s.cur { s.ctx s.cur with
      pc := (s.ctx s.cur).pc + 4, notBefore := max (s.ctx s.cur).notBefore (s.cyc + s.ir.toNat % 4096 + 1), resumeAt := 0 }) := by
  have hgo : (s.ctx s.cur).timed.isSome = true ∨ s.ir.toNat % 4096 = 0 := hnow.imp_left Option.isSome_iff_ne_none.2
  simp only [execHintDly, hpc, Option.isSome_none, Bool.false_eq_true, if_false, if_pos hgo, hintEnd_of_accepted hbad]
/-- Any other is a wait that its expiry ends (R256). -/
theorem execHintDly_waits (hbad : s.bad = none) (hpc : (s.ctx s.cur).chainPc = none)
    (htimed : (s.ctx s.cur).timed = none) (hn : s.ir.toNat % 4096 ≠ 0) :
    execHintDly s = .next ((s.sleep s.cur .delay).after (s.ir.toNat % 4096 + 1) .delayExpiry
      { ctx := s.cur, ns := [(s.ctx s.cur).waitNo + 1] }) := by
  have hwait : ((s.sleep s.cur .delay).ctx s.cur).waitNo = (s.ctx s.cur).waitNo + 1 := by simp [State.sleep]
  simp only [execHintDly, hpc, htimed, hn, Option.isSome_none, Bool.false_eq_true, false_or, if_false, hwait,
    hintEnd_of_accepted hbad]

end

end Sys2Proof.Machine

namespace Sys2Proof.Proofs
open Sys2Proof.Machine

/-- Settles O1: with no reserved value in its payload, each hint word is its effect, which the chain of its context lets it have. -/
theorem hintWords : Obligations.HintWords := by
  unfold Obligations.HintWords
  intro s x hbad
  exact ⟨
    fun himm hmod => execHintImm_of_room hbad himm hmod,
    fun hmod => execHintMod_of_room hbad hmod,
    fun hpc => execHintPrf_of_no_chain hbad hpc,
    fun hpc hnow => execHintDly_in_place hbad hpc hnow,
    fun hpc htimed hn => execHintDly_waits hbad hpc htimed hn⟩

end Sys2Proof.Proofs
end

section
/-! PROOF. Access to CSRs (10_encoding R258; 11_isa_scalar R280, R281). -/

namespace Sys2Proof.Machine

section
variable {g : Sig} {s t t' : State} {o : Opnds} {early : Chk Unit} {late : Opnds → Chk Unit} {body : Opnds → State → Chk Out}
  {n : Nat} {wr : Bool}

theorem wordWith_of_prep (h : prep g s = .ok (o, t)) (hlate : late o = .ok ()) :
    wordWith g s early late body = .next (s.finish s.cur (body o t)) := by
  simp only [wordWith, h, hlate]; rfl
/-- A cause of the word's own comes before that of a link, a stream or memory (R418). -/
theorem wordWith_early {v why : Trap} (h : prep g s = .error (.trap v)) (hv : 4 < v.cause) (hearly : early = .error (.trap why)) :
    wordWith g s early late body = .next (s.takeTrap s.cur why (s.ctx s.cur).resume s.ir.toNat) := by
  simp only [wordWith, h, if_neg (Nat.not_le.2 hv), hearly]; rfl

/-! ### Numbers and levels (R258, R415) -/

theorem State.csrLegal_unassigned (h : csrKnown n = false) : s.csrLegal n wr = trap 1 0 s.ir.toNat := by
  simp only [State.csrLegal, h]; rfl
theorem State.csrLegal_priv (h : csrKnown n = true) (hp : csrPriv n wr (s.ctx s.cur).level = true) :
    s.csrLegal n wr = trap 2 0 s.ir.toNat := by
  simp only [State.csrLegal, h, hp]; rfl
theorem csrPriv_of_level {lv : Level} (h : (lv = .u ∧ 2048 ≤ n ∧ n ≤ 2303) ∨ (lv ≠ .h ∧ 3072 ≤ n ∧ n ≤ 4095) ∨
    (lv = .u ∧ n = 9 ∧ wr = true)) : csrPriv n wr lv = true := by
  rcases h with ⟨rfl, hlo, hhi⟩ | ⟨hlv, hlo, hhi⟩ | ⟨rfl, rfl, rfl⟩
  · simp [csrPriv, hlo, hhi]
  · simp [csrPriv, hlo, hhi, hlv]
  · rfl

/-! ### Reads and writes (R280, R281) -/

/-- A CSR word that may have its access, and waits for no update, is its effect. -/
theorem csrWord_of_prep (h : prep g s = .ok (o, t)) (hlegal : s.csrLegal n wr = .ok ()) (hwait : t.csrWait t.cur n = .ok ()) :
    csrWord g n wr s body = .next (s.finish s.cur (body o t)) := by
  rw [csrWord, wordWith_of_prep h hlegal, hwait]; rfl

variable {d a : Nat}

theorem execCsrr_of_prep (h : prep { d := Machine.wr .x d, dd := true } s = .ok (o, t)) (hlegal : s.csrLegal n false = .ok ())
    (hwait : t.csrWait t.cur n = .ok ()) (hput : (t.csrRead t.cur n).1.putX t.cur o d (t.csrRead t.cur n).2 = .ok t') :
    execCsrr d n s = .next (t'.advance s.cur) := by
  rw [execCsrr, csrWord_of_prep h hlegal hwait]
  dsimp only
  rw [retX_ok hput, State.finish]
/-- CSRW with nowhere for the old value does not read (R280). -/
theorem execCsrw_without_read (h : prep (rr 0 a) s = .ok (o, t)) (hlegal : s.csrLegal n true = .ok ())
    (hwait : t.csrWait t.cur n = .ok ()) (hdst : o.m.dst = 0) :
    execCsrw 0 a n s = .next ((t.csrWrite t.cur n o.a).advance s.cur) := by
  rw [execCsrw, csrWord_of_prep h hlegal hwait]
  dsimp only
  rw [if_pos ⟨rfl, hdst⟩]; rfl
theorem execCsrw_of_prep (h : prep (rr d a) s = .ok (o, t)) (hlegal : s.csrLegal n true = .ok ())
    (hwait : t.csrWait t.cur n = .ok ()) (hd : d ≠ 0)
    (hput : ((t.csrRead t.cur n).1.csrWrite t.cur n o.a).putX t.cur o d (t.csrRead t.cur n).2 = .ok t') :
    execCsrw d a n s = .next (t'.advance s.cur) := by
  rw [execCsrw, csrWord_of_prep h hlegal hwait]
  dsimp only
  rw [if_neg (fun hno => hd hno.1), retX_ok hput, State.finish]
theorem execCsrs_of_prep (h : prep (rr d a) s = .ok (o, t)) (hlegal : s.csrLegal n true = .ok ())
    (hwait : t.csrWait t.cur n = .ok ())
    (hput : ((t.csrRead t.cur n).1.csrWrite t.cur n ((t.csrRead t.cur n).2 ||| o.a)).putX t.cur o d (t.csrRead t.cur n).2 = .ok t') :
    execCsrs d a n s = .next (t'.advance s.cur) := by
  rw [execCsrs, csrWord_of_prep h hlegal hwait]
  dsimp only
  rw [retX_ok hput, State.finish]
theorem execCsrc_of_prep (h : prep (rr d a) s = .ok (o, t)) (hlegal : s.csrLegal n true = .ok ())
    (hwait : t.csrWait t.cur n = .ok ())
    (hput : ((t.csrRead t.cur n).1.csrWrite t.cur n ((t.csrRead t.cur n).2 &&& (18446744073709551615 - o.a))).putX t.cur o d
      (t.csrRead t.cur n).2 = .ok t') :
    execCsrc d a n s = .next (t'.advance s.cur) := by
  rw [execCsrc, csrWord_of_prep h hlegal hwait]
  dsimp only
  rw [retX_ok hput, State.finish]
/-- What stands in the way of a CSR access is taken before the cause of an operand (R418). -/
theorem execCsrs_refused {v why : Trap} (h : prep (rr d a) s = .error (.trap v)) (hv : 4 < v.cause)
    (hlegal : s.csrLegal n true = .error (.trap why)) :
    execCsrs d a n s = .next (s.takeTrap s.cur why (s.ctx s.cur).resume s.ir.toNat) :=
  wordWith_early h hv hlegal

end

end Sys2Proof.Machine

namespace Sys2Proof.Proofs
open Sys2Proof.Machine Sys2Proof.Claims

theorem csrWords : CsrWords := fun _ _ _ => ⟨
  fun _ _ _ _ h hlegal hwait hput => execCsrr_of_prep h hlegal hwait hput,
  fun _ _ _ h hlegal hwait hdst => execCsrw_without_read h hlegal hwait hdst,
  fun e he s o t t' h hlegal hwait hd hput => by
    simp only [List.mem_cons, List.not_mem_nil, or_false] at he
    obtain rfl | rfl | rfl := he
    · exact execCsrs_of_prep h hlegal hwait hput
    · exact execCsrc_of_prep h hlegal hwait hput
    · exact execCsrw_of_prep h hlegal hwait hd hput⟩

theorem csrRefusals : CsrRefusals := fun _ _ _ => ⟨
  fun hno => State.csrLegal_unassigned hno,
  fun hknown hlevel => State.csrLegal_priv hknown (csrPriv_of_level hlevel),
  fun _ _ _ _ h hv hlegal => execCsrs_refused h hv hlegal⟩

/-- Settles O44: a CSR word whose access is legal and awaits no update is its read, its write and its result; one whose access is not
takes the cause of that first. -/
theorem csrAccess : Obligations.CsrAccess := by
  unfold Obligations.CsrAccess
  exact ⟨csrWords, csrRefusals⟩

end Sys2Proof.Proofs
end

section
/-! PROOF. A scalar result: which parts of the machine the end of a word and a write of a register leave (11_isa_scalar R268; 21_traps
R411). -/

namespace Sys2Proof.Machine

section
variable {s t t' : State} {c : CtxId}

/-- The context of a word that completes: at the next word, with the chain used up (R252, R411). -/
theorem State.advance_ctx_self : (s.advance c).ctx c = { s.ctx c with
    pc := (s.ctx c).pc + 4, st := .ready, wait := .none, chainImm := none, chainMod := none, chainPc := none, resumeAt := 0, raised := false
    walked := none, syncTo := none } := by
  simp only [State.advance, State.goOn, State.ctx_setCtx, Ctx.used]
theorem State.advance_ctx_other {k : CtxId} (h : k ≠ c) : (s.advance c).ctx k = s.ctx k := by
  simp only [State.advance, State.goOn, State.ctx_setCtx_other _ _ _ h]

/-- A part of the state that no context's change touches, after a word that completes. -/
theorem State.advance_part {α : Type} {p : State → α} (hctx : ∀ t x, p (t.setCtx c x) = p t) : p (s.advance c) = p s := by
  simp only [State.advance, State.goOn, hctx]

@[simp] theorem State.ctx_wx (k : CtxId) (r v : Nat) : (s.wx k r v).ctx c = s.ctx c := by
  simp only [State.ctx, State.wx_ctxs]

/-- A scalar result without a direction, to a register to which no value is on its way, is a write of that register (R268). -/
theorem State.putX_ok_iff_of_complete {o : Opnds} {r v : Nat} (hdst : o.m.dst = 0) (hcomplete : t.pending c 1 r = false) :
    t.putX c o r v = .ok t' ↔ t.wx c r v = t' := by
  rw [putX_register hdst, cancel_complete hcomplete, Except.ok.injEq]

/-- A write of a scalar register leaves every byte outside its eight, and x0 takes none (R80, R268). -/
theorem State.get_wx_other (hwf : Mem.wf t.mem = true) {r v k : Nat} (hk : r = 0 ∨ k < t.win c + 8 * r ∨ t.win c + 8 * r + 8 ≤ k) :
    Mem.get (t.wx c r v).mem k = Mem.get t.mem k := by
  obtain rfl | hout := hk
  · rfl
  · exact (State.wx_leavesBeside hwf c r v).2 k (by simpa [regBytes] using hout)

end

end Sys2Proof.Machine

namespace Sys2Proof.Proofs
open Sys2Proof.Machine

/-- Settles O42: such a result is a write of its register, which changes memory alone, and the end of the word changes its context alone. -/
theorem frameOfAScalarResult : Obligations.FrameOfAScalarResult := by
  unfold Obligations.FrameOfAScalarResult
  intro t t' o r v hwf hdst hcomplete hput u
  obtain rfl := (State.putX_ok_iff_of_complete hdst hcomplete).1 hput
  have hself : u.ctx t.cur = _ := State.advance_ctx_self
  refine ⟨fun k hk => (State.get_wx_other hwf hk :), ?cores, ?clusters, ?homes, ?pylons, ?launches, ?flight, ?agenda, ?poison, ?cyc,
    fun c hc => (State.advance_ctx_other hc).trans (State.ctx_wx ..), ?self⟩
  case self => rw [hself, State.ctx_wx]
  all_goals exact (State.advance_part fun _ _ => rfl).trans (by simp)

end Sys2Proof.Proofs
end

section
/-! PROOF. Integer arithmetic: the machine's words against the numbers that the tables of the scalar family speak of (00_scope R8;
11_isa_scalar R268 to R274). -/

namespace Sys2Proof.Machine
open Sys2Proof.Claims

/-! ### Words and numbers (R8, R268) -/

theorem uns_lt (n : Nat) : uns n < 2 ^ 64 := Nat.mod_lt _ (by decide)
theorem uns_of_lt {n : Nat} (h : n < 2 ^ 64) : uns n = n := Nat.mod_eq_of_lt h
@[simp] theorem Word.toNat_ofN (n : Nat) : (Word.ofN n).toNat = uns n := BitVec.toNat_ofNat n 64
@[simp] theorem Word.toNat_ofI (n : Int) : (Word.ofI n).toNat = wrap64 n := BitVec.toNat_ofInt n

@[simp] theorem Word.toInt_ofN (n : Nat) : (Word.ofN n).toInt = sgn n := by
  have hn := Word.toNat_ofN n
  simp only [uns] at hn
  simp only [BitVec.toInt, hn, sgn, sext]
  split <;> split <;> omega

theorem wrap64_natCast (n : Nat) : wrap64 n = uns n := by
  simp only [wrap64, uns]
  omega
/-- The unsigned reading of a word is its signed one wrapped (R8). -/
theorem Word.toNat_eq_wrap64 (w : Word) : w.toNat = wrap64 w.toInt := by
  rw [← Word.toNat_ofI, Word.ofI, BitVec.ofInt_toInt]
theorem Word.ofN_inj {a b : Nat} : Word.ofN a = Word.ofN b ↔ uns a = uns b := by
  rw [← BitVec.toNat_inj, Word.toNat_ofN, Word.toNat_ofN]
theorem Word.ofN_eq_zero {a : Nat} : Word.ofN a = 0 ↔ uns a = 0 := Word.ofN_inj (b := 0)

@[simp] theorem flag_toNat (p : Bool) : (flag p).toNat = if p = true then 1 else 0 := by cases p <;> rfl

/-- Only the low n bits count for a number of n bits. -/
theorem sext_congr {v w n : Nat} (h : v % 2 ^ n = w % 2 ^ n) : sext v n = sext w n := by simp only [sext, h]
theorem bits_uns (v : Nat) {hi lo : Nat} (hlo : lo ≤ hi) (hhi : hi < 64) : bits (uns v) hi lo = bits v hi lo := by
  have hsplit : (18446744073709551616 : Nat) = 2 ^ lo * 2 ^ (64 - lo) := by
    rw [← Nat.pow_add, Nat.add_sub_cancel' (by omega)]
  rw [bits, bits, uns, hsplit, Nat.mod_mul_right_div_self, Nat.mod_mod_of_dvd _ (Nat.pow_dvd_pow 2 (by omega))]
theorem bit_uns (v : Nat) {n : Nat} (hn : n < 64) : bit (uns v) n = bit v n := by
  have hbits := bits_uns v (Nat.le_refl n) hn
  simp only [bits, Nat.add_sub_cancel_left, Nat.pow_one] at hbits
  rw [bit, bit, hbits]
theorem bits_lt (v hi lo : Nat) : bits v hi lo < 2 ^ (hi + 1 - lo) := Nat.mod_lt _ (Nat.two_pow_pos _)

/-! ### Counts of bits (R269) -/

theorem bit_succ (v n : Nat) : bit v (n + 1) = bit (v / 2) n := by
  rw [bit, bit, Nat.pow_succ', Nat.div_div_eq_div_mul]
theorem bit_zero (v : Nat) : bit v 0 = (v % 2 == 1) := by rw [bit, Nat.pow_zero, Nat.div_one]

theorem leadZeros_eq : ∀ (n : Nat) {v : Nat}, v < 2 ^ n → leadZeros v n = if v = 0 then n else n - 1 - Nat.log2 v
  | 0, v, hv => by simp [leadZeros, Nat.lt_one_iff.1 hv]
  | n + 1, v, hv => by
    have hquot : v / 2 ^ n < 2 := Nat.div_lt_of_lt_mul (by rwa [← Nat.pow_succ])
    obtain hzero | hone := Nat.le_one_iff_eq_zero_or_eq_one.1 (Nat.lt_succ_iff.1 hquot)
    · have hlow : v < 2 ^ n := (Nat.div_eq_zero_iff_lt (Nat.two_pow_pos n)).1 hzero
      rw [leadZeros, hzero, if_neg (by decide), leadZeros_eq n hlow]
      split
      · omega
      · next hpos =>
        have hlog := (Nat.log2_lt hpos).2 hlow
        omega
    · have hlow : 2 ^ n ≤ v := (Nat.one_le_div_iff (Nat.two_pow_pos n)).1 (Nat.le_of_eq hone.symm)
      have hpos : v ≠ 0 := Nat.ne_of_gt (Nat.lt_of_lt_of_le (Nat.two_pow_pos n) hlow)
      have hlog : v.log2 = n := (Nat.log2_eq_iff hpos).2 ⟨hlow, hv⟩
      rw [leadZeros, hone, if_pos (by decide), if_neg hpos, hlog, Nat.add_sub_cancel, Nat.sub_self]

theorem trailZeros_eq : ∀ (n v : Nat), trailZeros v n = ((List.range n).find? (bit v ·)).getD n
  | 0, _ => rfl
  | n + 1, v => by
    rw [trailZeros, List.range_succ_eq_map, List.find?_cons, bit_zero]
    split
    · next hodd => simp [hodd]
    · next heven =>
      rw [beq_false_of_ne heven, List.find?_map, trailZeros_eq n]
      simp only [Function.comp_def, Nat.succ_eq_add_one, bit_succ]
      cases (List.range n).find? (bit (v / 2) ·) <;> simp <;> omega

theorem popCount_eq : ∀ (n v : Nat), popCount v n = ((List.range n).filter (bit v ·)).length
  | 0, _ => rfl
  | n + 1, v => by
    rw [popCount, List.range_succ_eq_map, List.filter_cons, bit_zero, List.filter_map, popCount_eq n]
    simp only [Function.comp_def, Nat.succ_eq_add_one, bit_succ]
    obtain heven | hodd := Nat.mod_two_eq_zero_or_one v
    · simp [heven]
    · simp [hodd, Nat.add_comm]

theorem popCount_le (n v : Nat) : popCount v n ≤ n := by
  rw [popCount_eq]
  exact Nat.le_trans (List.length_filter_le _ _) (Nat.le_of_eq List.length_range)
theorem trailZeros_le : ∀ (n v : Nat), trailZeros v n ≤ n
  | 0, _ => Nat.le_refl 0
  | n + 1, v => by
    have ih := trailZeros_le n (v / 2)
    unfold trailZeros
    split <;> omega

/-! ### The functions of the tables (R269 to R271) -/

section
variable (x y : Nat)

theorem Word.ofN_add_toNat : (Word.ofN x + Word.ofN y).toNat = wrap64 (x + y) := by
  simp only [BitVec.toNat_add, Word.toNat_ofN, uns, wrap64]; omega
theorem Word.ofN_sub_toNat : (Word.ofN x - Word.ofN y).toNat = wrap64 (x - y) := by
  simp only [BitVec.toNat_sub, Word.toNat_ofN, uns, wrap64]; omega
theorem Word.ofN_mul_toNat : (Word.ofN x * Word.ofN y).toNat = wrap64 (x * y) := by
  rw [BitVec.toNat_mul, Word.toNat_ofN, Word.toNat_ofN, ← Int.natCast_mul, wrap64_natCast]
  exact (Nat.mul_mod ..).symm
theorem Word.ofN_shiftLeft_toNat (k : Nat) : (Word.ofN x <<< k).toNat = uns (x * 2 ^ k) := by
  rw [BitVec.toNat_shiftLeft, Word.toNat_ofN, Nat.shiftLeft_eq]
  exact Nat.mod_mul_mod ..
theorem Word.ofN_ushiftRight_toNat (k : Nat) : (Word.ofN x >>> k).toNat = uns x / 2 ^ k := by
  rw [BitVec.toNat_ushiftRight, Word.toNat_ofN, Nat.shiftRight_eq_div_pow]
theorem Word.ofN_sshiftRight_toNat (k : Nat) : ((Word.ofN x).sshiftRight k).toNat = wrap64 (sgn x / (2 : Int) ^ k) := by
  rw [Word.toNat_eq_wrap64, BitVec.toInt_sshiftRight, Word.toInt_ofN, Int.shiftRight_eq_div_pow]
  norm_cast
/-- A shift distance is taken mod 64 (R269). -/
theorem uns_mod_64 : uns x % 64 = x % 64 := Nat.mod_mod_of_dvd x (by decide)

/-- The high half of a product has 64 bits. -/
theorem uns_mul_uns_div : uns (uns x * uns y / 18446744073709551616) = uns x * uns y / 18446744073709551616 :=
  uns_of_lt (Nat.div_lt_of_lt_mul (Nat.mul_lt_mul'' (uns_lt x) (uns_lt y)))

theorem Word.ofN_min_toNat : (if Word.ofN x ≤ Word.ofN y then Word.ofN x else Word.ofN y).toNat = Nat.min (uns x) (uns y) := by
  simp only [apply_ite BitVec.toNat, BitVec.le_def, Word.toNat_ofN]
  exact (Nat.min_def ..).symm
theorem Word.ofN_max_toNat : (if Word.ofN x ≤ Word.ofN y then Word.ofN y else Word.ofN x).toNat = Nat.max (uns x) (uns y) := by
  simp only [apply_ite BitVec.toNat, BitVec.le_def, Word.toNat_ofN]
  exact (Nat.max_def ..).symm

theorem Word.leadZeros_toNat :
    (Word.ofN (leadZeros (Word.ofN x).toNat 64)).toNat = if uns x = 0 then 64 else 63 - Nat.log2 (uns x) := by
  rw [Word.toNat_ofN, Word.toNat_ofN, leadZeros_eq 64 (uns_lt x)]
  exact uns_of_lt (by split <;> omega)
theorem Word.trailZeros_toNat :
    (Word.ofN (trailZeros (Word.ofN x).toNat 64)).toNat = ((List.range 64).find? fun n => bit x n).getD 64 := by
  have hle := trailZeros_le 64 (uns x)
  rw [Word.toNat_ofN, Word.toNat_ofN, uns_of_lt (by omega), trailZeros_eq, ← List.head?_filter,
    List.filter_congr fun n hn => bit_uns x (List.mem_range.1 hn), List.head?_filter]
theorem Word.popCount_toNat :
    (Word.ofN (popCount (Word.ofN x).toNat 64)).toNat = ((List.range 64).filter fun n => bit x n).length := by
  have hle := popCount_le 64 (uns x)
  rw [Word.toNat_ofN, Word.toNat_ofN, uns_of_lt (by omega), popCount_eq,
    List.filter_congr fun n hn => bit_uns x (List.mem_range.1 hn)]

end

end Sys2Proof.Machine
end

section
/-! PROOF. The words of the ALU group and their immediate forms (10_encoding R246, R253; 11_isa_scalar R269 to R274). -/

namespace Sys2Proof.Machine
open Sys2Proof.Claims

/-! ### Words with one scalar result -/

section
variable {i : Instr} {g : Sig} {d a b : Nat}

/-- A word whose effect is one scalar result gives it. -/
theorem givesX_of_retX {r v : Opnds → State → Nat} (hi : ∀ s, exec i s = word g s fun o t => retX t t.cur o d (r o t))
    (hv : ∀ o t, r o t = v o t) : GivesX i g d v := by
  intro s o t t' hprep hput
  rw [← hv] at hput
  rw [hi]
  exact word_done hprep (retX_ok hput)

theorem givesX_of_alu2 {f : Word → Word → Word} {v : Opnds → State → Nat} (hi : ∀ s, exec i s = alu2 d a b f s)
    (hv : ∀ o t, (f (Word.ofN o.a) (Word.ofN o.b)).toNat = v o t) : GivesX i (rrr d a b) d v := givesX_of_retX hi hv
theorem givesX_of_alu1 {f : Word → Word} {v : Opnds → State → Nat} (hi : ∀ s, exec i s = alu1 d a f s)
    (hv : ∀ o t, (f (Word.ofN o.a)).toNat = v o t) : GivesX i (rr d a) d v := givesX_of_retX hi hv
theorem givesX_of_aluI {imm : Nat} {f : Word → Int → Word} {v : Opnds → State → Nat} (hi : ∀ s, exec i s = aluI d a imm f s)
    (hv : ∀ o t, (f (Word.ofN o.a) (immI o imm)).toNat = v o t) : GivesX i { rr d a with imm := true } d v := givesX_of_retX hi hv

end

/-! ### Division (R270) -/

section
variable {s t t' : State} {o : Opnds} {d a b : Nat} {f : Word → Word → Word}

/-- A result that has a place to go meets no cause of a destination stream. -/
theorem State.dstCheck_of_putX {c : CtxId} {r v : Nat} (hput : t.putX c o r v = .ok t') : t.dstCheck c o false = .ok () := by
  unfold State.dstCheck
  split
  · next hstream =>
    rw [State.putX, if_neg (by omega), if_neg (by omega), State.appendStream] at hput
    cases hplace : t.appendPlace c (o.m.dst - 8) false with
    | error h => rw [hplace] at hput; cases hput
    | ok p => rfl
  · rfl

theorem divide_of_nonzero (hprep : prep (rrr d a b) s = .ok (o, t)) (hb : uns o.b ≠ 0)
    (hput : t.putX t.cur o d (f (Word.ofN o.a) (Word.ofN o.b)).toNat = .ok t') :
    divide d a b f s = .next (t'.advance s.cur) := by
  refine word_done hprep ?_
  rw [State.dstCheck_of_putX hput, if_neg (mt Word.ofN_eq_zero.1 hb)]
  exact retX_ok hput
theorem divide_by_zero (hprep : prep (rrr d a b) s = .ok (o, t)) (hb : uns o.b = 0) (hdst : t.dstCheck t.cur o false = .ok ()) :
    divide d a b f s = .next (s.takeTrap s.cur { cause := 9, val := uns o.a } (s.ctx s.cur).resume s.ir.toNat) := by
  refine word_trap hprep ?_
  rw [hdst, if_pos (Word.ofN_eq_zero.2 hb), Word.toNat_ofN]
  rfl
/-- The causes of a destination stream come before DIV_ZERO (R418). -/
theorem divide_stream_trap {w : Trap} (hprep : prep (rrr d a b) s = .ok (o, t)) (hdst : t.dstCheck t.cur o false = .error (.trap w)) :
    divide d a b f s = .next (s.takeTrap s.cur w (s.ctx s.cur).resume s.ir.toNat) := by
  refine word_trap hprep ?_
  rw [hdst]
  rfl

end

/-- What R270 says of a division word whose quotient or remainder is v. -/
def Divides (i : Instr) (d a b : Nat) (v : Nat → Nat → Nat) : Prop :=
  (∀ s o t t', prep (rrr d a b) s = .ok (o, t) → uns o.b ≠ 0 → t.putX t.cur o d (v o.a o.b) = .ok t' →
    exec i s = .next (t'.advance s.cur)) ∧
  Traps i (rrr d a b) (fun o t => uns o.b = 0 ∧ t.dstCheck t.cur o false = .ok ()) (fun o _ => { cause := 9, val := uns o.a }) ∧
  (∀ w : Trap, Traps i (rrr d a b) (fun o t => t.dstCheck t.cur o false = .error (.trap w)) (fun _ _ => w))

theorem divides_of_divide {i : Instr} {d a b : Nat} {f : Word → Word → Word} {v : Nat → Nat → Nat}
    (hi : ∀ s, exec i s = divide d a b f s) (hv : ∀ x y, (f (Word.ofN x) (Word.ofN y)).toNat = v x y) : Divides i d a b v := by
  refine ⟨fun s o t t' hprep hb hput => ?_, fun s o t hprep hzero => ?_, fun w s o t hprep hdst => ?_⟩ <;> rw [hi]
  · exact divide_of_nonzero hprep hb (by rwa [hv])
  · exact divide_by_zero hprep hzero.1 hzero.2
  · exact divide_stream_trap hprep hdst

section
variable (x y : Nat)

theorem Word.ofN_tmod_toNat :
    (Word.ofI ((Word.ofN x).toInt.tmod (Word.ofN y).toInt)).toNat = wrap64 (sgn x - sgn y * (sgn x).tdiv (sgn y)) := by
  rw [Word.toNat_ofI, Word.toInt_ofN, Word.toInt_ofN, Int.tmod_def]
theorem Word.ofN_div_toNat : (Word.ofN ((Word.ofN x).toNat / (Word.ofN y).toNat)).toNat = uns x / uns y := by
  rw [Word.toNat_ofN, Word.toNat_ofN, Word.toNat_ofN]
  exact uns_of_lt (Nat.lt_of_le_of_lt (Nat.div_le_self ..) (uns_lt x))
theorem Word.ofN_mod_toNat : (Word.ofN ((Word.ofN x).toNat % (Word.ofN y).toNat)).toNat = uns x - uns y * (uns x / uns y) := by
  rw [Word.toNat_ofN, Word.toNat_ofN, Word.toNat_ofN, ← Nat.mod_eq_sub_mul_div]
  exact uns_of_lt (Nat.lt_of_le_of_lt (Nat.mod_le ..) (uns_lt x))

/-! ### Pool addresses (R271) -/

/-- The fields of MKPA's address lie beside each other. -/
theorem mkpa_toNat :
    (Word.ofN (4611686018427387904 + bits (Word.ofN x).toNat 17 15 * 144115188075855872 + bits (Word.ofN x).toNat 14 9 * 2251799813685248 +
      bits (Word.ofN x).toNat 8 4 * 70368744177664 + bits (Word.ofN y).toNat 17 0)).toNat =
    4 * 2 ^ 60 + bits x 17 15 * 2 ^ 57 + bits x 14 9 * 2 ^ 51 + bits x 8 4 * 2 ^ 46 + bits y 17 0 := by
  have hpyl := bits_lt x 17 15
  have hy := bits_lt x 14 9
  have hx := bits_lt x 8 4
  have hoff := bits_lt y 17 0
  simp only [Word.toNat_ofN, bits_uns x (show 15 ≤ 17 by decide) (by decide), bits_uns x (show 9 ≤ 14 by decide) (by decide),
    bits_uns x (show 4 ≤ 8 by decide) (by decide), bits_uns y (show 0 ≤ 17 by decide) (by decide)]
  refine (uns_of_lt ?_).trans ?_
  · omega
  · omega
theorem mkpaRel_toNat :
    (Word.ofN (5764607523034234880 + bits (Word.ofN x).toNat 14 9 * 2251799813685248 + bits (Word.ofN x).toNat 8 4 * 70368744177664 +
      bits (Word.ofN y).toNat 17 0)).toNat =
    5 * 2 ^ 60 + bits x 14 9 * 2 ^ 51 + bits x 8 4 * 2 ^ 46 + bits y 17 0 := by
  have hy := bits_lt x 14 9
  have hx := bits_lt x 8 4
  have hoff := bits_lt y 17 0
  simp only [Word.toNat_ofN, bits_uns x (show 9 ≤ 14 by decide) (by decide), bits_uns x (show 4 ≤ 8 by decide) (by decide),
    bits_uns y (show 0 ≤ 17 by decide) (by decide)]
  refine (uns_of_lt ?_).trans ?_
  · omega
  · omega

/-! ### Immediates (R246, R253, R272, R273) -/

theorem Word.ofI_uns_add_toNat (n : Int) : (Word.ofI ((Word.ofN x).toNat + n)).toNat = wrap64 (x + n) := by
  simp only [Word.toNat_ofI, Word.toNat_ofN, wrap64, uns]; omega

/-- The halfword of a number at weight p replaced (R273). -/
theorem replaceHalfword (p : Nat) : x - x / p % 65536 * p + y % 65536 * p = x / (p * 65536) * (p * 65536) + y % 65536 * p + x % p := by
  have hlow := Nat.div_add_mod x p
  have hhigh := Nat.div_add_mod (x / p) 65536
  have hsplit : x = x / (p * 65536) * (p * 65536) + x / p % 65536 * p + x % p := by
    calc x = p * (65536 * (x / p / 65536) + x / p % 65536) + x % p := by rw [hhigh, hlow]
      _ = _ := by
        rw [Nat.div_div_eq_div_mul, Nat.mul_add, ← Nat.mul_assoc p 65536, Nat.mul_comm (p * 65536), Nat.mul_comm p (x / p % 65536)]
  omega

theorem movk_result (pos : Nat) :
    x - x / 65536 ^ pos % 65536 * 65536 ^ pos + y % 65536 * 65536 ^ pos =
      x / 2 ^ (16 * pos + 16) * 2 ^ (16 * pos + 16) + y % 65536 * 2 ^ (16 * pos) + x % 2 ^ (16 * pos) := by
  have hweight : (65536 : Nat) ^ pos = 2 ^ (16 * pos) := by rw [Nat.pow_mul]
  rw [hweight, Nat.pow_add 2 (16 * pos) 16]
  exact replaceHalfword x y (2 ^ (16 * pos))

end

end Sys2Proof.Machine

namespace Sys2Proof.Proofs
open Sys2Proof.Machine Sys2Proof.Claims

theorem aluResults : AluResults := fun d a b c => ⟨
  givesX_of_alu2 (exec_add · d a b) fun o _ => Word.ofN_add_toNat o.a o.b,
  givesX_of_alu2 (exec_sub · d a b) fun o _ => Word.ofN_sub_toNat o.a o.b,
  givesX_of_alu2 (exec_and · d a b) fun o _ => by simp only [BitVec.toNat_and, Word.toNat_ofN],
  givesX_of_alu2 (exec_or · d a b) fun o _ => by simp only [BitVec.toNat_or, Word.toNat_ofN],
  givesX_of_alu2 (exec_xor · d a b) fun o _ => by simp only [BitVec.toNat_xor, Word.toNat_ofN],
  givesX_of_alu2 (exec_shl · d a b) fun o _ => by rw [Word.ofN_shiftLeft_toNat, Word.toNat_ofN, uns_mod_64],
  givesX_of_alu2 (exec_shr · d a b) fun o _ => by rw [Word.ofN_ushiftRight_toNat, Word.toNat_ofN, uns_mod_64],
  givesX_of_alu2 (exec_sra · d a b) fun o _ => by rw [Word.ofN_sshiftRight_toNat, Word.toNat_ofN, uns_mod_64],
  givesX_of_alu2 (exec_mul · d a b) fun o _ => Word.ofN_mul_toNat o.a o.b,
  givesX_of_alu2 (exec_mulh · d a b) fun o _ => by simp only [Word.toNat_ofI, Word.toInt_ofN],
  givesX_of_alu2 (exec_mulhu · d a b) fun o _ => by simp only [Word.toNat_ofN, uns_mul_uns_div],
  givesX_of_alu2 (exec_min · d a b) fun o _ => by simp only [apply_ite BitVec.toNat, Word.toInt_ofN, Word.toNat_ofN],
  givesX_of_alu2 (exec_max · d a b) fun o _ => by simp only [apply_ite BitVec.toNat, Word.toInt_ofN, Word.toNat_ofN],
  givesX_of_alu2 (exec_minu · d a b) fun o _ => Word.ofN_min_toNat o.a o.b,
  givesX_of_alu2 (exec_maxu · d a b) fun o _ => Word.ofN_max_toNat o.a o.b,
  givesX_of_alu2 (exec_slt · d a b) fun o _ => by simp only [flag_toNat, decide_eq_true_eq, Word.toInt_ofN],
  givesX_of_alu2 (exec_sltu · d a b) fun o _ => by simp only [flag_toNat, decide_eq_true_eq, BitVec.lt_def, Word.toNat_ofN],
  givesX_of_alu2 (exec_seq · d a b) fun o _ => by simp only [flag_toNat, beq_iff_eq, Word.ofN_inj],
  givesX_of_retX (exec_sel · d a b c) fun o _ => by simp only [ne_eq, Word.ofN_eq_zero],
  givesX_of_alu1 (exec_clz · d a) fun o _ => Word.leadZeros_toNat o.a,
  givesX_of_alu1 (exec_ctz · d a) fun o _ => Word.trailZeros_toNat o.a,
  givesX_of_alu1 (exec_popc · d a) fun o _ => Word.popCount_toNat o.a,
  givesX_of_alu2 (exec_addw · d a b) fun o _ => by
    rw [Word.toNat_ofI, Word.ofN_add_toNat, ← Int.natCast_add, wrap64_natCast]
    exact congrArg wrap64 (sext_congr (Nat.mod_mod_of_dvd _ (by decide))),
  givesX_of_alu2 (exec_subw · d a b) fun o _ => by rw [Word.toNat_ofI, Word.ofN_sub_toNat],
  givesX_of_alu2 (exec_mkpa · d a b) fun o _ => mkpa_toNat o.a o.b,
  givesX_of_alu2 (exec_mkpaRel · d a b) fun o _ => mkpaRel_toNat o.a o.b⟩

theorem divisionResults : DivisionResults := by
  intro d a b e he
  change Divides e.1 d a b e.2
  simp only [List.mem_cons, List.not_mem_nil, or_false] at he
  obtain rfl | rfl | rfl | rfl := he
  · exact divides_of_divide (exec_div · d a b) fun x y => by simp only [Word.toNat_ofI, Word.toInt_ofN]
  · exact divides_of_divide (exec_rem · d a b) fun x y => Word.ofN_tmod_toNat x y
  · exact divides_of_divide (exec_divu · d a b) fun x y => Word.ofN_div_toNat x y
  · exact divides_of_divide (exec_remu · d a b) fun x y => Word.ofN_mod_toNat x y

/-- Settles O60: each word of the group is one result, the number of its row of the table; a division word is its quotient or remainder
behind the check of its divisor. -/
theorem scalarArithmetic : Obligations.ScalarArithmetic := by
  unfold Obligations.ScalarArithmetic
  exact ⟨aluResults, divisionResults⟩

theorem immediateResults : ImmediateResults := fun d a imm pos n n5 _ _ _ => ⟨
  givesX_of_aluI (exec_addi · d a imm) fun o _ => Word.ofI_uns_add_toNat o.a (immI o imm),
  givesX_of_aluI (exec_andi · d a imm) fun o _ => by simp only [BitVec.toNat_and, Word.toNat_ofN, Word.toNat_ofI],
  givesX_of_aluI (exec_ori · d a imm) fun o _ => by simp only [BitVec.toNat_or, Word.toNat_ofN, Word.toNat_ofI],
  givesX_of_aluI (exec_xori · d a imm) fun o _ => by simp only [BitVec.toNat_xor, Word.toNat_ofN, Word.toNat_ofI],
  givesX_of_aluI (exec_slti · d a imm) fun o _ => by simp only [flag_toNat, decide_eq_true_eq, Word.toInt_ofN],
  givesX_of_retX (exec_movi · d imm) fun o _ => Word.toNat_ofI (immI o imm),
  givesX_of_retX (exec_movk · d pos imm) fun o _ => movk_result o.d imm pos,
  givesX_of_alu1 (exec_shli · d a n n5) fun o _ => Word.ofN_shiftLeft_toNat o.a (n + 32 * n5),
  givesX_of_alu1 (exec_shri · d a n n5) fun o _ => Word.ofN_ushiftRight_toNat o.a (n + 32 * n5),
  givesX_of_alu1 (exec_srai · d a n n5) fun o _ => Word.ofN_sshiftRight_toNat o.a (n + 32 * n5)⟩

theorem widenedImmediate : WidenedImmediate := fun o imm _ =>
  ⟨fun hnone => by simp only [immI, hnone], fun p hsome => by simp only [immI, hsome]⟩

/-- Settles O43: the immediate forms are the functions of the ALU group on the immediate that the hint may have widened. -/
theorem immediateWords : Obligations.ImmediateWords := by
  unfold Obligations.ImmediateWords
  exact ⟨immediateResults, widenedImmediate⟩

end Sys2Proof.Proofs
end

section
/-! PROOF. The operands of a word: what a word without hints has in hand, and when it waits or is refused (11_isa_scalar R268;
16_ordering_within R395; 21_traps R411, R418; 22_faults_memory R429). -/

namespace Sys2Proof.Machine
open Sys2Proof.Claims

section
variable {g : Sig} {s : State}

/-- Without hints there is none to misuse (R416). -/
theorem hintCheck_no_hints (g : Sig) : hintCheck g none {} 0 = .ok () := by
  have hstream (q : Option Opr) : noStream q 0 = false := by cases q <;> rfl
  simp [hintCheck, hstream, pure, Except.pure]
/-- Without directions no field is replaced, and fields that must differ are the word's own matter (R254, R342). -/
theorem replacedCheck_no_hints (happart : g.apart = false) (w : Nat) : replacedCheck g {} w = .ok () := by
  simp [replacedCheck, happart, pure, Except.pure]

theorem unitCheck_no_hints (hspan : g.span = true) (hdeck : g.deck = true) (hsvc : g.svc = true) (k : CoreKind) (w : Nat) :
    unitCheck g {} k w = .ok () := by
  simp [unitCheck, hspan, hdeck, hsvc, pure, Except.pure]

theorem levelCheck_of_le {lv need : Level} (h : need.code ≤ lv.code) (w : Nat) : levelCheck lv need w = .ok () :=
  if_neg (Nat.not_lt.2 h)

/-! ### A word without hints -/

section
variable (hbad : s.bad = none) (himm : (s.ctx s.cur).chainImm = none) (hmod : (s.ctx s.cur).chainMod = none)
include hbad himm hmod

theorem prep_unit_refused {h : Halt} (happart : g.apart = false)
    (hunit : unitCheck g {} s.cur.core.kind s.ir.toNat = .error h) : prep g s = .error h := by
  simp only [prep, hbad, himm, hmod, Option.getD_none, hintCheck_no_hints, replacedCheck_no_hints happart, hunit]
  rfl
theorem prep_level_refused {h : Halt} (happart : g.apart = false)
    (hunit : unitCheck g {} s.cur.core.kind s.ir.toNat = .ok ())
    (hlevel : levelCheck (s.ctx s.cur).level g.level s.ir.toNat = .error h) : prep g s = .error h := by
  simp only [prep, hbad, himm, hmod, Option.getD_none, hintCheck_no_hints, replacedCheck_no_hints happart, hunit, hlevel]
  rfl
theorem prep_operand_refused {h : Halt} (happart : g.apart = false)
    (hunit : unitCheck g {} s.cur.core.kind s.ir.toNat = .ok ())
    (hlevel : levelCheck (s.ctx s.cur).level g.level s.ir.toNat = .ok ()) (ha : s.source s s.cur g.a 0 = .error h) :
    prep g s = .error h := by
  simp only [prep, hbad, himm, hmod, Option.getD_none, hintCheck_no_hints, replacedCheck_no_hints happart, hunit, hlevel, ha]
  rfl

end

/-! ### Registers as sources (R395, R429) -/

section
variable {c : CtxId} {r : Nat}

theorem State.rx_lt (s : State) (c : CtxId) (r : Nat) : s.rx c r < 18446744073709551616 := by
  unfold State.rx
  split
  · decide
  · exact Mem.read_lt 8 _ _

theorem State.readReg_complete (hpoison : s.poison = []) (hcomplete : s.pending c 1 r = false) :
    s.readReg c ⟨.x, .read, r⟩ = .ok (s.rx c r, 0) := by
  simp [State.readReg, Cls.num, hpoison, hcomplete, pure, Except.pure]
theorem State.readReg_pending (hpending : s.pending c 1 r = true) : s.readReg c ⟨.x, .read, r⟩ = .error (.stall 1 r) := by
  simp [State.readReg, Cls.num, hpending, throw, throwThe, MonadExceptOf.throw, bind, Except.bind]

theorem State.source_complete (s0 : State) (hpoison : s.poison = []) (hcomplete : s.pending c 1 r = false) :
    s0.source s c (rd .x r) 0 = .ok (s.rx c r, 0, s) := by
  simp [State.source, rd, State.readReg_complete hpoison hcomplete, pure, Except.pure, bind, Except.bind]
theorem State.source_pending (s0 : State) (hpending : s.pending c 1 r = true) : s0.source s c (rd .x r) 0 = .error (.stall 1 r) := by
  simp [State.source, rd, State.readReg_pending hpending, bind, Except.bind]

/-- A word that reads a register on its way waits for it (R395, R411). -/
theorem word_stall {k : Nat} {body : Opnds → State → Chk Out} (hprep : prep g s = .error (.stall k r))
    (htimed : (s.ctx s.cur).timed = none) : word g s body = .next (s.sleep s.cur (.operands k r)) := by
  have hfinish : word g s body = .next (s.finish s.cur (.error (.stall k r))) := by
    rw [word, hprep]
    rfl
  rw [hfinish, State.finish, State.sleepOr, htimed]
  rfl

end

/-- What a word of three registers has in hand (R268, R418). -/
theorem prep_rrr_complete {ra rb d : Nat} (hbad : s.bad = none) (himm : (s.ctx s.cur).chainImm = none)
    (hmod : (s.ctx s.cur).chainMod = none) (hpoison : s.poison = []) (ha : s.pending s.cur 1 ra = false)
    (hb : s.pending s.cur 1 rb = false) :
    prep (rrr d ra rb) s = .ok ({ a := s.rx s.cur ra, b := s.rx s.cur rb, pred := ones128 }, s) := by
  have hunit := unitCheck_no_hints (g := rrr d ra rb) rfl rfl rfl s.cur.core.kind s.ir.toNat
  have hlevel := levelCheck_of_le (lv := (s.ctx s.cur).level) (need := (rrr d ra rb).level) (Nat.zero_le _) s.ir.toNat
  have hsa : s.source s s.cur (rrr d ra rb).a 0 = _ := State.source_complete s hpoison ha
  have hsb : s.source s s.cur (rrr d ra rb).b 0 = _ := State.source_complete s hpoison hb
  have hta : Opr.take (rrr d ra rb).a (s.rx s.cur ra) = s.rx s.cur ra := Nat.mod_eq_of_lt (s.rx_lt ..)
  have htb : Opr.take (rrr d ra rb).b (s.rx s.cur rb) = s.rx s.cur rb := Nat.mod_eq_of_lt (s.rx_lt ..)
  simp only [prep, hbad, himm, hmod, Option.getD_none, hintCheck_no_hints, replacedCheck_no_hints (g := rrr d ra rb) rfl, hunit, hlevel,
    pure, Except.pure, bind, Except.bind, hsa, hsb, ne_eq, not_true_eq_false, false_and, if_false, hta, htb]
  rfl

section
variable {i : Instr} {d a b : Nat} {f : Word → Word → Word}

theorem exists_word_of_alu2 (hi : exec i s = alu2 d a b f s) : ∃ body, exec i s = word (rrr d a b) s body := ⟨_, by rw [hi, alu2]⟩
theorem exists_word_of_divide (hi : exec i s = divide d a b f s) : ∃ body, exec i s = word (rrr d a b) s body :=
  ⟨_, by rw [hi, divide]⟩

end

/-- Each word of the ALU group of two sources is a word of three registers (R269 to R271). -/
theorem exec_eq_word_rrr (s : State) (d a b : Nat) : ∀ i ∈ ([.add d a b, .sub d a b, .and d a b, .or d a b, .xor d a b, .shl d a b,
    .shr d a b, .sra d a b, .mul d a b, .mulh d a b, .mulhu d a b, .div d a b, .divu d a b, .rem d a b, .remu d a b, .min d a b,
    .max d a b, .minu d a b, .maxu d a b, .slt d a b, .sltu d a b, .seq d a b, .addw d a b, .subw d a b, .mkpa d a b,
    .mkpaRel d a b] : List Instr), ∃ body, exec i s = word (rrr d a b) s body := by
  simp only [List.forall_mem_cons, List.not_mem_nil, false_imp_iff, implies_true, and_true]
  exact ⟨exists_word_of_alu2 (exec_add ..), exists_word_of_alu2 (exec_sub ..), exists_word_of_alu2 (exec_and ..),
    exists_word_of_alu2 (exec_or ..), exists_word_of_alu2 (exec_xor ..), exists_word_of_alu2 (exec_shl ..),
    exists_word_of_alu2 (exec_shr ..), exists_word_of_alu2 (exec_sra ..), exists_word_of_alu2 (exec_mul ..),
    exists_word_of_alu2 (exec_mulh ..), exists_word_of_alu2 (exec_mulhu ..), exists_word_of_divide (exec_div ..),
    exists_word_of_divide (exec_divu ..), exists_word_of_divide (exec_rem ..), exists_word_of_divide (exec_remu ..),
    exists_word_of_alu2 (exec_min ..), exists_word_of_alu2 (exec_max ..), exists_word_of_alu2 (exec_minu ..),
    exists_word_of_alu2 (exec_maxu ..), exists_word_of_alu2 (exec_slt ..), exists_word_of_alu2 (exec_sltu ..),
    exists_word_of_alu2 (exec_seq ..), exists_word_of_alu2 (exec_addw ..), exists_word_of_alu2 (exec_subw ..),
    exists_word_of_alu2 (exec_mkpa ..), exists_word_of_alu2 (exec_mkpaRel ..)⟩

end

end Sys2Proof.Machine

namespace Sys2Proof.Proofs
open Sys2Proof.Machine

/-- Settles O41: without hints the checks before the operands are those of the core and the level; the operands are then read as they
stand, and one that is pending stops the word. -/
theorem operandsOfAPlainWord : Obligations.OperandsOfAPlainWord := by
  unfold Obligations.OperandsOfAPlainWord
  intro s ra rb rd' c g hbad himm hmod
  have hunit : unitCheck g {} c.core.kind s.ir.toNat = .ok () := unitCheck_no_hints rfl rfl rfl _ _
  have hlevel : levelCheck (s.ctx c).level g.level s.ir.toNat = .ok () := levelCheck_of_le (Nat.zero_le _) _
  have hstall : s.pending c 1 ra = true → prep g s = .error (.stall 1 ra) := fun hpending =>
    prep_operand_refused hbad himm hmod rfl hunit hlevel (State.source_pending s hpending)
  refine ⟨fun hpoison ha hb => prep_rrr_complete hbad himm hmod hpoison ha hb, hstall,
    fun hpending htimed => ⟨fun body => word_stall (hstall hpending) htimed, fun i hi => ?_⟩,
    fun hu => prep_level_refused hbad himm hmod rfl hunit ?_, fun hsvc => prep_unit_refused hbad himm hmod rfl ?_⟩
  · obtain ⟨body, hbody⟩ := exec_eq_word_rrr s rd' ra rb i hi
    rw [hbody]
    exact word_stall (hstall hpending) htimed
  · rw [hu]
    rfl
  · rw [hsvc]
    rfl

end Sys2Proof.Proofs
end

section
/-! PROOF. What taking the operands of a word leaves: the context in issue, and all of the state where the word has no source (10_encoding
R255; 12_isa_vector R329). -/

namespace Sys2Proof.Machine

/-! ### Answers of checks and effects -/

/-- Whatever a check or an effect answers meets a condition. -/
structure Ends {α : Type} (P : α → Prop) (x : Chk α) : Prop where
  of_ok : ∀ {a}, x = .ok a → P a

section
variable {α β : Type} {P : β → Prop} {Q : α → Prop} {x y : Chk α} {f : α → Chk β}

theorem Ends.pure {b : β} (h : P b) : Ends P (Pure.pure b) := ⟨fun hb => by
  cases hb
  exact h⟩
theorem ends_error {h : Halt} : Ends P (.error h) := ⟨nofun⟩
theorem Ends.bind (hx : Ends Q x) (hf : ∀ a, Q a → Ends P (f a)) : Ends P (x >>= f) := by
  cases x with
  | error h => exact ends_error
  | ok a => exact hf a (hx.of_ok rfl)
/-- Where what follows has its condition after any answer. -/
theorem ends_seq (hf : ∀ a, Ends P (f a)) : Ends P (x >>= f) := Ends.bind (Q := fun _ => True) ⟨fun _ => trivial⟩ fun a _ => hf a
theorem Ends.ite {c : Prop} [Decidable c] {u v : Chk β} (hu : Ends P u) (hv : Ends P v) : Ends P (if c then u else v) := by
  split
  · exact hu
  · exact hv
/-- Two ways to the same continuation. -/
theorem Ends.ite_bind {c : Prop} [Decidable c] (hx : Ends Q x) (hy : Ends Q y) (hf : ∀ a, Q a → Ends P (f a)) :
    Ends P (if c then x >>= f else y >>= f) := (hx.bind hf).ite (hy.bind hf)

end

/-! ### The operands of a word -/

section
variable {g : Sig} {s t : State} {o : Opnds} {α : Type} {p : State → α}

/-- A field that names the link or stream of another takes nothing of its own (R255). -/
theorem again_ends (q first : Option Opr) (code v tag : Nat) (u : State) :
    Ends (fun r => p r.2.2 = p u) (again q first code v tag u) := by
  unfold again
  split
  · exact ends_error
  · exact .pure rfl

/-- A part of the state that no source of a word touches stands when the operands are in hand. -/
theorem prep_ends (hsource : ∀ q ∈ [g.a, g.b, g.c, g.d], ∀ s0 u code, Ends (fun r => p r.2.2 = p u) (State.source s0 u s.cur q code)) :
    Ends (fun r => p r.2 = p s) (prep g s) := by
  have ha := hsource g.a (by simp)
  have hb := hsource g.b (by simp)
  have hc := hsource g.c (by simp)
  have hd := hsource g.d (by simp)
  unfold prep
  refine ends_seq fun _ => ?_
  dsimp only
  split
  · exact ends_error
  refine ends_seq fun _ => ends_seq fun _ => ends_seq fun _ => (ha _ _ _).bind fun a ha => ?_
  refine Ends.ite_bind (again_ends ..) (hb _ _ _) fun b hb => (hc _ _ _).bind fun v hc => ?_
  have hv : p v.2.2 = p s := hc.trans (hb.trans ha)
  have hlast (x : Opnds) (d : Nat × Nat × State) (hd : p d.2.2 = p v.2.2) :
      Ends (fun r : Opnds × State => p r.2 = p s) (Pure.pure (x, d.2.2)) := .pure (hd.trans hv)
  refine .ite (.bind (Q := fun d => p d.2.2 = p v.2.2) (.pure rfl) fun d hd => hlast _ d hd) ?_
  exact .ite ((again_ends ..).bind fun d hd => hlast _ d hd)
    (.ite ((again_ends ..).bind fun d hd => hlast _ d hd) ((hd _ _ _).bind fun d hd => hlast _ d hd))

/-- A word that has no source takes nothing of the state. -/
theorem prep_of_no_source (ha : g.a = none) (hb : g.b = none) (hc : g.c = none) (hd : g.d = none) (hprep : prep g s = .ok (o, t)) :
    t = s := by
  refine (prep_ends (p := id) fun q hq s0 u code => ?_).of_ok hprep
  have hnone : q = none := by simpa [ha, hb, hc, hd] using hq
  rw [hnone]
  exact .pure rfl

/-! ### The context in issue -/

theorem State.fifoRoom_cur (u : CoreId) (up : Bool) : (s.fifoRoom u up).cur = s.cur := by
  have hsteps (l : List (Instr × Arg)) (t : State) : (l.foldl (fun s e => s.after 0 e.1 e.2) t).cur = t.cur :=
    foldl_keeps (fun t e => State.after_cur t 0 e.1 e.2) l t
  simp only [State.fifoRoom, apply_ite State.cur, hsteps, State.setCore_cur, ite_self]
theorem State.takeLink_cur (c : CtxId) (code : Nat) : (s.takeLink c code).cur = s.cur := by
  unfold State.takeLink
  dsimp only
  split
  · rfl
  · split
    · split <;> simp [State.fifoRoom_cur]
    · simp [State.fifoRoom_cur]

theorem State.streamStep_cur (c : CtxId) (n : Nat) : (s.streamStep c n).cur = s.cur := by simp [State.streamStep]
theorem State.markSeen_cur (c : CtxId) (key n : Nat) : (s.markSeen c key n).cur = s.cur := by
  unfold State.markSeen
  split <;> rfl

theorem popStream_ends_cur (s0 u : State) (c : CtxId) (n : Nat) (vec : Bool) :
    Ends (fun r => r.2.2.cur = u.cur) (s0.popStream u c n vec) := by
  unfold State.popStream
  refine ends_seq fun _ => ?_
  dsimp only
  split
  · exact .pure (by simp [State.streamStep_cur])
  · refine ends_seq fun place => ends_seq fun now => Ends.ite ?_ (Ends.ite ends_error ends_error)
    split
    · exact ends_error
    · exact .pure (by simp [State.streamStep_cur, State.markSeen_cur])

theorem source_ends_cur (s0 u : State) (c : CtxId) (q : Option Opr) (code : Nat) :
    Ends (fun r => r.2.2.cur = u.cur) (s0.source u c q code) := by
  unfold State.source
  cases q with
  | none => exact .pure rfl
  | some q =>
    refine .ite (.pure rfl) (.ite (ends_seq fun _ => .pure rfl) (.ite (ends_seq fun _ => .pure ?_) (popStream_ends_cur ..)))
    exact State.takeLink_cur ..

/-- Taking the operands leaves the context in issue. -/
theorem prep_cur (hprep : prep g s = .ok (o, t)) : t.cur = s.cur :=
  (prep_ends fun q _ s0 u code => source_ends_cur s0 u s.cur q code).of_ok hprep

end

/-! ### What a word does, from its effect -/

section
open Sys2Proof.Claims
variable {i : Instr} {g : Sig} {body : Opnds → State → Chk Out} {cond : Opnds → State → Prop} {eff : Opnds → State → State}
  (hi : ∀ s, exec i s = word g s body)
include hi

theorem does_of_word (hbody : ∀ o t, cond o t → body o t = .ok (.done (eff o t))) : Does i g cond eff := fun s o t hprep hc =>
  (hi s).trans (word_done hprep (hbody o t hc))
theorem goesTo_of_word {pc : Opnds → State → Nat} (hbody : ∀ o t, cond o t → body o t = .ok (.goto (eff o t) (pc o t))) :
    GoesTo i g cond eff pc := fun s o t hprep hc => (hi s).trans (word_goto hprep (hbody o t hc))
theorem traps_of_word {why : Opnds → State → Trap} (hbody : ∀ o t, cond o t → body o t = .error (.trap (why o t))) :
    Traps i g cond why := fun s o t hprep hc => (hi s).trans (word_trap hprep (hbody o t hc))

end

end Sys2Proof.Machine
end

section
/-! PROOF. Transfers of control: branches, jumps and loops (11_isa_scalar R275 to R279; 21_traps R418). -/

namespace Sys2Proof.Machine
open Sys2Proof.Claims

/-! ### Targets (R276, R279) -/

section
variable {s : State} {pc : Nat}

theorem transfer_good (h : goodTarget pc) : transfer s pc = .ok (.goto s pc) := by
  obtain ⟨halign, hspace⟩ := h
  simp only [transfer, halign, hspace, ne_eq, not_true_eq_false, if_false]
  rfl
/-- ALIGN comes before ACCESS (R418). -/
theorem transfer_bad (h : ¬goodTarget pc) : transfer s pc = .error (.trap (badTarget pc)) := by
  unfold badTarget
  by_cases halign : pc % 4 = 0
  · have hspace : bits pc 63 60 ≠ 0 := fun hspace => h ⟨halign, hspace⟩
    simp only [transfer, halign, ne_eq, not_true_eq_false, if_false, if_pos hspace]
    rfl
  · simp only [transfer, if_pos halign]
    rfl

theorem addOff_eq (base : Nat) (off : Int) : addOff base off = wrap64 (base + off) := Word.toNat_ofI _
/-- The address of the next word. -/
theorem pc_add_four_toNat (s : State) : ((s.ctx s.cur).pc + 4).toNat = wrap64 (here s + 4) := by
  have hsum := BitVec.toNat_add (s.ctx s.cur).pc 4
  simp only [BitVec.reduceToNat] at hsum
  rw [hsum, here, wrap64]
  omega

end

/-! ### Conditional branches (R275) -/

/-- What R275 and R279 say of a branch on a condition. -/
def BranchesOn (i : Instr) (sig : Sig) (off : Nat) (cond : Nat → Nat → Bool) : Prop :=
  let g : Sig := { sig with imm := true }
  let dest (o : Opnds) (t : State) := wrap64 (here t + 4 * offB o off)
  GoesTo i g (fun o t => cond o.a o.b = true ∧ goodTarget (dest o t)) (fun _ t => t) dest ∧
  Does i g (fun o _ => cond o.a o.b = false) (fun _ t => t) ∧
  Traps i g (fun o t => cond o.a o.b = true ∧ ¬goodTarget (dest o t)) (fun o t => badTarget (dest o t))

theorem branchesOn_of_branch {i : Instr} {sig : Sig} {off : Nat} {take : Word → Word → Bool} {cond : Nat → Nat → Bool}
    (hi : ∀ s, exec i s = branch sig off take s) (htake : ∀ x y, take (Word.ofN x) (Word.ofN y) = cond x y) :
    BranchesOn i sig off cond := by
  refine ⟨goesTo_of_word hi fun o t hc => ?_, does_of_word hi fun o t hc => ?_, traps_of_word hi fun o t hc => ?_⟩
  · rw [htake, if_pos hc.1, addOff_eq]
    exact transfer_good hc.2
  · rw [htake, hc]
    rfl
  · rw [htake, if_pos hc.1, addOff_eq]
    exact transfer_bad hc.2

/-! ### JALR (R277) and loops (R278) -/

theorem execJalr_goes {s t t' : State} {o : Opnds} {d a : Nat} (hprep : prep (rr d a) s = .ok (o, t))
    (hput : t.putX t.cur o d (wrap64 (here t + 4)) = .ok t') (hgood : goodTarget o.a) :
    execJalr d a s = .next (t'.goOn s.cur (Word.ofN o.a)) := by
  refine word_goto hprep ?_
  rw [pc_add_four_toNat, hput]
  exact transfer_good hgood

theorem Word.ofN_sub_one_toNat (x : Nat) : (Word.ofN x - 1).toNat = wrap64 (x - 1) := Word.ofN_sub_toNat x 1

section
variable {s t t' : State} {o : Opnds} {d imm : Nat} (hprep : prep { d := rw .x d, dd := true, imm := true } s = .ok (o, t))
  (hput : t.putX t.cur o d (wrap64 (o.d - 1)) = .ok t')
include hprep hput

theorem execLoop_ends (hzero : wrap64 (o.d - 1) = 0) : execLoop d imm s = .next (t'.advance s.cur) := by
  have hn : Word.ofN o.d - 1 = 0 := BitVec.eq_of_toNat_eq ((Word.ofN_sub_one_toNat o.d).trans hzero)
  refine word_done hprep ?_
  dsimp only
  rw [Word.ofN_sub_one_toNat, hput, hn]
  rfl
theorem execLoop_branches (hmore : wrap64 (o.d - 1) ≠ 0) (hgood : goodTarget (wrap64 (here t + 4 * immI o imm))) :
    execLoop d imm s = .next (t'.goOn s.cur (Word.ofN (wrap64 (here t + 4 * immI o imm)))) := by
  have hn : Word.ofN o.d - 1 ≠ 0 := fun hzero => hmore (by rw [← Word.ofN_sub_one_toNat, hzero]; rfl)
  refine word_goto hprep ?_
  dsimp only
  rw [Word.ofN_sub_one_toNat, hput, addOff_eq]
  exact (if_neg hn).trans (transfer_good hgood)

end

end Sys2Proof.Machine

namespace Sys2Proof.Proofs
open Sys2Proof.Machine Sys2Proof.Claims

theorem branchTargets : BranchTargets := by
  intro a b off e he
  change BranchesOn e.1 e.2.1 off e.2.2
  simp only [branches, List.mem_cons, List.not_mem_nil, or_false] at he
  obtain rfl | rfl | rfl | rfl | rfl | rfl | rfl | rfl := he
  · exact branchesOn_of_branch (exec_beq · a b off) fun x y => by rw [Bool.eq_iff_iff, beq_iff_eq, beq_iff_eq, Word.ofN_inj]
  · exact branchesOn_of_branch (exec_bne · a b off) fun x y => by rw [Bool.eq_iff_iff, bne_iff_ne, bne_iff_ne, ne_eq, Word.ofN_inj]
  · exact branchesOn_of_branch (exec_blt · a b off) fun x y => by simp only [Word.toInt_ofN]
  · exact branchesOn_of_branch (exec_bge · a b off) fun x y => by simp only [Word.toInt_ofN]
  · exact branchesOn_of_branch (exec_bltu · a b off) fun x y => by simp only [BitVec.lt_def, Word.toNat_ofN]
  · exact branchesOn_of_branch (exec_bgeu · a b off) fun x y => by simp only [BitVec.le_def, Word.toNat_ofN]
  · exact branchesOn_of_branch (exec_bz · a off) fun x y => by rw [Bool.eq_iff_iff, beq_iff_eq, beq_iff_eq, Word.ofN_eq_zero]
  · exact branchesOn_of_branch (exec_bnz · a off) fun x y => by
      rw [Bool.eq_iff_iff, bne_iff_ne, bne_iff_ne, ne_eq, Word.ofN_eq_zero]

theorem jumpTargets : JumpTargets := by
  intro d a off
  refine ⟨goesTo_of_word (exec_j · off) fun o t hgood => ?_, goesTo_of_word (exec_jal · off) fun o t hgood => ?_,
    goesTo_of_word (exec_jr · a) fun o t hgood => transfer_good hgood, fun s o t t' hprep hput hgood => ?_,
    goesTo_of_word exec_ret fun o t hret => ?_⟩
  · rw [addOff_eq]
    exact transfer_good hgood
  · rw [addOff_eq, pc_add_four_toNat]
    exact transfer_good hgood
  · exact (exec_jalr s d a).trans (execJalr_goes hprep hput hgood)
  · obtain ⟨hcomplete, hpoison, hgood⟩ := hret
    rw [State.readReg_complete hpoison hcomplete]
    dsimp only [bind, Except.bind]
    exact transfer_good hgood

theorem loopCountsDown : LoopCountsDown := fun _ _ _ _ _ _ hprep hput =>
  ⟨fun hzero => execLoop_ends hprep hput hzero, fun hmore hgood => execLoop_branches hprep hput hmore hgood⟩

/-- Settles O50: a branch, jump or loop that transfers does so to its target, whose check is the transfer's, and otherwise ends at the
next word. -/
theorem controlTransfers : Obligations.ControlTransfers := by
  unfold Obligations.ControlTransfers
  exact ⟨branchTargets, jumpTargets, loopCountsDown⟩

end Sys2Proof.Proofs
end

section
/-! PROOF. The words of the SYS group that wait, halt, trap or ask another core (11_isa_scalar R282 to R290, R465; 21_traps R411). -/

namespace Sys2Proof.Machine
open Sys2Proof.Claims

/-! ### Steps set going -/

theorem mem_agendaInsert (n : Nat) (e : Instr × Arg) : ∀ l : List (Nat × Instr × Arg), (n, e) ∈ agendaInsert n e l
  | [] => List.mem_singleton_self _
  | x :: xs => by
    unfold agendaInsert
    split
    · exact List.mem_cons_self
    · exact List.mem_cons_of_mem _ (mem_agendaInsert n e xs)
theorem State.mem_after_agenda (s : State) (n : Nat) (i : Instr) (a : Arg) : (s.cyc + n, i, a) ∈ (s.after n i a).agenda :=
  mem_agendaInsert _ _ _

section
variable {s t : State} {o : Opnds} {c : CtxId}

@[simp] theorem State.sleep_ctx_self (w : Wait) : (s.sleep c w).ctx c =
    { s.ctx c with st := .waiting, wait := w, waitNo := (s.ctx c).waitNo + 1, waitIr := s.ir, due := false } := by
  simp only [State.sleep, State.ctx_setCtx]

/-- A word that must wait for a condition, outside timed exchange, is issued again when it holds (R77). -/
theorem word_retry {g : Sig} {body : Opnds → State → Chk Out} {w : Wait} (hprep : prep g s = .ok (o, t))
    (htimed : (s.ctx s.cur).timed = none) (hbody : body o t = .error (.retry w)) : word g s body = .next (s.sleep s.cur w) := by
  rw [word_of_prep hprep, hbody, State.finish, State.sleepOr, htimed]
  rfl

/-! ### Traps on purpose (R287) -/

/-- A word that traps with its code leaves the address of the next word (R411). -/
theorem callWord_traps {i : Instr} {n : Nat} (hi : ∀ s, exec i s = word {} s fun _ t => .ok (.call t { cause := n, code := codeOf t.ir }))
    (hprep : prep {} s = .ok (o, t)) :
    exec i s = .next (s.takeTrap s.cur { cause := n, code := bits s.ir.toNat 15 6 } ((s.ctx s.cur).pc + 4) s.ir.toNat) := by
  obtain rfl := prep_of_no_source rfl rfl rfl rfl hprep
  exact (hi t).trans (word_call hprep rfl)

/-! ### YIELD and JOINH (R283, R285) -/

theorem execYield_passes {f : CtxId → Bool} (hprep : prep {} s = .ok (o, t)) (hf : f = fun o => o != t.cur && t.canIssue o)
    (hnone : (t.ctx t.cur).timed.isSome = true ∨ t.cur.core.ctxs.filter f = []) : execYield s = .next (t.advance s.cur) := by
  subst hf
  refine word_done hprep (if_pos (hnone.imp_right fun hempty => ?_))
  rw [hempty]
  rfl
/-- Where a sibling can issue, YIELD waits, and its end is due (R285). -/
theorem execYield_waits {f : CtxId → Bool} (hprep : prep {} s = .ok (o, t)) (hf : f = fun o => o != t.cur && t.canIssue o)
    (htimed : (t.ctx t.cur).timed = none) (hsome : t.cur.core.ctxs.filter f ≠ []) :
    ∃ t' : State, execYield s = .next t' ∧ (t'.ctx s.cur).wait = .yield ∧ (t'.ctx s.cur).st = .waiting ∧
      (s.cyc + 11, .yieldEnd, { ctx := s.cur, ns := [(t'.ctx s.cur).waitNo] }) ∈ t'.agenda := by
  obtain rfl := prep_of_no_source rfl rfl rfl rfl hprep
  subst hf
  refine ⟨_, word_left hprep (if_neg ?_), ?_, ?_, ?_⟩
  · simpa [htimed] using hsome
  · simp
  · simp
  · have hdue : (t.sleep t.cur .yield).cyc = t.cyc := rfl
    simp [hdue, mem_agendaInsert]

theorem execJoinh_completes {n : Nat} (hprep : prep {} s = .ok (o, t)) (hself : n ≠ t.cur.k) (hwin : n < t.nwin t.cur.core)
    (hdone : t.helperDone ⟨t.cur.core, n⟩ = true) : execJoinh n s = .next (t.advance s.cur) := by
  refine word_done hprep ?_
  rw [if_neg hself, if_neg (Nat.not_le.2 hwin), hdone]
  rfl
theorem execJoinh_waits {n : Nat} (hprep : prep {} s = .ok (o, t)) (hself : n ≠ t.cur.k) (hwin : n < t.nwin t.cur.core)
    (hdone : t.helperDone ⟨t.cur.core, n⟩ = false) (htimed : (t.ctx t.cur).timed = none) :
    execJoinh n s = .next (s.sleep s.cur (.joinh n)) := by
  obtain rfl := prep_of_no_source rfl rfl rfl rfl hprep
  refine word_retry hprep htimed ?_
  rw [if_neg hself, if_neg (Nat.not_le.2 hwin), hdone]
  rfl

end

/-! ### HALT (R284): what follows the end of a context leaves the contexts -/

section
variable {s t : State} {o : Opnds}

theorem State.unarrive_ctxs (c : CtxId) : (s.unarrive c).ctxs = s.ctxs := by
  unfold State.unarrive
  split <;> rfl
theorem State.settle_ctxs (u : CoreId) : (s.settle u).ctxs = s.ctxs := by
  unfold State.settle
  dsimp only
  split
  · rfl
  · exact foldl_keeps (fun t a => State.after_ctxs ..) _ _
theorem State.tryRelease_ctxs (l : Launch) (dom : Nat) : (s.tryRelease l dom).ctxs = s.ctxs := by
  unfold State.tryRelease
  dsimp only
  split
  · split <;> rfl
  · rfl
theorem State.tryArrive_ctxs (u : CoreId) : (s.tryArrive u).ctxs = s.ctxs := by
  unfold State.tryArrive
  split
  · rfl
  · refine foldl_keeps (fun t dom => ?_) _ _
    split
    · rfl
    · split
      · split
        · exact State.tryRelease_ctxs ..
        · rfl
      · rfl

/-- The state in which a context has become free: out of its group, its watch entries and its arrivals gone (R284). -/
def State.freeCtx (s : State) (c : CtxId) : State :=
  let k := c.core.cluster
  let t := s.leaveGroup c
  let t := t.setCluster k { t.cluster k with watchOrder := (t.cluster k).watchOrder.filter (·.1 != c) }
  (((t.setCtx c (t.ctx c).freed).unarrive c).settle c.core).tryArrive c.core
/-- With its last context the launch's completion is due (R75, R284). -/
def State.noteEnd (s : State) (u : CoreId) : State :=
  match s.launchOf u with
  | some l => if s.launchEnded l then s.after 0 .launchCompletion { ns := [l.id] } else s
  | none => s

theorem State.freeCtx_ctx_self (c : CtxId) : ∃ x : Ctx, (s.freeCtx c).ctx c = x.freed := by
  refine ⟨((s.leaveGroup c).setCluster c.core.cluster { (s.leaveGroup c).cluster c.core.cluster with
    watchOrder := ((s.leaveGroup c).cluster c.core.cluster).watchOrder.filter (·.1 != c) }).ctx c, ?_⟩
  simp only [State.freeCtx, State.ctx, State.tryArrive_ctxs, State.settle_ctxs, State.unarrive_ctxs, State.setCtx_ctxs, Tab.get_set_self]
theorem State.noteEnd_ctx (u : CoreId) (c : CtxId) : (s.noteEnd u).ctx c = s.ctx c := by
  unfold State.noteEnd
  split
  · split <;> rfl
  · rfl

/-- HALT frees its context where nothing holds it (R284). -/
theorem execHalt_ends (hprep : prep {} s = .ok (o, t)) (hgrant : (t.ctx t.cur).grant = none) (hpkt : (t.ctx t.cur).pkt = none)
    (hstores : t.storesDone t.cur = true)
    (hhelpers : t.cur.k = 0 → ∀ h ∈ t.cur.core.ctxs, h ≠ t.cur → (t.ctx h).st = .free) :
    execHalt s = .next ((t.freeCtx t.cur).noteEnd t.cur.core) := by
  have hgo : ¬(t.cur.k = 0 ∧ (t.cur.core.ctxs.any fun o => o != t.cur && (t.ctx o).live) = true) := by
    rintro ⟨hk, hlive⟩
    obtain ⟨h, hmem, hh⟩ := List.any_eq_true.1 hlive
    simp only [Bool.and_eq_true, bne_iff_ne, Ctx.live] at hh
    exact hh.2 (hhelpers hk h hmem hh.1)
  refine word_left hprep ?_
  dsimp only
  rw [hgrant, hpkt, if_neg hgo, hstores]
  rfl

end

/-! ### Requests to another core (R289, R290, R355, R465) -/

section
variable {s t : State} {o : Opnds} {a b : Nat} {u : CoreId}

theorem execCstop_requests (hprep : prep { a := rd .x a, b := rd .x b, da := true, db := true, scope := true, level := .s } s = .ok (o, t))
    (htimed : (t.ctx t.cur).timed = none) (htarget : t.target t.cur o.a o.b false = .ok u) :
    execCstop a b s = .next (t.request t.cur 0 u o.b (o.releases t t.cur)) := by
  refine word_left hprep ?_
  rw [htarget, htimed]
  rfl
theorem execCresume_requests
    (hprep : prep { a := rd .x a, b := rd .x b, da := true, db := true, scope := true, level := .s } s = .ok (o, t))
    (htimed : (t.ctx t.cur).timed = none) (htarget : t.target t.cur o.a o.b false = .ok u) :
    execCresume a b s = .next (t.request t.cur 1 u o.b (o.releases t t.cur)) := by
  refine word_left hprep ?_
  rw [htarget, htimed]
  rfl
theorem execFenceX_requests (hprep : prep { a := rd .x a, b := rd .x b, da := true, db := true } s = .ok (o, t))
    (htimed : (t.ctx t.cur).timed = none) (htarget : t.target t.cur o.a o.b true = .ok u) :
    execFenceX a b s = .next (t.request t.cur 2 u o.b []) := by
  refine word_left hprep ?_
  rw [htarget, htimed]
  rfl

/-- The acknowledgement of the present wait completes its word (R465); a FENCE.X passes a snapshot boundary (R153). -/
theorem execStopAckArrival_completes {c : CtxId} (hctx : s.arg.ctx = c) (hst : (s.ctx c).st = .waiting)
    (hno : s.n 1 = (s.ctx c).waitNo) :
    execStopAckArrival s = .next ((if s.n 0 = 2 then s.snapBoundary c else s).wake c) := by
  subst hctx
  have hlive : (s.ctx s.arg.ctx).st ≠ .stopped := by
    rw [hst]
    decide
  have hwait : s.inWait s.arg.ctx (s.n 1) = true := by simp [State.inWait, hno, hst]
  rw [execStopAckArrival, State.heldIf, if_neg hlive, if_pos hwait, done]

end

end Sys2Proof.Machine

namespace Sys2Proof.Proofs
open Sys2Proof.Machine Sys2Proof.Claims

/-- Settles O2: each of the three words is a trap of its own with its code. -/
theorem trapWords : Obligations.TrapWords := by
  unfold Obligations.TrapWords
  intro e he s o t hprep
  simp only [List.mem_cons, List.not_mem_nil, or_false] at he
  obtain rfl | rfl | rfl := he
  · exact callWord_traps exec_trap hprep
  · exact callWord_traps exec_scall hprep
  · exact callWord_traps exec_brk hprep

theorem nopYieldJoin : NopYieldJoin := fun n => ⟨
  does_of_word exec_nop fun _ _ _ => rfl,
  fun s _ _ hprep hnone => (exec_yield s).trans (execYield_passes hprep rfl hnone),
  fun s _ _ hprep htimed hsome => (exec_yield s).symm ▸ execYield_waits hprep rfl htimed hsome,
  fun s _ _ hprep ⟨hself, hwin, hdone⟩ => (exec_joinh s n).trans (execJoinh_completes hprep hself hwin hdone),
  fun s _ _ hprep hself hwin hdone htimed => (exec_joinh s n).trans (execJoinh_waits hprep hself hwin hdone htimed)⟩

theorem haltFrees : HaltFrees := by
  intro s o t hprep hgrant hpkt hstores hhelpers
  obtain rfl := prep_of_no_source rfl rfl rfl rfl hprep
  obtain ⟨x, hx⟩ := t.freeCtx_ctx_self t.cur
  exact ⟨_, (exec_halt t).trans (execHalt_ends hprep hgrant hpkt hstores hhelpers), by rw [State.noteEnd_ctx, hx]; rfl,
    by rw [State.noteEnd_ctx, hx]; rfl⟩

/-- Settles O58: NOP, YIELD and JOINH complete where nothing makes them wait, and HALT leaves a freed context. -/
theorem plainSystemWords : Obligations.PlainSystemWords := by
  unfold Obligations.PlainSystemWords
  exact ⟨nopYieldJoin, haltFrees⟩

/-- Settles O4: each of the three words sends its request and waits, and the acknowledgement of that wait completes it. -/
theorem stopRequests : Obligations.StopRequests := by
  unfold Obligations.StopRequests
  intro a b kind s o t u g i hkind hprep htimed htarget
  refine ⟨?_, fun r hctx h0 hst hno => ?_⟩
  · obtain rfl | rfl | rfl : kind = 0 ∨ kind = 1 ∨ kind = 2 := by omega
    · exact (exec_cstop s a b).trans (execCstop_requests hprep htimed htarget)
    · exact (exec_cresume s a b).trans (execCresume_requests hprep htimed htarget)
    · exact (exec_fenceX s a b).trans (execFenceX_requests hprep htimed htarget)
  · rw [exec_stopAckArrival, execStopAckArrival_completes hctx hst hno, h0]

end Sys2Proof.Proofs
end

section
/-! PROOF. START and JOINH: the state in which a helper begins, and what its misuse takes (04_execution R76; 11_isa_scalar R282, R283;
21_traps R409, R412, R418). -/

namespace Sys2Proof.Machine
open Sys2Proof.Claims

theorem Mem.read_eq_zero : ∀ (n k : Nat) {m : List Host.Cell}, (∀ i, i < n → Mem.get m (k + i) = 0) → Mem.read m k n = 0
  | 0, _, _, _ => rfl
  | n + 1, k, m, h => by
    have hrest : Mem.read m (k + 1) n = 0 := Mem.read_eq_zero n (k + 1) fun i hi => by
      have hnext : k + 1 + i = k + (i + 1) := by omega
      rw [hnext]
      exact h (i + 1) (by omega)
    have hfirst : Mem.get m k = 0 := h 0 (by omega)
    rw [Mem.read, hrest, hfirst]
    rfl

/-- The fields of START. -/
def startSig (a b : Nat) : Sig := { a := rd .x a, b := rd .x b, da := true, db := true }

/-- The context that START gives a helper of the issuer c, to begin at an address in a cycle. -/
def State.helperCtx (s : State) (c h : CtxId) (keep : Bool) (pc : Word) (cyc : Nat) : Ctx :=
  Ctx.begin { (if keep then s.ctx h else (s.ctx h).cleared) with level := (s.ctx c).level, asid := (s.ctx c).asid } pc c.k cyc
/-- A helper's window before it begins: clear but for what keep leaves (R76, R282). -/
def State.readyWindow (s : State) (h : CtxId) (keep : Bool) : State := if keep then s else s.clearWindow h
/-- A helper has begun. -/
def State.beginHelper (s : State) (c h : CtxId) (keep : Bool) (pc : Word) : State :=
  (s.readyWindow h keep).setCtx h (s.helperCtx c h keep pc (s.readyWindow h keep).cyc)
/-- It has its argument in x2 and the number of its parent in x3 (R282). -/
def State.startHelper (s : State) (c h : CtxId) (keep : Bool) (pc : Word) (v : Nat) : State :=
  ((s.beginHelper c h keep pc).wx h 2 v).wx h 3 c.k

section
variable {s t : State} {o : Opnds} {a b n : Nat} {keep : Bool}

/-! ### When START begins a helper, and when not -/

section
variable (hprep : prep (startSig a b) s = .ok (o, t)) (hk : t.cur.k = 0)
include hprep hk

section
variable (hn : n ≠ 0) (hkind : n < t.cur.core.kind.contexts) (hwin : n < t.nwin t.cur.core) (hfree : (t.ctx ⟨t.cur.core, n⟩).st = .free)
include hn hkind hwin hfree

theorem execStart_starts (hids : t.windowIds t.cur ⟨t.cur.core, n⟩ = []) :
    execStart a b n keep s = .next ((t.startHelper t.cur ⟨t.cur.core, n⟩ keep (Word.ofN o.a) o.b).advance s.cur) := by
  have hlive : (t.ctx ⟨t.cur.core, n⟩).live = false := by rw [Ctx.live, hfree]; rfl
  refine word_done hprep ?_
  have hgood : ¬(n = 0 ∨ n ≥ t.cur.core.kind.contexts ∨ n ≥ t.nwin t.cur.core) := by omega
  rw [if_neg (Classical.not_not.2 hk), if_neg hgood, hlive, hids]
  rfl
/-- It waits for the parent's stores to the window (R76). -/
theorem execStart_waits (hids : t.windowIds t.cur ⟨t.cur.core, n⟩ ≠ []) :
    execStart a b n keep s = .next (s.sleepOr s.cur (.accesses (t.windowIds t.cur ⟨t.cur.core, n⟩)) 9) := by
  have hlive : (t.ctx ⟨t.cur.core, n⟩).live = false := by rw [Ctx.live, hfree]; rfl
  have hgood : ¬(n = 0 ∨ n ≥ t.cur.core.kind.contexts ∨ n ≥ t.nwin t.cur.core) := by omega
  obtain ⟨id, ids, hcons⟩ := List.exists_cons_of_ne_nil hids
  have hfinish : execStart a b n keep s = .next (s.finish s.cur (.error (.retry (.accesses (t.windowIds t.cur ⟨t.cur.core, n⟩))))) := by
    refine (word_of_prep hprep).trans ?_
    dsimp only
    rw [if_neg (Classical.not_not.2 hk), if_neg hgood, hlive, hcons]
    rfl
  exact hfinish

end

end

/-! ### The helper's context and registers -/

section
variable (c h : CtxId) (pc : Word) (v : Nat)

theorem State.startHelper_ctx_self : (s.startHelper c h keep pc v).ctx h = s.helperCtx c h keep pc (s.readyWindow h keep).cyc := by
  simp only [State.startHelper, State.beginHelper, State.ctx_wx, State.ctx_setCtx]

/-- A context's window stands where the unit of its core puts it (R79, R213). -/
theorem State.win_congr_unit {t : State} (hunit : (t.core c.core).unit = (s.core c.core).unit) : t.win c = s.win c := by
  simp only [State.win, State.ownBase, hunit]

theorem State.clearWindow_win : (s.clearWindow h).win h = s.win h := by
  refine State.win_congr_unit h ?_
  simp [State.clearWindow, State.zero, State.core, State.setCore]
theorem State.clearWindow_mem :
    (s.clearWindow h).mem = Mem.write (Mem.write s.mem (s.win h) 768 0) (s.win h + 1024) 512 0 := by
  simp only [State.clearWindow, State.zero, State.setCore_mem]

/-- The scalar registers of a cleared window are zero (R76). -/
theorem State.rx_clearWindow (hwf : Mem.wf s.mem = true) {r : Nat} (hr : r < 32) : (s.clearWindow h).rx h r = 0 := by
  have hbytes : Mem.read (s.clearWindow h).mem (s.win h + 8 * r) 8 = 0 := Mem.read_eq_zero 8 _ fun i hi => by
    have hplace : s.win h + 8 * r + i = s.win h + (8 * r + i) := Nat.add_assoc ..
    rw [State.clearWindow_mem, Mem.get_write_other _ _ _ _ (Mem.wf_write _ _ _ hwf) (by omega), hplace,
      Mem.get_write _ _ _ _ hwf (by omega), Nat.zero_div]
    rfl
  rw [State.rx, State.clearWindow_win, hbytes, ite_self]

theorem State.wf_beginHelper (hwf : Mem.wf s.mem = true) : Mem.wf (s.beginHelper c h keep pc).mem = true := by
  rw [State.beginHelper, State.setCtx_mem, State.readyWindow]
  split
  · exact hwf
  · rw [State.clearWindow_mem]
    exact Mem.wf_write _ _ _ (Mem.wf_write _ _ _ hwf)

theorem State.rx_setCtx (k : CtxId) (x : Ctx) (r : Nat) : (s.setCtx k x).rx c r = s.rx c r := rfl

/-- A write of a scalar register leaves the others (R79). -/
theorem State.rx_wx_other (hwf : Mem.wf s.mem = true) {r k : Nat} (hk : k ≠ r) : (s.wx h r v).rx h k = s.rx h k :=
  (State.wx_leavesBeside hwf h r v).rx (by simp only [regBytes, List.mem_singleton, forall_eq]; omega)

section
variable (hwf : Mem.wf s.mem = true)
include hwf

theorem State.startHelper_rx_three : (s.startHelper c h keep pc v).rx h 3 = uns c.k := by
  rw [State.startHelper, State.rx_wx_same (State.wf_wx _ _ _ (State.wf_beginHelper c h pc hwf)) _ _ _ (by decide), uns]
theorem State.startHelper_rx_two : (s.startHelper c h keep pc v).rx h 2 = uns v := by
  have hbegin := State.wf_beginHelper (keep := keep) c h pc hwf
  rw [State.startHelper, State.rx_wx_other _ _ (State.wf_wx _ _ _ hbegin) (by decide), State.rx_wx_same hbegin _ _ _ (by decide), uns]
/-- Without keep the other scalar registers are zero (R282). -/
theorem State.startHelper_rx_other {r : Nat} (hr : r < 32) (h2 : r ≠ 2) (h3 : r ≠ 3) :
    (s.startHelper c h false pc v).rx h r = 0 := by
  have hbegin := State.wf_beginHelper (keep := false) c h pc hwf
  rw [State.startHelper, State.rx_wx_other _ _ (State.wf_wx _ _ _ hbegin) h3, State.rx_wx_other _ _ hbegin h2, State.beginHelper,
    State.rx_setCtx, State.readyWindow, if_neg Bool.false_ne_true, State.rx_clearWindow h hwf hr]

end

end

end

end Sys2Proof.Machine

namespace Sys2Proof.Proofs
open Sys2Proof.Machine Sys2Proof.Claims

theorem startHelper : StartHelper := by
  intro a b n keep s o t hprep hwf hk hn hkind hwin hfree h
  refine ⟨fun hids _ => (exec_start s a b n keep).trans (execStart_waits hprep hk hn hkind hwin hfree hids), fun hids => ?_⟩
  have hctx := State.startHelper_ctx_self (s := t) (keep := keep) t.cur h (Word.ofN o.a) o.b
  refine ⟨_, (exec_start s a b n keep).trans (execStart_starts hprep hk hn hkind hwin hfree hids), ?_⟩
  rw [hctx, State.startHelper_rx_two t.cur h _ _ hwf, State.startHelper_rx_three t.cur h _ _ hwf, hk]
  refine ⟨rfl, rfl, hk, rfl, rfl, ?_, ?_, rfl, rfl, ?_⟩
  · cases keep <;> rfl
  · cases keep <;> rfl
  · rintro rfl
    exact ⟨rfl, rfl, rfl, fun r hr h2 h3 => State.startHelper_rx_other t.cur h _ _ hwf hr h2 h3⟩

theorem helperMisuse : HelperMisuse := fun a b n keep => ⟨
  traps_of_word (exec_start · a b n keep) fun o t hk => by
    rw [if_pos hk]
    rfl,
  traps_of_word (exec_start · a b n keep) fun o t ⟨hk, hno⟩ => by
    have hbad : n = 0 ∨ n ≥ t.cur.core.kind.contexts ∨ n ≥ t.nwin t.cur.core := hno
    rw [if_neg (Classical.not_not.2 hk), if_pos hbad]
    rfl,
  traps_of_word (exec_joinh · n) fun o t hself => by
    rw [if_pos hself]
    rfl⟩

/-- Settles O45: START passes its checks in order, and what it then leaves is the helper's window and context as it makes them. -/
theorem helperStart : Obligations.HelperStart := by
  unfold Obligations.HelperStart
  exact ⟨startHelper, helperMisuse⟩

end Sys2Proof.Proofs
end

section
/-! PROOF. The system words from the state alone: what ERET leaves, and that the words of a state without hints complete (11_isa_scalar
R282, R283, R289, R290, R465; 14_isa_memory R355; 21_traps R414). -/

namespace Sys2Proof.Machine
open Sys2Proof.Claims

/-! ### ERET (R414) -/

section
variable {s t : State} {o : Opnds}

theorem State.sfuEnter_ctxs (u : CoreId) (r : SfuReq) (timed : Bool) : (s.sfuEnter u r timed).ctxs = s.ctxs := rfl
/-- Requests that re-enter leave their context but for the list of those withdrawn (R421). -/
theorem State.sfuReenter_ctx_self (c : CtxId) (p : Option Level → Bool) :
    (s.sfuReenter c p).ctx c = { s.ctx c with sfuHeld := (s.ctx c).sfuHeld.filter fun r => !p r.2 } := by
  have hall (l : List (SfuReq × Option Level)) (t : State) :
      (l.foldl (fun s r => s.sfuEnter c.core r.1 false) t).ctxs = t.ctxs := foldl_keeps (fun t r => State.sfuEnter_ctxs ..) l t
  simp only [State.sfuReenter, State.ctx, hall, State.setCtx_ctxs, Tab.get_set_self]

/-- The record that a context leaves its handler by. -/
def Ctx.record (x : Ctx) : TrapRec := if x.level = .h then x.trapH else x.trapS

theorem Ctx.leave_level_code (x : Ctx) (cyc : Nat) (h3 : bits x.record.cause.toNat 23 22 ≠ 3) :
    (x.leave cyc).level.code = bits x.record.cause.toNat 23 22 := by
  have hlt := bits_lt x.record.cause.toNat 23 22
  change (if bits x.record.cause.toNat 23 22 = 0 then Level.u else if bits x.record.cause.toNat 23 22 = 1 then Level.s else Level.h).code = _
  split
  · next h => rw [h]; rfl
  · split
    · next h => rw [h]; rfl
    · simp only [Level.code]
      omega

theorem execEret_returns (hprep : prep { level := .s } s = .ok (o, t)) (hinh : bit (t.ctx t.cur).record.stat.toNat 0 = true)
    (hle : bits (t.ctx t.cur).record.cause.toNat 23 22 ≤ (t.ctx t.cur).level.code)
    (h3 : bits (t.ctx t.cur).record.cause.toNat 23 22 ≠ 3) :
    execEret s = .next ((t.setCtx t.cur ((t.ctx t.cur).leave t.cyc)).sfuReenter t.cur
      fun lv => lv == some ((t.ctx t.cur).leave t.cyc).level) := by
  have hgo : (!(t.ctx t.cur).record.inh || decide (bits (t.ctx t.cur).record.cause.toNat 23 22 > (t.ctx t.cur).level.code) ||
      bits (t.ctx t.cur).record.cause.toNat 23 22 == 3) = false := by
    simp [TrapRec.inh, hinh, h3, hle]
  refine word_left hprep ?_
  change (if (!(t.ctx t.cur).record.inh || decide (bits (t.ctx t.cur).record.cause.toNat 23 22 > (t.ctx t.cur).level.code) ||
      bits (t.ctx t.cur).record.cause.toNat 23 22 == 3) = true then _ else _) = _
  rw [hgo]
  rfl

end

/-! ### Acknowledgements (R465) -/

theorem execStopAckArrival_goes_on {r : State} {c : CtxId} (hctx : r.arg.ctx = c) (hst : (r.ctx c).st = .waiting)
    (hno : r.n 1 = (r.ctx c).waitNo) :
    ∃ t : State, execStopAckArrival r = .next t ∧ (t.ctx c).st = .ready ∧ (t.ctx c).pc = (r.ctx c).pc + 4 ∧ t.mem = r.mem := by
  refine ⟨_, execStopAckArrival_completes hctx hst hno, State.wake_ctx_st, ?_, ?_⟩
  · rw [State.wake_ctx_pc]
    split
    · simp only [State.snapBoundary, State.setCtx, State.ctx, Tab.get_set_self]
    · rfl
  · rw [State.wake_mem]
    split
    · exact State.snapBoundary_mem c
    · rfl

/-! ### Words of a bare state (R252, R429) -/

section
variable {s : State} (hbare : Bare s)
include hbare

theorem prep_of_bare_no_source {g : Sig} (hunit : unitCheck g {} s.cur.core.kind s.ir.toNat = .ok ())
    (hlevel : levelCheck (s.ctx s.cur).level g.level s.ir.toNat = .ok ()) (hg : g.d = none ∧ g.a = none ∧ g.b = none ∧ g.c = none)
    (hx : g.apart = false) : ∃ o, prep g s = .ok (o, s) := by
  obtain ⟨hbad, himm, hmod, -, hpoison⟩ := hbare
  obtain ⟨hd, ha, hb, hc⟩ := hg
  obtain ⟨o, ho, -⟩ := prep_plain (ra := 0) (rb := 0) (rd' := 0) hbad himm hmod hpoison hunit hlevel (.inl hd) (.inl ha) (.inl hb) hc hx
  exact ⟨o, ho⟩

theorem prep_of_bare_ab {g : Sig} {a b : Nat} (hunit : unitCheck g {} s.cur.core.kind s.ir.toNat = .ok ())
    (hlevel : levelCheck (s.ctx s.cur).level g.level s.ir.toNat = .ok ()) (hg : g.d = none ∧ g.a = rd .x a ∧ g.b = rd .x b ∧ g.c = none)
    (hx : g.apart = false) (ha : Complete s a) (hb : Complete s b) :
    ∃ o : Opnds, prep g s = .ok (o, s) ∧ o.m = {} ∧ o.a = reg s a ∧ o.b = reg s b := by
  obtain ⟨hbad, himm, hmod, -, hpoison⟩ := hbare
  obtain ⟨hd, hga, hgb, hc⟩ := hg
  obtain ⟨o, ho, hm, hoa, hob⟩ := prep_plain (rd' := 0) hbad himm hmod hpoison hunit hlevel (.inl hd) (.inr ⟨hga, ha⟩) (.inr ⟨hgb, hb⟩) hc hx
  exact ⟨o, ho, hm, hoa hga, hob hgb⟩

end

/-- Above U a word of level S may run (R9). -/
theorem levelCheck_s {lv : Level} (h : lv ≠ .u) (w : Nat) : levelCheck lv .s w = .ok () :=
  levelCheck_of_le (by cases lv <;> simp_all [Level.code]) w

theorem Opnds.releases_no_hints {o : Opnds} (hm : o.m = {}) (s : State) (c : CtxId) : o.releases s c = s.releaseIds c false := by
  rw [Opnds.releases, hm]
  rfl

end Sys2Proof.Machine

namespace Sys2Proof.Proofs
open Sys2Proof.Machine Sys2Proof.Claims

/-- Settles O30: a bare state has its operands in hand, and each word then does what it does of any operands. -/
theorem systemWordsComplete : Obligations.SystemWordsComplete := by
  unfold Obligations.SystemWordsComplete
  intro a b n keep s hbare c x h rec_ plv acknowledged
  have ⟨_, _, _, htimed, _⟩ := hbare
  have hack (kind : Nat) : acknowledged kind := fun r hctx _ hst hno =>
    (exec_stopAckArrival r).symm ▸ execStopAckArrival_goes_on hctx hst hno
  refine ⟨fun ha hb hk hn hkind hwin hfree hids => ?start, fun hself hwin hdone => ?joinh, fun hlevel hinh hle h3 => ?eret,
    fun u ha hb hlevel htarget => ?stop, fun u ha hb htarget => ⟨?fence, hack 2⟩⟩
  case start =>
    obtain ⟨o, hprep, -, hoa, -⟩ := prep_of_bare_ab (g := startSig a b) hbare (unitCheck_no_hints rfl rfl rfl _ _)
      (levelCheck_of_le (Nat.zero_le _) _) ⟨rfl, rfl, rfl, rfl⟩ rfl ha hb
    refine ⟨_, (exec_start s a b n keep).trans (execStart_starts hprep hk hn hkind hwin hfree hids), ?_⟩
    rw [State.startHelper_ctx_self, hoa]
    exact ⟨rfl, rfl, rfl, rfl, hk⟩
  case joinh =>
    obtain ⟨o, hprep⟩ := prep_of_bare_no_source (g := {}) hbare (unitCheck_no_hints rfl rfl rfl _ _)
      (levelCheck_of_le (Nat.zero_le _) _) ⟨rfl, rfl, rfl, rfl⟩ rfl
    exact (exec_joinh s n).trans (execJoinh_completes hprep hself hwin hdone)
  case eret =>
    obtain ⟨o, hprep⟩ := prep_of_bare_no_source (g := { level := .s }) hbare (unitCheck_no_hints rfl rfl rfl _ _)
      (levelCheck_s hlevel _) ⟨rfl, rfl, rfl, rfl⟩ rfl
    refine ⟨_, (exec_eret s).trans (execEret_returns hprep hinh hle h3), ?_⟩
    rw [State.sfuReenter_ctx_self, State.ctx_setCtx]
    exact ⟨x.leave_level_code s.cyc h3, rfl, rfl⟩
  case stop =>
    obtain ⟨o, hprep, hm, hoa, hob⟩ := prep_of_bare_ab (g := { startSig a b with scope := true, level := .s }) hbare
      (unitCheck_no_hints rfl rfl rfl _ _) (levelCheck_s hlevel _) ⟨rfl, rfl, rfl, rfl⟩ rfl ha hb
    rw [← hoa, ← hob] at htarget
    rw [← hob, ← Opnds.releases_no_hints hm]
    exact ⟨(exec_cstop s a b).trans (execCstop_requests hprep htimed htarget),
      (exec_cresume s a b).trans (execCresume_requests hprep htimed htarget), hack 0, hack 1⟩
  case fence =>
    obtain ⟨o, hprep, -, hoa, hob⟩ := prep_of_bare_ab (g := startSig a b) hbare (unitCheck_no_hints rfl rfl rfl _ _)
      (levelCheck_of_le (Nat.zero_le _) _) ⟨rfl, rfl, rfl, rfl⟩ rfl ha hb
    rw [← hoa, ← hob] at htarget
    rw [← hob]
    exact (exec_fenceX s a b).trans (execFenceX_requests hprep htimed htarget)

end Sys2Proof.Proofs
end

section
/-! PROOF. The supervisor's words and the command words (08_scheduling R208, R209; 11_isa_scalar R286, R288, R291, R292). -/

namespace Sys2Proof.Machine
open Sys2Proof.Claims

section
variable {s t t' : State} {o : Opnds} {d a b : Nat}

/-! ### WFI (R286) -/

/-- With a cause WFI returns its mask and begins to count again. -/
theorem execWfi_returns (hprep : prep { rr d a with level := .s } s = .ok (o, t)) (hmask : t.wfiMask t.cur false ≠ 0)
    (hput : (t.setCtx t.cur (t.ctx t.cur).wfiClear).putX t.cur o d (t.wfiMask t.cur false) = .ok t') :
    execWfi d a s = .next (t'.advance s.cur) := by
  refine word_done hprep ?_
  dsimp only
  rw [if_pos hmask]
  exact retX_ok hput
/-- WFI's wait, whose end is due where a timeout is given (R286). -/
def State.wfiSleep (s : State) (c : CtxId) (timeout d : Nat) : State :=
  if timeout = 0 then s.sleep c .wfi
  else (s.sleep c .wfi).after timeout .wfiTimeout { ctx := c, ns := [((s.sleep c .wfi).ctx c).waitNo, d] }
theorem State.wfiSleep_ctx (c : CtxId) (timeout d : Nat) : (s.wfiSleep c timeout d).ctx c = (s.sleep c .wfi).ctx c := by
  unfold State.wfiSleep
  split <;> rfl

/-- Without a cause it waits. -/
theorem execWfi_waits (hprep : prep { rr d a with level := .s } s = .ok (o, t)) (hmask : t.wfiMask t.cur false = 0)
    (htimed : (t.ctx t.cur).timed = none) (hst : (t.ctx t.cur).st ≠ .waiting) :
    execWfi d a s = .next (t.wfiSleep t.cur o.a d) := by
  have hgo : ¬((t.ctx t.cur).timed.isSome = true) := by simp [htimed]
  refine word_left hprep ?_
  dsimp only
  rw [if_neg (Classical.not_not.2 hmask), if_neg hgo, if_neg hst]
  rfl

/-! ### PGATE (R288) -/

section
variable {cl : Cluster} {k : Nat} (hprep : prep { rr d a with level := .s } s = .ok (o, t)) (ha : o.a < 4096)
  (henabled : enabled (bits o.a 11 9) (bits o.a 8 4) (bits o.a 3 0) = true) (hreach : t.mayReach t.cur (bits o.a 11 9) = true)
  (hk : clusterNo (bits o.a 11 9) (bits o.a 8 4) (bits o.a 3 0) = k) (hcl : t.cluster k = cl)
include hprep ha henabled hreach hk hcl

theorem execPgate_of_target {u : State} {prior : Nat}
    (hprior : (if cl.power = .gated then 2 else if cl.gateReq = true then 1 else 0) = prior)
    (hu : (if prior = 0 then (t.setCluster k { cl with gateReq := true }).after 1 .clusterGate { ns := [k] } else t) = u)
    (hput : u.putX t.cur o d prior = .ok t') : execPgate d a s = .next (t'.advance s.cur) := by
  have hgood : ¬(o.a / 4096 ≠ 0 ∨ (!enabled (bits o.a 11 9) (bits o.a 8 4) (bits o.a 3 0)) = true ∨
      (!t.mayReach t.cur (bits o.a 11 9)) = true) := by
    simp [henabled, hreach, Nat.div_eq_of_lt ha]
  have hcur : u.cur = t.cur := by
    rw [← hu]
    split <;> rfl
  refine word_done hprep ?_
  dsimp only
  rw [if_neg hgood, hk, hcl, hprior, hu, hcur]
  exact retX_ok hput

theorem execPgate_gated (hpower : cl.power = .gated) (hput : t.putX t.cur o d 2 = .ok t') :
    execPgate d a s = .next (t'.advance s.cur) :=
  execPgate_of_target hprep ha henabled hreach hk hcl (if_pos hpower) (if_neg (by decide)) hput
theorem execPgate_pending (hpower : cl.power ≠ .gated) (hreq : cl.gateReq = true) (hput : t.putX t.cur o d 1 = .ok t') :
    execPgate d a s = .next (t'.advance s.cur) :=
  execPgate_of_target hprep ha henabled hreach hk hcl ((if_neg hpower).trans (if_pos hreq)) (if_neg (by decide)) hput
theorem execPgate_awake (hpower : cl.power ≠ .gated) (hreq : cl.gateReq = false)
    (hput : ((t.setCluster k { cl with gateReq := true }).after 1 .clusterGate { ns := [k] }).putX t.cur o d 0 = .ok t') :
    execPgate d a s = .next (t'.advance s.cur) :=
  execPgate_of_target hprep ha henabled hreach hk hcl ((if_neg hpower).trans (if_neg (by simp [hreq]))) (if_pos rfl) hput

end

/-! ### Command words (R209, R291) -/

/-- Context c waits for the news of a command whose block holds w and which is on its way to its command processor (R208, R291). -/
def State.CommandSent (s : State) (c : CtxId) (w : Nat → Nat) : Prop :=
  (s.ctx c).wait = .command ∧
    ∃ e ∈ s.agenda, e.2.1 = .commandBlockArrival ∧ e.2.2.ctx = c ∧ e.2.2.ns.getD 1 0 = (s.ctx c).waitNo ∧
      e.2.2.ns.getD 4 0 = w 0 ∧ e.2.2.ns.getD 5 0 = w 1 ∧ e.2.2.ns.getD 6 0 = w 2

theorem State.commandSent (s : State) (c : CtxId) (w : Nat → Nat) (lat phase type pri : Nat) (rest : List Nat) :
    ((s.sleep c .command).after lat .commandBlockArrival
      { ctx := c, ns := phase :: ((s.sleep c .command).ctx c).waitNo :: type :: pri :: w 0 :: w 1 :: w 2 :: rest }).CommandSent c w :=
  ⟨by simp, _, State.mem_after_agenda .., rfl, rfl, rfl, rfl, rfl, rfl⟩

/-- A command word of a well-formed block sends it, where the addresses that the block names translate. -/
theorem command_sends {launch : Bool} {ws : List Nat} {w : Nat → Nat} {part asid : Nat} {t1 t2 : State}
    (hw : ∀ i, ws.getD i 0 = w i) (hpart : (t.partOf t.cur).getD ((t.partition (firstPylon (bits (w 5) 15 8))).getD 8) = part)
    (hasid : (if (t.ctx t.cur).level ≠ .u then w 3 % 65536 + 65536 * part else t.spaceOf t.cur) = asid)
    (ht1 : (if (t.ctx t.cur).level ≠ .u then t.nameSpace asid (w 4) part else t) = t1)
    (hprep : prep { a := rd .x a, da := true, scope := true } s = .ok (o, t)) (hown : t.ownWords t.cur o.a 64 = .ok ws)
    (htimed : (t.ctx t.cur).timed = none)
    (hmay : (s.ctx s.cur).level ≠ .u ∨ (s.launchOf s.cur.core).elim false (·.lperm) = true) (hblock : blockBad w = false)
    (htype : if launch = true then w 5 % 4 = 0 else w 5 % 4 = 1 ∨ w 5 % 4 = 2) (halign : w 2 % 8 = 0)
    (hstatus : w 2 = 0 ∧ t2 = t1 ∨ w 2 ≠ 0 ∧ ∃ k, t1.cmdPlace asid (w 2) true = .ok (t2, k))
    (hheader : launch = false ∨ w 0 = 0 ∨ (w 0 + 16) % 8 = 0 ∧ ∃ r, t2.cmdPlace asid (w 0 + 16) false = .ok r) :
    ∃ t' : State, command a launch s = .next t' ∧ t'.CommandSent s.cur w := by
  have hallowed : ¬((s.ctx s.cur).level = .u ∧ (!(s.launchOf s.cur.core).elim false (·.lperm)) = true) := by
    obtain hlevel | hperm := hmay
    · simp [hlevel]
    · simp [hperm]
  have hfields : ¬(blockBad w = true ∨ w 5 % 4 = 3 ∨ launch = true ∧ w 5 % 4 ≠ 0 ∨ (!launch) = true ∧ w 5 % 4 = 0) := by
    cases launch
    · have hcopy : w 5 % 4 = 1 ∨ w 5 % 4 = 2 := htype
      simp only [hblock, Bool.false_eq_true, Bool.not_false, false_or, false_and, true_and]
      omega
    · have hcompute : w 5 % 4 = 0 := htype
      simp [hblock, hcompute]
  have hlaunch : ¬(launch = true ∧ w 0 % 8 ≠ 0) := by
    rintro ⟨rfl, h0⟩
    simp only [Bool.true_eq_false, false_or] at hheader
    omega
  have hspace (root : Nat) : (if (t.ctx t.cur).level ≠ .u then
      t.nameSpace asid (if (t.ctx t.cur).level ≠ .u then w 4 else root) part else t) = t1 := by
    rw [← ht1]
    split <;> rfl
  have huntimed : ¬((t.ctx t.cur).timed.isSome = true) := by simp [htimed]
  have hheader : ((!launch) = true ∨ w 0 = 0) ∨ ¬((!launch) = true ∨ w 0 = 0) ∧ ∃ r, t2.cmdPlace asid (w 0 + 16) false = .ok r := by
    by_cases hno : (!launch) = true ∨ w 0 = 0
    · exact .inl hno
    · refine .inr ⟨hno, ?_⟩
      obtain hl | h0 | ⟨-, hr⟩ := hheader
      · exact absurd (.inl (by rw [hl]; rfl)) hno
      · exact absurd (.inr h0) hno
      · exact hr
  rw [← prep_cur hprep]
  unfold command
  rw [wordWith_of_prep hprep (if_neg hallowed)]
  dsimp only
  rw [hown]
  dsimp only [bind, Except.bind, pure, Except.pure]
  simp only [hw]
  rw [if_neg hfields, if_neg (Classical.not_not.2 halign), if_neg hlaunch, hpart, hasid, hspace]
  obtain ⟨h2, rfl⟩ | ⟨h2, k, hplace⟩ := hstatus
  case' inl => rw [if_pos h2]
  case' inr =>
    rw [if_neg h2, hplace]
    dsimp only
  all_goals
    obtain hno | ⟨hread, r, hr⟩ := hheader
    · rw [if_pos hno, if_neg huntimed]
      exact ⟨_, rfl, State.commandSent ..⟩
    · rw [if_neg hread, hr]
      dsimp only
      rw [if_neg huntimed]
      exact ⟨_, rfl, State.commandSent ..⟩

end

end Sys2Proof.Machine

namespace Sys2Proof.Proofs
open Sys2Proof.Machine Sys2Proof.Claims

theorem supervisorWords : SupervisorWords := by
  intro d a b
  refine ⟨fun s o t t' hprep hmask hput => (exec_wfi s d a).trans (execWfi_returns hprep hmask hput),
    fun s o t hprep hmask htimed hst => ⟨_, (exec_wfi s d a).trans (execWfi_waits hprep hmask htimed hst), ?_⟩,
    fun s o t t' hprep ha => ?_,
    does_of_word (exec_tlbinvAsid · b) fun o t hids => ?_, does_of_word (exec_tlbinvPage · a b) fun o t hids => ?_,
    does_of_word exec_tlbinvAll fun o t hids => ?_⟩
  · rw [← prep_cur hprep, State.wfiSleep_ctx, State.sleep_ctx_self]
    exact ⟨rfl, rfl⟩
  · intro p k henabled hreach
    refine ⟨fun hpower hput => ?_, fun hpower hreq hput => ?_, fun hpower hreq hput => ?_⟩
    · exact (exec_pgate s d a).trans (execPgate_gated hprep ha henabled hreach rfl rfl hpower hput)
    · exact (exec_pgate s d a).trans (execPgate_pending hprep ha henabled hreach rfl rfl hpower hreq hput)
    · exact (exec_pgate s d a).trans (execPgate_awake hprep ha henabled hreach rfl rfl hpower hreq hput)
  all_goals
    rw [hids]
    rfl

theorem commandWords : CommandWords := by
  intro a launch s o t ws w x part asid t1 hprep hown htimed hmay hblock htype halign t2 hstatus hheader
  obtain ⟨t', hcommand, hsent⟩ := command_sends (fun _ => rfl) rfl rfl rfl hprep hown htimed hmay hblock htype halign hstatus hheader
  refine ⟨t', ?_, hsent⟩
  cases launch
  · exact (exec_qpost s a).trans hcommand
  · exact (exec_launch s a).trans hcommand

/-- Settles O52: WFI, PGATE and TLBINV have their effect behind their own checks, and a command word whose addresses translate leaves its
context waiting and the command on its way. -/
theorem supervisorAndCommandWords : Obligations.SupervisorAndCommandWords := by
  unfold Obligations.SupervisorAndCommandWords
  exact ⟨supervisorWords, commandWords⟩

end Sys2Proof.Proofs
end
